-- ==== Sys2Proof/Word.lean ====
section
/-! DEFINITION. The words of the machine: a scalar register, a byte and a vector register (R246, R5). -/

namespace Sys2Proof

/-- A 64-bit scalar register or address (R246). -/
abbrev Word := BitVec 64

/-- One byte of memory (R5). -/
abbrev Byte := BitVec 8

/-- A 1,024-bit vector register of 32 lanes; lane i is bits [32i+31:32i] (R5). -/
abbrev Vec := BitVec 1024

end Sys2Proof
end

