-- ==== Sys2Proof/Config.lean ====
section
/-! DEFINITION. What the spec leaves to an implementation: free values, each an opaque constant that nothing can evaluate (log 12). -/

namespace Sys2Proof.Config

/-- A byte whose value the spec leaves open, one for each count of State.free (log 12). -/
opaque freeByte : Nat → BitVec 8

/-- A word whose value the spec leaves open, one for each count of State.free (log 12). -/
opaque freeWord : Nat → BitVec 64

/-- A choice that the spec leaves open among several, one for each count of State.free, reduced below their number where it is
used (log 12). -/
opaque freeIndex : Nat → Nat

/-- The address at which the shipped agent image starts (R163, R429 stage 7); the spec gives no value (log 19). -/
opaque agentEntry : BitVec 64

/-- The entry of the shipped agent's trap handler that firmware writes into TVEC (R429, R447); the spec gives no value (log 19). -/
opaque handlerEntry : BitVec 64

/-- Byte i of the DER certificate chain that firmware holds (R422). -/
opaque certByte : Nat → BitVec 8

/-- The length in bytes of the certificate chain, reduced below 4,097 where it is used (R422). -/
opaque certLength : Nat

/-- The 48-byte SHA-384 digest of a message; its value belongs to the named standard and not to this spec (R422, log 19). -/
opaque sha384 : List (BitVec 8) → Nat → BitVec 8

/-- Byte i of the ECDSA signature (r, then s) over a message, made with the module's identity key (R422). -/
opaque signature : List (BitVec 8) → Nat → BitVec 8

/-- The body of the firmware image, as bytes (R421). -/
opaque firmwareImage : List (BitVec 8)

/-- The body of agent image n, as bytes; image 0 is the shipped one (R421). -/
opaque agentImage : Nat → List (BitVec 8)

/-- The 16-bit version in the header of the firmware image (R421). -/
opaque firmwareVersion : BitVec 16

/-- The 16-bit version in the header of agent image n (R421). -/
opaque agentVersion : Nat → BitVec 16

/-- The rest of the firmware image's header: its digest in bytes 0 to 47, its signature in bytes 48 to 143 (R421). -/
opaque firmwareHeader : Nat → BitVec 8

/-- The same of agent image n (R421). -/
opaque agentHeader : Nat → Nat → BitVec 8

/-- An ECDSA signature over a digest fails against the Ndehistad key (R421). -/
opaque badSignature : List (BitVec 8) → List (BitVec 8) → Bool

/-- The fused minimum version (R421). -/
opaque fusedMinimum : BitVec 16

/-- The address-hash lane of a line, by its number: a fixed function that the spec does not give (R115, R419). -/
opaque lane : Nat → Nat

end Sys2Proof.Config
end

