-- ==== Sys2Proof/Syntax.lean ====
section
/-! DEFINITION. The instructions and events of spec/opcode_table.json: one constructor per row. -/

namespace Sys2Proof

/-- The four slot positions of a bundle and their classes (R233, Table 10-1). -/
inductive Pos where
  | x | s | v | e
  deriving DecidableEq, Repr, Inhabited

/-- One constructor per row of the table of operations and events. A slot instruction carries its guard predicate g
and its operands with the header bits merged in (R235 to R237); an event carries what names it. -/
inductive Instr where
  /-- NOP (R236). -/
  | nop
  /-- HDR (R237). -/
  | hdr (h : BitVec 24)
  /-- BR (R255). -/
  | br (g : BitVec 4) (off : BitVec 20)
  /-- BRL (R255). -/
  | brl (g : BitVec 4) (off : BitVec 20)
  /-- JR (R255). -/
  | jr (g : BitVec 4) (a : BitVec 5)
  /-- JRL (R255). -/
  | jrl (g : BitVec 4) (d : BitVec 5) (a : BitVec 5)
  /-- LOOP (R258). -/
  | loop (g : BitVec 4) (lv : BitVec 2) (a : BitVec 5) (dist : BitVec 10)
  /-- LOOPI (R258). -/
  | loopi (g : BitVec 4) (lv : BitVec 2) (n : BitVec 8) (dist : BitVec 7)
  /-- LBRK (R262). -/
  | lbrk (g : BitVec 4) (lv : BitVec 2)
  /-- MTL (R260). -/
  | mtl (g : BitVec 4) (k : BitVec 4) (a : BitVec 5)
  /-- MFL (R260). -/
  | mfl (g : BitVec 4) (d : BitVec 5) (k : BitVec 4)
  /-- YIELD (R264). -/
  | yield (g : BitVec 4) (n : BitVec 16)
  /-- SEG (R266). -/
  | seg (g : BitVec 4) (a : BitVec 5) (aflag : BitVec 1)
  /-- RDV (R267). -/
  | rdv (g : BitVec 4) (twr : BitVec 1) (k : BitVec 6)
  /-- TRAP (R268). -/
  | trap (g : BitVec 4) (code : BitVec 8)
  /-- TRAPB (R268). -/
  | trapb (g : BitVec 4) (code : BitVec 5) (a : BitVec 5) (bound : BitVec 10)
  /-- ERET (R200). -/
  | eret (g : BitVec 4)
  /-- EXIT (R270). -/
  | exit (g : BitVec 4)
  /-- PAUSE (R265). -/
  | pause (g : BitVec 4)
  /-- XADD (R271). -/
  | xadd (g : BitVec 4) (d : BitVec 5) (a : BitVec 5) (b : BitVec 5)
  /-- XADDI (R271). -/
  | xaddi (g : BitVec 4) (d : BitVec 5) (a : BitVec 5) (imm : BitVec 10)
  /-- XMOVI (R271). -/
  | xmovi (g : BitVec 4) (d : BitVec 5) (imm : BitVec 15)
  /-- XMOVHI (R271). -/
  | xmovhi (g : BitVec 4) (d : BitVec 5) (imm : BitVec 15)
  /-- ADD (R273). -/
  | add (g : BitVec 4) (d : BitVec 6) (a : BitVec 6) (b : BitVec 6)
  /-- SUB (R273). -/
  | sub (g : BitVec 4) (d : BitVec 6) (a : BitVec 6) (b : BitVec 6)
  /-- ADDI (R274). -/
  | addi (g : BitVec 4) (d : BitVec 6) (a : BitVec 6) (imm : BitVec 15)
  /-- MUL (R275). -/
  | mul (g : BitVec 4) (d : BitVec 6) (a : BitVec 6) (b : BitVec 6)
  /-- MULHS (R275). -/
  | mulhs (g : BitVec 4) (d : BitVec 6) (a : BitVec 6) (b : BitVec 6)
  /-- MULHU (R275). -/
  | mulhu (g : BitVec 4) (d : BitVec 6) (a : BitVec 6) (b : BitVec 6)
  /-- DIVS (R275). -/
  | divs (g : BitVec 4) (d : BitVec 6) (a : BitVec 6) (b : BitVec 6)
  /-- DIVU (R275). -/
  | divu (g : BitVec 4) (d : BitVec 6) (a : BitVec 6) (b : BitVec 6)
  /-- REMS (R275). -/
  | rems (g : BitVec 4) (d : BitVec 6) (a : BitVec 6) (b : BitVec 6)
  /-- REMU (R275). -/
  | remu (g : BitVec 4) (d : BitVec 6) (a : BitVec 6) (b : BitVec 6)
  /-- AND (R273). -/
  | and (g : BitVec 4) (d : BitVec 6) (a : BitVec 6) (b : BitVec 6)
  /-- OR (R273). -/
  | or (g : BitVec 4) (d : BitVec 6) (a : BitVec 6) (b : BitVec 6)
  /-- XOR (R273). -/
  | xor (g : BitVec 4) (d : BitVec 6) (a : BitVec 6) (b : BitVec 6)
  /-- ANDI (R274). -/
  | andi (g : BitVec 4) (d : BitVec 6) (a : BitVec 6) (imm : BitVec 15)
  /-- ORI (R274). -/
  | ori (g : BitVec 4) (d : BitVec 6) (a : BitVec 6) (imm : BitVec 15)
  /-- XORI (R274). -/
  | xori (g : BitVec 4) (d : BitVec 6) (a : BitVec 6) (imm : BitVec 15)
  /-- SHL (R273). -/
  | shl (g : BitVec 4) (d : BitVec 6) (a : BitVec 6) (b : BitVec 6)
  /-- SHR (R273). -/
  | shr (g : BitVec 4) (d : BitVec 6) (a : BitVec 6) (b : BitVec 6)
  /-- SAR (R273). -/
  | sar (g : BitVec 4) (d : BitVec 6) (a : BitVec 6) (b : BitVec 6)
  /-- SHLI (R274). -/
  | shli (g : BitVec 4) (d : BitVec 6) (a : BitVec 6) (k : BitVec 6)
  /-- SHRI (R274). -/
  | shri (g : BitVec 4) (d : BitVec 6) (a : BitVec 6) (k : BitVec 6)
  /-- SARI (R274). -/
  | sari (g : BitVec 4) (d : BitVec 6) (a : BitVec 6) (k : BitVec 6)
  /-- ROTR (R273). -/
  | rotr (g : BitVec 4) (d : BitVec 6) (a : BitVec 6) (b : BitVec 6)
  /-- CLZ (R276). -/
  | clz (g : BitVec 4) (d : BitVec 6) (a : BitVec 6)
  /-- CTZ (R276). -/
  | ctz (g : BitVec 4) (d : BitVec 6) (a : BitVec 6)
  /-- POPC (R276). -/
  | popc (g : BitVec 4) (d : BitVec 6) (a : BitVec 6)
  /-- MINS (R273). -/
  | mins (g : BitVec 4) (d : BitVec 6) (a : BitVec 6) (b : BitVec 6)
  /-- MAXS (R273). -/
  | maxs (g : BitVec 4) (d : BitVec 6) (a : BitVec 6) (b : BitVec 6)
  /-- MINU (R273). -/
  | minu (g : BitVec 4) (d : BitVec 6) (a : BitVec 6) (b : BitVec 6)
  /-- MAXU (R273). -/
  | maxu (g : BitVec 4) (d : BitVec 6) (a : BitVec 6) (b : BitVec 6)
  /-- ABS (R276). -/
  | abs (g : BitVec 4) (d : BitVec 6) (a : BitVec 6)
  /-- BFX (R276). -/
  | bfx (g : BitVec 4) (d : BitVec 6) (a : BitVec 6) (b : BitVec 6) (x : BitVec 1)
  /-- BFI (R276). -/
  | bfi (g : BitVec 4) (d : BitVec 6) (a : BitVec 6) (b : BitVec 6)
  /-- MOV (R276). -/
  | mov (g : BitVec 4) (d : BitVec 6) (a : BitVec 6)
  /-- MOVI (R277). -/
  | movi (g : BitVec 4) (d : BitVec 6) (imm : BitVec 20)
  /-- MOVHI (R277). -/
  | movhi (g : BitVec 4) (d : BitVec 6) (imm : BitVec 16)
  /-- SEL (R277). -/
  | sel (g : BitVec 4) (d : BitVec 6) (a : BitVec 6) (b : BitVec 6) (p : BitVec 4)
  /-- CMPEQ (R278). -/
  | cmpeq (g : BitVec 4) (d : BitVec 4) (a : BitVec 6) (b : BitVec 6)
  /-- CMPNE (R278). -/
  | cmpne (g : BitVec 4) (d : BitVec 4) (a : BitVec 6) (b : BitVec 6)
  /-- CMPLT (R278). -/
  | cmplt (g : BitVec 4) (d : BitVec 4) (a : BitVec 6) (b : BitVec 6)
  /-- CMPLE (R278). -/
  | cmple (g : BitVec 4) (d : BitVec 4) (a : BitVec 6) (b : BitVec 6)
  /-- CMPLTU (R278). -/
  | cmpltu (g : BitVec 4) (d : BitVec 4) (a : BitVec 6) (b : BitVec 6)
  /-- CMPLEU (R278). -/
  | cmpleu (g : BitVec 4) (d : BitVec 4) (a : BitVec 6) (b : BitVec 6)
  /-- CMPEQI (R278). -/
  | cmpeqi (g : BitVec 4) (d : BitVec 4) (a : BitVec 6) (imm : BitVec 15)
  /-- CMPLTI (R278). -/
  | cmplti (g : BitVec 4) (d : BitVec 4) (a : BitVec 6) (imm : BitVec 15)
  /-- PAND (R279). -/
  | pand (g : BitVec 4) (d : BitVec 4) (a : BitVec 4) (b : BitVec 4)
  /-- POR (R279). -/
  | por (g : BitVec 4) (d : BitVec 4) (a : BitVec 4) (b : BitVec 4)
  /-- PXOR (R279). -/
  | pxor (g : BitVec 4) (d : BitVec 4) (a : BitVec 4) (b : BitVec 4)
  /-- PNOT (R279). -/
  | pnot (g : BitVec 4) (d : BitVec 4) (a : BitVec 4)
  /-- PMOV (R279). -/
  | pmov (g : BitVec 4) (d : BitVec 4) (a : BitVec 6)
  /-- MFP (R279). -/
  | mfp (g : BitVec 4) (d : BitVec 6) (a : BitVec 4)
  /-- LDB (R281). -/
  | ldb (g : BitVec 4) (d : BitVec 6) (a : BitVec 6) (imm : BitVec 15)
  /-- LDBU (R281). -/
  | ldbu (g : BitVec 4) (d : BitVec 6) (a : BitVec 6) (imm : BitVec 15)
  /-- LDH (R281). -/
  | ldh (g : BitVec 4) (d : BitVec 6) (a : BitVec 6) (imm : BitVec 15)
  /-- LDHU (R281). -/
  | ldhu (g : BitVec 4) (d : BitVec 6) (a : BitVec 6) (imm : BitVec 15)
  /-- LDW (R281). -/
  | ldw (g : BitVec 4) (d : BitVec 6) (a : BitVec 6) (imm : BitVec 15)
  /-- LDWU (R281). -/
  | ldwu (g : BitVec 4) (d : BitVec 6) (a : BitVec 6) (imm : BitVec 15)
  /-- LDD (R281). -/
  | ldd (g : BitVec 4) (d : BitVec 6) (a : BitVec 6) (imm : BitVec 15)
  /-- LDQ (R281). -/
  | ldq (g : BitVec 4) (d : BitVec 6) (a : BitVec 6) (imm : BitVec 15)
  /-- STB (R281). -/
  | stb (g : BitVec 4) (d : BitVec 6) (a : BitVec 6) (imm : BitVec 15)
  /-- STH (R281). -/
  | sth (g : BitVec 4) (d : BitVec 6) (a : BitVec 6) (imm : BitVec 15)
  /-- STW (R281). -/
  | stw (g : BitVec 4) (d : BitVec 6) (a : BitVec 6) (imm : BitVec 15)
  /-- STD (R281). -/
  | std (g : BitVec 4) (d : BitVec 6) (a : BitVec 6) (imm : BitVec 15)
  /-- STQ (R281). -/
  | stq (g : BitVec 4) (d : BitVec 6) (a : BitVec 6) (imm : BitVec 15)
  /-- PFT (R283). -/
  | pft (g : BitVec 4) (h : BitVec 5) (a : BitVec 6) (imm : BitVec 15)
  /-- AADD (R284). -/
  | aadd (g : BitVec 4) (a : BitVec 6) (b : BitVec 6) (w : BitVec 1)
  /-- AMIN (R284). -/
  | amin (g : BitVec 4) (a : BitVec 6) (b : BitVec 6) (w : BitVec 1)
  /-- AMAX (R284). -/
  | amax (g : BitVec 4) (a : BitVec 6) (b : BitVec 6) (w : BitVec 1)
  /-- AMINU (R284). -/
  | aminu (g : BitVec 4) (a : BitVec 6) (b : BitVec 6) (w : BitVec 1)
  /-- AMAXU (R284). -/
  | amaxu (g : BitVec 4) (a : BitVec 6) (b : BitVec 6) (w : BitVec 1)
  /-- AAND (R284). -/
  | aand (g : BitVec 4) (a : BitVec 6) (b : BitVec 6) (w : BitVec 1)
  /-- AOR (R284). -/
  | aor (g : BitVec 4) (a : BitVec 6) (b : BitVec 6) (w : BitVec 1)
  /-- AXOR (R284). -/
  | axor (g : BitVec 4) (a : BitVec 6) (b : BitVec 6) (w : BitVec 1)
  /-- AXCHG (R284). -/
  | axchg (g : BitVec 4) (a : BitVec 6) (b : BitVec 6) (w : BitVec 1)
  /-- ACAS (R284). -/
  | acas (g : BitVec 4) (d : BitVec 6) (a : BitVec 6) (b : BitVec 6) (w : BitVec 1)
  /-- RADD (R284). -/
  | radd (g : BitVec 4) (a : BitVec 6) (b : BitVec 6) (w : BitVec 1)
  /-- RMIN (R284). -/
  | rmin (g : BitVec 4) (a : BitVec 6) (b : BitVec 6) (u : BitVec 1) (w : BitVec 1)
  /-- RMAX (R284). -/
  | rmax (g : BitVec 4) (a : BitVec 6) (b : BitVec 6) (u : BitVec 1) (w : BitVec 1)
  /-- RAND (R284). -/
  | rand (g : BitVec 4) (a : BitVec 6) (b : BitVec 6) (w : BitVec 1)
  /-- ROR (R284). -/
  | ror (g : BitVec 4) (a : BitVec 6) (b : BitVec 6) (w : BitVec 1)
  /-- RXOR (R284). -/
  | rxor (g : BitVec 4) (a : BitVec 6) (b : BitVec 6) (w : BitVec 1)
  /-- POPQ (R287). -/
  | popq (g : BitVec 4) (d : BitVec 6)
  /-- RFADD (R288). -/
  | rfadd (g : BitVec 4) (a : BitVec 6) (b : BitVec 6)
  /-- DRAIN (R116). -/
  | drain (g : BitVec 4) (sc : BitVec 3) (fl : BitVec 2)
  /-- WAITA (R291). -/
  | waita (g : BitVec 4) (a : BitVec 6) (b : BitVec 6) (w : BitVec 1) (c : BitVec 2)
  /-- MTG (R292). -/
  | mtg (g : BitVec 4) (a : BitVec 6) (i : BitVec 6)
  /-- MFG (R292). -/
  | mfg (g : BitVec 4) (d : BitVec 6) (i : BitVec 6)
  /-- MFSR (R248). -/
  | mfsr (g : BitVec 4) (d : BitVec 6) (n : BitVec 6)
  /-- VADD (R308). -/
  | vadd (g : BitVec 4) (d : BitVec 6) (a : BitVec 6) (b : BitVec 6) (m : BitVec 2) (w : BitVec 2)
  /-- VSUB (R308). -/
  | vsub (g : BitVec 4) (d : BitVec 6) (a : BitVec 6) (b : BitVec 6) (m : BitVec 2) (w : BitVec 2)
  /-- VMUL (R308). -/
  | vmul (g : BitVec 4) (d : BitVec 6) (a : BitVec 6) (b : BitVec 6) (w : BitVec 2)
  /-- VMULH (R308). -/
  | vmulh (g : BitVec 4) (d : BitVec 6) (a : BitVec 6) (b : BitVec 6) (u : BitVec 1) (w : BitVec 2)
  /-- VMAC (R308). -/
  | vmac (g : BitVec 4) (d : BitVec 6) (a : BitVec 6) (b : BitVec 6) (w : BitVec 2)
  /-- VMINS (R308). -/
  | vmins (g : BitVec 4) (d : BitVec 6) (a : BitVec 6) (b : BitVec 6) (w : BitVec 2)
  /-- VMAXS (R308). -/
  | vmaxs (g : BitVec 4) (d : BitVec 6) (a : BitVec 6) (b : BitVec 6) (w : BitVec 2)
  /-- VMINU (R308). -/
  | vminu (g : BitVec 4) (d : BitVec 6) (a : BitVec 6) (b : BitVec 6) (w : BitVec 2)
  /-- VMAXU (R308). -/
  | vmaxu (g : BitVec 4) (d : BitVec 6) (a : BitVec 6) (b : BitVec 6) (w : BitVec 2)
  /-- VABS (R308). -/
  | vabs (g : BitVec 4) (d : BitVec 6) (a : BitVec 6) (w : BitVec 2)
  /-- VAND (R308). -/
  | vand (g : BitVec 4) (d : BitVec 6) (a : BitVec 6) (b : BitVec 6)
  /-- VOR (R308). -/
  | vor (g : BitVec 4) (d : BitVec 6) (a : BitVec 6) (b : BitVec 6)
  /-- VXOR (R308). -/
  | vxor (g : BitVec 4) (d : BitVec 6) (a : BitVec 6) (b : BitVec 6)
  /-- VSHL (R308). -/
  | vshl (g : BitVec 4) (d : BitVec 6) (a : BitVec 6) (b : BitVec 6) (w : BitVec 2)
  /-- VSHR (R308). -/
  | vshr (g : BitVec 4) (d : BitVec 6) (a : BitVec 6) (b : BitVec 6) (w : BitVec 2)
  /-- VSAR (R308). -/
  | vsar (g : BitVec 4) (d : BitVec 6) (a : BitVec 6) (b : BitVec 6) (w : BitVec 2)
  /-- VFSHL (R308). -/
  | vfshl (g : BitVec 4) (d : BitVec 6) (a : BitVec 6) (b : BitVec 6) (k : BitVec 5)
  /-- VFSHR (R308). -/
  | vfshr (g : BitVec 4) (d : BitVec 6) (a : BitVec 6) (b : BitVec 6) (k : BitVec 5)
  /-- VROT (R308). -/
  | vrot (g : BitVec 4) (d : BitVec 6) (a : BitVec 6) (b : BitVec 6) (w : BitVec 2)
  /-- VPOPC (R308). -/
  | vpopc (g : BitVec 4) (d : BitVec 6) (a : BitVec 6) (w : BitVec 2)
  /-- VCLZ (R308). -/
  | vclz (g : BitVec 4) (d : BitVec 6) (a : BitVec 6) (w : BitVec 2)
  /-- VSHI (R309). -/
  | vshi (g : BitVec 4) (d : BitVec 6) (a : BitVec 6) (k : BitVec 2) (w : BitVec 2) (n : BitVec 5)
  /-- VBCST (R308). -/
  | vbcst (g : BitVec 4) (d : BitVec 6) (a : BitVec 6) (w : BitVec 2)
  /-- VTERN (R310). -/
  | vtern (g : BitVec 4) (d : BitVec 6) (a : BitVec 6) (b : BitVec 6) (t : BitVec 8)
  /-- VFADD (R311). -/
  | vfadd (g : BitVec 4) (d : BitVec 6) (a : BitVec 6) (b : BitVec 6) (r : BitVec 1) (e : BitVec 1)
  /-- VFSUB (R311). -/
  | vfsub (g : BitVec 4) (d : BitVec 6) (a : BitVec 6) (b : BitVec 6) (r : BitVec 1) (e : BitVec 1)
  /-- VFMUL (R311). -/
  | vfmul (g : BitVec 4) (d : BitVec 6) (a : BitVec 6) (b : BitVec 6) (r : BitVec 1) (e : BitVec 1)
  /-- VFMA (R311). -/
  | vfma (g : BitVec 4) (d : BitVec 6) (a : BitVec 6) (b : BitVec 6) (r : BitVec 1) (e : BitVec 1)
  /-- VFMAX (R311). -/
  | vfmax (g : BitVec 4) (d : BitVec 6) (a : BitVec 6) (b : BitVec 6) (e : BitVec 1)
  /-- VFMIN (R311). -/
  | vfmin (g : BitVec 4) (d : BitVec 6) (a : BitVec 6) (b : BitVec 6) (e : BitVec 1)
  /-- VEXP2 (R312). -/
  | vexp2 (g : BitVec 4) (d : BitVec 6) (a : BitVec 6)
  /-- VRCP (R312). -/
  | vrcp (g : BitVec 4) (d : BitVec 6) (a : BitVec 6)
  /-- VRSQ (R312). -/
  | vrsq (g : BitVec 4) (d : BitVec 6) (a : BitVec 6)
  /-- VFCMP (R313). -/
  | vfcmp (g : BitVec 4) (d : BitVec 4) (a : BitVec 6) (b : BitVec 6) (c : BitVec 3)
  /-- VCVT (R314). -/
  | vcvt (g : BitVec 4) (d : BitVec 6) (a : BitVec 6) (r : BitVec 1) (c : BitVec 4) (x : BitVec 1) (p : BitVec 3)
  /-- VCVTS (R315). -/
  | vcvts (g : BitVec 4) (d : BitVec 6) (a : BitVec 6) (c : BitVec 4) (x : BitVec 1) (p : BitVec 3)
  /-- VMXQ (R316). -/
  | vmxq (g : BitVec 4) (d : BitVec 6) (a : BitVec 6) (b : BitVec 6) (q : BitVec 2) (m : BitVec 1) (e : BitVec 2)
  /-- VMXD (R317). -/
  | vmxd (g : BitVec 4) (d : BitVec 6) (a : BitVec 6) (b : BitVec 6) (q : BitVec 2) (e : BitVec 2)
  /-- VPERM (R318). -/
  | vperm (g : BitVec 4) (d : BitVec 6) (a : BitVec 6) (b : BitVec 6)
  /-- VSLIDE (R318). -/
  | vslide (g : BitVec 4) (d : BitVec 6) (a : BitVec 6) (b : BitVec 6) (k : BitVec 5)
  /-- VRADD (R320). -/
  | vradd (g : BitVec 4) (d : BitVec 6) (a : BitVec 6)
  /-- VRMAX (R320). -/
  | vrmax (g : BitVec 4) (d : BitVec 6) (a : BitVec 6) (u : BitVec 1)
  /-- VRFADD (R320). -/
  | vrfadd (g : BitVec 4) (d : BitVec 6) (a : BitVec 6)
  /-- VRFMAX (R320). -/
  | vrfmax (g : BitVec 4) (d : BitVec 6) (a : BitVec 6)
  /-- VSEL (R318). -/
  | vsel (g : BitVec 4) (d : BitVec 6) (a : BitVec 6) (b : BitVec 6) (p : BitVec 4)
  /-- VMOV (R318). -/
  | vmov (g : BitVec 4) (d : BitVec 6) (a : BitVec 6)
  /-- VEXT (R318). -/
  | vext (g : BitVec 4) (d : BitVec 6) (a : BitVec 6) (k : BitVec 5)
  /-- VINS (R318). -/
  | vins (g : BitVec 4) (d : BitVec 6) (a : BitVec 6) (k : BitVec 5)
  /-- VCMP (R319). -/
  | vcmp (g : BitVec 4) (d : BitVec 4) (a : BitVec 6) (b : BitVec 6) (c : BitVec 3) (w : BitVec 2)
  /-- VMCNT (R321). -/
  | vmcnt (g : BitVec 4) (d : BitVec 6) (a : BitVec 6)
  /-- VMFST (R321). -/
  | vmfst (g : BitVec 4) (d : BitVec 6) (a : BitVec 6)
  /-- VLD (R322). -/
  | vld (g : BitVec 4) (d : BitVec 6) (a : BitVec 6) (imm : BitVec 15)
  /-- VST (R322). -/
  | vst (g : BitVec 4) (d : BitVec 6) (a : BitVec 6) (imm : BitVec 15)
  /-- VLDS (R322). -/
  | vlds (g : BitVec 4) (d : BitVec 6) (a : BitVec 6) (b : BitVec 6)
  /-- VSTS (R322). -/
  | vsts (g : BitVec 4) (d : BitVec 6) (a : BitVec 6) (b : BitVec 6)
  /-- VLDX (R322). -/
  | vldx (g : BitVec 4) (d : BitVec 6) (a : BitVec 6) (b : BitVec 6) (c : BitVec 2)
  /-- VSTX (R322). -/
  | vstx (g : BitVec 4) (d : BitVec 6) (a : BitVec 6) (b : BitVec 6) (c : BitVec 2)
  /-- VLDB (R322). -/
  | vldb (g : BitVec 4) (d : BitVec 6) (a : BitVec 6) (imm : BitVec 15)
  /-- MMA (R362). -/
  | mma (g : BitVec 4) (d : BitVec 2) (z : BitVec 1)
  /-- MMAG (R363). -/
  | mmag (g : BitVec 4) (d : BitVec 2) (z : BitVec 1)
  /-- ZCLR (R365). -/
  | zclr (g : BitVec 4) (d : BitVec 2) (x : BitVec 1) (y : BitVec 1)
  /-- ZLD (R366). -/
  | zld (g : BitVec 4) (d : BitVec 2) (a : BitVec 6) (b : BitVec 6) (x : BitVec 1) (y : BitVec 1)
  /-- ZST (R366). -/
  | zst (g : BitVec 4) (d : BitVec 2) (a : BitVec 6) (b : BitVec 6) (x : BitVec 1) (y : BitVec 1)
  /-- OSM (R367). -/
  | osm (g : BitVec 4) (d : BitVec 2) (a : BitVec 2)
  /-- OSMF (R368). -/
  | osmf (g : BitVec 4) (d : BitVec 2)
  /-- RBKT (R369). -/
  | rbkt (g : BitVec 4) (d : BitVec 6) (a : BitVec 6) (m : BitVec 1)
  /-- RBIAS (R370). -/
  | rbias (g : BitVec 4) (d : BitVec 6) (a : BitVec 6) (b : BitVec 6) (k : BitVec 5)
  /-- CPY (R402). -/
  | cpy (g : BitVec 4)
  /-- CPY2 (R402). -/
  | cpy2 (g : BitVec 4)
  /-- CPYG (R402). -/
  | cpyg (g : BitVec 4)
  /-- CPYF (R402). -/
  | cpyf (g : BitVec 4)
  /-- FMAP (R348). -/
  | fmap (g : BitVec 4) (a : BitVec 6) (q : BitVec 5)
  /-- FMAP_REL (R348). -/
  | fmapRel (g : BitVec 4) (a : BitVec 6) (q : BitVec 5)
  /-- FMODE (R349). -/
  | fmode (g : BitVec 4) (a : BitVec 6) (m : BitVec 1) (h : BitVec 1) (q : BitVec 5)
  /-- FLOAD (R350). -/
  | fload (g : BitVec 4) (d : BitVec 6) (a : BitVec 6) (t : BitVec 1) (h : BitVec 1) (q : BitVec 5)
  /-- FSWAP (R351). -/
  | fswap (g : BitVec 4) (a : BitVec 6) (q : BitVec 5)
  /-- FGO (R352). -/
  | fgo (g : BitVec 4)
  /-- FSTAT (R353). -/
  | fstat (g : BitVec 4) (d : BitVec 6) (a : BitVec 6) (q : BitVec 5)
  /-- FREMAP (R354). -/
  | fremap (g : BitVec 4) (a : BitVec 6)
  /-- SQNEW (R381). -/
  | sqnew (g : BitVec 4) (a : BitVec 6)
  /-- SQNEW_REG (R381). -/
  | sqnewReg (g : BitVec 4) (a : BitVec 6) (b : BitVec 6)
  /-- SQRSV (R382). -/
  | sqrsv (g : BitVec 4) (a : BitVec 6) (b : BitVec 6)
  /-- SQCMT (R383). -/
  | sqcmt (g : BitVec 4) (d : BitVec 6) (a : BitVec 6) (b : BitVec 6) (c : BitVec 3)
  /-- SQABN (R384). -/
  | sqabn (g : BitVec 4) (d : BitVec 6) (a : BitVec 6) (b : BitVec 6)
  /-- SQFORK (R386). -/
  | sqfork (g : BitVec 4) (d : BitVec 6) (a : BitVec 6) (b : BitVec 6)
  /-- SQDROP (R387). -/
  | sqdrop (g : BitVec 4) (a : BitVec 6)
  /-- SQLEN (R385). -/
  | sqlen (g : BitVec 4) (a : BitVec 6)
  /-- SQPOS (R389). -/
  | sqpos (g : BitVec 4) (d : BitVec 6) (a : BitVec 6) (b : BitVec 6) (x : BitVec 1) (w : BitVec 1)
  /-- SQSPLC (R391). -/
  | sqsplc (g : BitVec 4) (d : BitVec 6) (a : BitVec 6) (b : BitVec 6)
  /-- RPRCHK (R394). -/
  | rprchk (g : BitVec 4) (a : BitVec 6)
  /-- RPRINS (R395). -/
  | rprins (g : BitVec 4) (a : BitVec 6)
  /-- RPRSTAT (R396). -/
  | rprstat (g : BitVec 4) (a : BitVec 6) (c : BitVec 1)
  /-- CRED (R407). -/
  | cred (g : BitVec 4) (r : BitVec 1)
  /-- CBCST (R407). -/
  | cbcst (g : BitVec 4)
  /-- CAGTH (R407). -/
  | cagth (g : BitVec 4)
  /-- CA2A (R407). -/
  | ca2a (g : BitVec 4)
  /-- RBSEED (R409). -/
  | rbseed (g : BitVec 4) (a : BitVec 6) (b : BitVec 6)
  /-- RBCTR (R409). -/
  | rbctr (g : BitVec 4) (a : BitVec 6) (b : BitVec 6)
  /-- RBRD (R409). -/
  | rbrd (g : BitVec 4) (d : BitVec 6)
  /-- ASSAY (R410). -/
  | assay (g : BitVec 4) (q : BitVec 5) (nmu : BitVec 1) (seed : BitVec 6) (dig : BitVec 32)
  /-- BARA (R294). -/
  | bara (g : BitVec 4) (twr : BitVec 1) (k : BitVec 6)
  /-- BARW (R294). -/
  | barw (g : BitVec 4) (twr : BitVec 1) (k : BitVec 6)
  /-- BACQ (R296). -/
  | bacq (g : BitVec 4) (a : BitVec 6) (p : BitVec 2) (m : BitVec 8)
  /-- BREL (R296). -/
  | brel (g : BitVec 4) (a : BitVec 6) (p : BitVec 2) (m : BitVec 8)
  /-- PLAUNCH (R297). -/
  | plaunch (g : BitVec 4) (a : BitVec 6)
  /-- CHENQ (R299). -/
  | chenq (g : BitVec 4) (a : BitVec 6) (c : BitVec 5)
  /-- CHDEQ (R300). -/
  | chdeq (g : BitVec 4) (a : BitVec 6) (c : BitVec 5)
  /-- CSRR (R302). -/
  | csrr (g : BitVec 4) (d : BitVec 6) (n : BitVec 15)
  /-- CSRW (R302). -/
  | csrw (g : BitVec 4) (a : BitVec 6) (n : BitVec 15)
  /-- TLBI (R303). -/
  | tlbi (g : BitVec 4) (a : BitVec 6) (x : BitVec 1)
  /-- TLBSYNC (R303). -/
  | tlbsync (g : BitVec 4)
  /-- DCFL (R304). -/
  | dcfl (g : BitVec 4) (a : BitVec 6)
  /-- DCINV (R304). -/
  | dcinv (g : BitVec 4) (a : BitVec 6)
  /-- L2FL (R304). -/
  | l2fl (g : BitVec 4) (a : BitVec 6)
  /-- MSCFL (R304). -/
  | mscfl (g : BitVec 4) (a : BitVec 6)
  /-- CTXSV (R305). -/
  | ctxsv (g : BitVec 4) (a : BitVec 6) (b : BitVec 6)
  /-- CTXLD (R305). -/
  | ctxld (g : BitVec 4) (a : BitVec 6) (b : BitVec 6)
  /-- SSTEP (R305). -/
  | sstep (g : BitVec 4) (a : BitVec 6) (m : BitVec 2)
  /-- MIGR (R100). -/
  | migr (g : BitVec 4) (a : BitVec 6) (b : BitVec 6)
  /-- PROMO (R103). -/
  | promo (g : BitVec 4) (a : BitVec 6) (b : BitVec 6)
  /-- NMU_OPERATION_COMPLETE (R356); State.ev names x the core, y the operation. -/
  | nmuOperationComplete
  /-- GANG_START (R364); State.ev names x the cluster, y the gang. -/
  | gangStart
  /-- COPY_COMMAND_START (R399); State.ev names x the context, y the command. -/
  | copyCommandStart
  /-- COPY_COMMAND_COMPLETE (R402); State.ev names x the context, y the command, v the page it sleeps on; each performing moves one step of 256 bytes and the last writes the seal. -/
  | copyCommandComplete
  /-- ENGINE_COMMAND_FAULT (R209); State.ev names x the context, y the command, z the cause, v the address, w 1 for a write. -/
  | engineCommandFault
  /-- FMAP_ARRIVAL (R348); State.ev names y the field operation. -/
  | fmapArrival
  /-- FMODE_PERFORM (R349); State.ev names y the field operation. -/
  | fmodePerform
  /-- FSWAP_PERFORM (R351); State.ev names y the field operation. -/
  | fswapPerform
  /-- PLOT_RELEASE_PERFORM (R338); State.ev names y the field operation. -/
  | plotReleasePerform
  /-- RELOAD_START (R336); State.ev names y the field operation. -/
  | reloadStart
  /-- RELOAD_FAULT (R337); State.ev names x the core, y the field operation, z the cause, v the address, w the base of the trap frame. -/
  | reloadFault
  /-- RELOAD_COMPLETE (R336); State.ev names y the field operation. -/
  | reloadComplete
  /-- NEST_START (R346); State.ev names x the core. -/
  | nestStart
  /-- NEST_STEP (R329); State.ev names x the core. -/
  | nestStep
  /-- COLLECTOR_APPLY (R334); State.ev names x the core. -/
  | collectorApply
  /-- NEST_COMPLETE (R344); State.ev names x the core. -/
  | nestComplete
  /-- STORAGE_VIEW_ARRIVAL (R47); State.ev names x the context, y the access, z its part, w an error met (0 none, 1 corrected, 2 lost, 3 parity of a cache line, 4 parity of a translation, 5 a field row). -/
  | storageViewArrival
  /-- ROW_CHECK (R134); State.ev names x the half, y the row, z nonzero when its parity fails. -/
  | rowCheck
  /-- ROW_REFETCH_COMPLETE (R134); State.ev names x the half, y the row. -/
  | rowRefetchComplete
  /-- PTC_INVALIDATION (R106); State.ev names v the page, z the base 2 logarithm of its size. -/
  | ptcInvalidation
  /-- COLLECTIVE_ARRIVAL (R405); State.ev names x the context, y the command, or with y 0 a participant of another module: x the key, v its kg0, z nonzero for the root form, bytes its source and a byte of poison for each 64 B of it. -/
  | collectiveArrival
  /-- COLLECTIVE_COMPLETE (R408); State.ev names x the instance. -/
  | collectiveComplete
  /-- ASSAY_OUTCOME (R412); State.ev names x the context, y the assay, z nonzero when the unit is faulty. -/
  | assayOutcome
  /-- BARRIER_ARRIVAL (R294); State.ev names x the context, y the offset of the counter, z the arrival, w the value of %bc. -/
  | barrierArrival
  /-- BANK_ACQUIRE_EFFECT (R64); State.ev names x the core, y the bank, z the tag. -/
  | bankAcquireEffect
  /-- BANK_RELEASE_EFFECT (R65); State.ev names x the core, y the bank, z the tag that holds it, 256 for any. -/
  | bankReleaseEffect
  /-- MANIFEST_READ (R171); State.ev names x the tower, y the context. -/
  | manifestRead
  /-- CHANNEL_ENTRY_AVAILABLE (R170); State.ev names x the tower, y the pipeline, z the channel. -/
  | channelEntryAvailable
  /-- TABLE_WALK (R88); State.ev names x the context, y the move of a MIGR or PROMO (0 for a plain walk), z the need (0 read, 1 write, 2 execute), v the address. -/
  | tableWalk
  /-- REMOTE_LOAD_LANDING (R242); State.ev names x the context, y the access, z and w as for STORAGE_VIEW_ARRIVAL. -/
  | remoteLoadLanding
  /-- REMOTE_ACCESS_PERFORM (R109); State.ev names x the context, y the access, z and w as for STORAGE_VIEW_ARRIVAL. -/
  | remoteAccessPerform
  /-- INVALIDATION_APPLY (R109, R110); State.ev names x the core; z is 0 where it applies what it has accepted, else it accepts that of line y. -/
  | invalidationApply
  /-- INBOUND_INVALIDATION_RECEIVE (R129); State.ev names x the link port, y the line, bytes its new contents. -/
  | inboundInvalidationReceive
  /-- INBOUND_INVALIDATION_APPLY (R129); State.ev names y the queued entry, 0 for all. -/
  | inboundInvalidationApply
  /-- ALQ_VALUE_ARRIVAL (R120); State.ev names x the context, y the ring slot, z 1 for a poisoned value and 2 for one that failed its CRC, v the value, w the entry. -/
  | alqValueArrival
  /-- ALQ_FAULT_CAPTURE (R199); State.ev names x the context, y the ring slot, z the cause, v the address, w the entry. -/
  | alqFaultCapture
  /-- MONITOR_REREAD (R291); State.ev names x the context. -/
  | monitorReread
  /-- MONITOR_TIMEOUT_READ (R291); State.ev names x the context, w the deadline. -/
  | monitorTimeoutRead
  /-- FORCED_YIELD (R160); State.ev names x the context. -/
  | forcedYield
  /-- STRAND_RANK_AGING (R162); State.ev names x the context. -/
  | strandRankAging
  /-- TRAP_ENTRY (R193); State.ev names x the context. -/
  | trapEntry
  /-- DISPATCHER_TICK (R173); State.ev names x the tower. -/
  | dispatcherTick
  /-- TASK_IMAGE_ARRIVAL (R175); State.ev names x the tower, y the placing. -/
  | taskImageArrival
  /-- SHADOW_BANK_SWAP (R202); State.ev names x the core. -/
  | shadowBankSwap
  /-- SWAP_END (R202); State.ev names x the core. -/
  | swapEnd
  /-- SPILL_COMPLETE (R181); State.ev names x the core, z the image move of a CTXSV, 0 for a spill. -/
  | spillComplete
  /-- REINSTATEMENT_COMPLETE (R181); State.ev names x the core, y the context (4 and up through the shadow bank for context y less 4), z the image move of a CTXLD. -/
  | reinstatementComplete
  /-- PIPELINE_DONE (R185); State.ev names x the tower, y the slot. -/
  | pipelineDone
  /-- PIPELINE_KILL (R186); State.ev names x the tower, y the slot. -/
  | pipelineKill
  /-- DSPHOLD_RELEASE (R211); State.ev names x the tower, v the mask. -/
  | dspholdRelease
  /-- BARRIER_TARGET_WRITE (R295); State.ev names x the register, v the value. -/
  | barrierTargetWrite
  /-- BHELD_WRITE (R66); State.ev names x the register, v the value, w the banks still due (0 for all). -/
  | bheldWrite
  /-- BHOLD_WRITE (R66); State.ev names x the register, v the value, w the banks still due (0 for all). -/
  | bholdWrite
  /-- HCOMMIT_GO (R81); State.ev names x the tower. -/
  | hcommitGo
  /-- HASH_COMMIT_COMPLETE (R81); State.ev names x the tower. -/
  | hashCommitComplete
  /-- RTRCTL_ENABLE (R83); State.ev names x the tower, v the value. -/
  | rtrctlEnable
  /-- RTRCTL_DISABLE (R83); State.ev names x the tower. -/
  | rtrctlDisable
  /-- REDIRECT_ACTIVE (R83); State.ev names x the tower. -/
  | redirectActive
  /-- REDIRECT_RELEASED (R83); State.ev names x the tower. -/
  | redirectReleased
  /-- QUARANTINE_CLEAR (R151); State.ev names x the register, v the value. -/
  | quarantineClear
  /-- PLOT_OWNED_RELEASE (R328); State.ev names x the tower, y the plot. -/
  | plotOwnedRelease
  /-- MSIGEN_WRITE (R415); State.ev names v the value. -/
  | msigenWrite
  /-- MSIX_UNMASK (R414); State.ev names x the port, y the vector. -/
  | msixUnmask
  /-- ATTEST_CERT (R422). -/
  | attestCert
  /-- ATTEST_REPORT (R422). -/
  | attestReport
  /-- ATTEST_COMPLETE (R422). -/
  | attestComplete
  /-- REGISTER_WRITE (R53); State.ev names x the register, v the value. -/
  | registerWrite
  /-- HOST_POSTED_WRITE (R51); State.ev names x the port, y the BAR, z the offset, bytes the data. -/
  | hostPostedWrite
  /-- HOST_READ (R130); State.ev names x the port, y the BAR, z the offset, v the length. -/
  | hostRead
  /-- ATS_TRANSLATION_COMPLETION (R97); State.ev names x the tower, v the address, y the size, z the grants, bit 0 read, 1 write, 3 untranslated only. -/
  | atsTranslationCompletion
  /-- ATS_INVALIDATION_REQUEST (R97); State.ev names v the address, y the length. -/
  | atsInvalidationRequest
  /-- PAGE_REQUEST_REPLY (R98); State.ev names x the tower, v the page, y nonzero for success. -/
  | pageRequestReply
  /-- PAGE_REQUEST_TIMEOUT (R98); State.ev names x the tower, v the page. -/
  | pageRequestTimeout
  /-- SCRUB_VISIT (R142); State.ev names x the tower, y the location, z the outcome (0 clean,
  1 corrected, 2 uncorrectable, 3 taken for correct, with bytes the line's new bytes), w the storage class, v what else names the place. -/
  | scrubVisit
  /-- THERMAL_FORECAST_UPDATE (R426); State.ev names x the tower, y the epoch, z the deadline in cycles, bytes the eleven pairs of readings. -/
  | thermalForecastUpdate
  /-- SLAYER_FLUSH_COMPLETE (R152); State.ev names x the tower. -/
  | slayerFlushComplete
  /-- SLAYER_CUTOFF (R428); State.ev names x the tower, w the deadline in cycles. -/
  | slayerCutoff
  /-- TOWER_FENCE (R155); State.ev names x the tower. -/
  | towerFence
  /-- DROOP_STRETCH (R425); State.ev names x the tower, y the cycles. -/
  | droopStretch
  /-- CURRENT_PEAK_STRETCH (R424); State.ev names x the tower. -/
  | currentPeakStretch
  /-- POWER_CONTROL_UPDATE (R424); State.ev names x the tower, y the target. -/
  | powerControlUpdate
  /-- MODULE_RESET (R429); State.ev names x the outcome of bring-up, y nonzero for a cold module. -/
  | moduleReset
  /-- PORT_RESET (R429). -/
  | portReset
  /-- SELF_HEATING_TIMEOUT (R430). -/
  | selfHeatingTimeout
  /-- ALCTL_ENABLE (R418); State.ev names x the port. -/
  | alctlEnable
  /-- ALCTL_DISABLE (R418); State.ev names x the port. -/
  | alctlDisable
  /-- LINK_UP (R419); State.ev names x the port, y the peer. -/
  | linkUp
  /-- LINK_DOWN (R420); State.ev names x the port. -/
  | linkDown
  /-- LINK_FLIT_RECEIVE (R418); State.ev names x the port, y the location, z nonzero when its CRC fails, w the poison flag, bytes the data. -/
  | linkFlitReceive
  /-- SEQUENCE_UNIT_OPERATION (R372); State.ev names x the tower, y the request. -/
  | sequenceUnitOperation
  /-- VSL_BELOW_RETENTION (R428); State.ev names x the tower. -/
  | vslBelowRetention
  /-- RAIL_DROOP_END (R425); State.ev names x the tower. -/
  | railDroopEnd
  /-- SELF_HEATING_COMPLETE (R430). -/
  | selfHeatingComplete
  deriving DecidableEq, Repr, Inhabited

/-- The slot position whose class an instruction belongs to; none for an event, and for NOP, which any position takes
(R233, R236). -/
def Instr.pos : Instr → Option Pos
  | .nop => none
  | .hdr _ => some .x
  | .br _ _ => some .x
  | .brl _ _ => some .x
  | .jr _ _ => some .x
  | .jrl _ _ _ => some .x
  | .loop _ _ _ _ => some .x
  | .loopi _ _ _ _ => some .x
  | .lbrk _ _ => some .x
  | .mtl _ _ _ => some .x
  | .mfl _ _ _ => some .x
  | .yield _ _ => some .x
  | .seg _ _ _ => some .x
  | .rdv _ _ _ => some .x
  | .trap _ _ => some .x
  | .trapb _ _ _ _ => some .x
  | .eret _ => some .x
  | .exit _ => some .x
  | .pause _ => some .x
  | .xadd _ _ _ _ => some .x
  | .xaddi _ _ _ _ => some .x
  | .xmovi _ _ _ => some .x
  | .xmovhi _ _ _ => some .x
  | .add _ _ _ _ => some .s
  | .sub _ _ _ _ => some .s
  | .addi _ _ _ _ => some .s
  | .mul _ _ _ _ => some .s
  | .mulhs _ _ _ _ => some .s
  | .mulhu _ _ _ _ => some .s
  | .divs _ _ _ _ => some .s
  | .divu _ _ _ _ => some .s
  | .rems _ _ _ _ => some .s
  | .remu _ _ _ _ => some .s
  | .and _ _ _ _ => some .s
  | .or _ _ _ _ => some .s
  | .xor _ _ _ _ => some .s
  | .andi _ _ _ _ => some .s
  | .ori _ _ _ _ => some .s
  | .xori _ _ _ _ => some .s
  | .shl _ _ _ _ => some .s
  | .shr _ _ _ _ => some .s
  | .sar _ _ _ _ => some .s
  | .shli _ _ _ _ => some .s
  | .shri _ _ _ _ => some .s
  | .sari _ _ _ _ => some .s
  | .rotr _ _ _ _ => some .s
  | .clz _ _ _ => some .s
  | .ctz _ _ _ => some .s
  | .popc _ _ _ => some .s
  | .mins _ _ _ _ => some .s
  | .maxs _ _ _ _ => some .s
  | .minu _ _ _ _ => some .s
  | .maxu _ _ _ _ => some .s
  | .abs _ _ _ => some .s
  | .bfx _ _ _ _ _ => some .s
  | .bfi _ _ _ _ => some .s
  | .mov _ _ _ => some .s
  | .movi _ _ _ => some .s
  | .movhi _ _ _ => some .s
  | .sel _ _ _ _ _ => some .s
  | .cmpeq _ _ _ _ => some .s
  | .cmpne _ _ _ _ => some .s
  | .cmplt _ _ _ _ => some .s
  | .cmple _ _ _ _ => some .s
  | .cmpltu _ _ _ _ => some .s
  | .cmpleu _ _ _ _ => some .s
  | .cmpeqi _ _ _ _ => some .s
  | .cmplti _ _ _ _ => some .s
  | .pand _ _ _ _ => some .s
  | .por _ _ _ _ => some .s
  | .pxor _ _ _ _ => some .s
  | .pnot _ _ _ => some .s
  | .pmov _ _ _ => some .s
  | .mfp _ _ _ => some .s
  | .ldb _ _ _ _ => some .s
  | .ldbu _ _ _ _ => some .s
  | .ldh _ _ _ _ => some .s
  | .ldhu _ _ _ _ => some .s
  | .ldw _ _ _ _ => some .s
  | .ldwu _ _ _ _ => some .s
  | .ldd _ _ _ _ => some .s
  | .ldq _ _ _ _ => some .s
  | .stb _ _ _ _ => some .s
  | .sth _ _ _ _ => some .s
  | .stw _ _ _ _ => some .s
  | .std _ _ _ _ => some .s
  | .stq _ _ _ _ => some .s
  | .pft _ _ _ _ => some .s
  | .aadd _ _ _ _ => some .s
  | .amin _ _ _ _ => some .s
  | .amax _ _ _ _ => some .s
  | .aminu _ _ _ _ => some .s
  | .amaxu _ _ _ _ => some .s
  | .aand _ _ _ _ => some .s
  | .aor _ _ _ _ => some .s
  | .axor _ _ _ _ => some .s
  | .axchg _ _ _ _ => some .s
  | .acas _ _ _ _ _ => some .s
  | .radd _ _ _ _ => some .s
  | .rmin _ _ _ _ _ => some .s
  | .rmax _ _ _ _ _ => some .s
  | .rand _ _ _ _ => some .s
  | .ror _ _ _ _ => some .s
  | .rxor _ _ _ _ => some .s
  | .popq _ _ => some .s
  | .rfadd _ _ _ => some .s
  | .drain _ _ _ => some .s
  | .waita _ _ _ _ _ => some .s
  | .mtg _ _ _ => some .s
  | .mfg _ _ _ => some .s
  | .mfsr _ _ _ => some .s
  | .vadd _ _ _ _ _ _ => some .v
  | .vsub _ _ _ _ _ _ => some .v
  | .vmul _ _ _ _ _ => some .v
  | .vmulh _ _ _ _ _ _ => some .v
  | .vmac _ _ _ _ _ => some .v
  | .vmins _ _ _ _ _ => some .v
  | .vmaxs _ _ _ _ _ => some .v
  | .vminu _ _ _ _ _ => some .v
  | .vmaxu _ _ _ _ _ => some .v
  | .vabs _ _ _ _ => some .v
  | .vand _ _ _ _ => some .v
  | .vor _ _ _ _ => some .v
  | .vxor _ _ _ _ => some .v
  | .vshl _ _ _ _ _ => some .v
  | .vshr _ _ _ _ _ => some .v
  | .vsar _ _ _ _ _ => some .v
  | .vfshl _ _ _ _ _ => some .v
  | .vfshr _ _ _ _ _ => some .v
  | .vrot _ _ _ _ _ => some .v
  | .vpopc _ _ _ _ => some .v
  | .vclz _ _ _ _ => some .v
  | .vshi _ _ _ _ _ _ => some .v
  | .vbcst _ _ _ _ => some .v
  | .vtern _ _ _ _ _ => some .v
  | .vfadd _ _ _ _ _ _ => some .v
  | .vfsub _ _ _ _ _ _ => some .v
  | .vfmul _ _ _ _ _ _ => some .v
  | .vfma _ _ _ _ _ _ => some .v
  | .vfmax _ _ _ _ _ => some .v
  | .vfmin _ _ _ _ _ => some .v
  | .vexp2 _ _ _ => some .v
  | .vrcp _ _ _ => some .v
  | .vrsq _ _ _ => some .v
  | .vfcmp _ _ _ _ _ => some .v
  | .vcvt _ _ _ _ _ _ _ => some .v
  | .vcvts _ _ _ _ _ _ => some .v
  | .vmxq _ _ _ _ _ _ _ => some .v
  | .vmxd _ _ _ _ _ _ => some .v
  | .vperm _ _ _ _ => some .v
  | .vslide _ _ _ _ _ => some .v
  | .vradd _ _ _ => some .v
  | .vrmax _ _ _ _ => some .v
  | .vrfadd _ _ _ => some .v
  | .vrfmax _ _ _ => some .v
  | .vsel _ _ _ _ _ => some .v
  | .vmov _ _ _ => some .v
  | .vext _ _ _ _ => some .v
  | .vins _ _ _ _ => some .v
  | .vcmp _ _ _ _ _ _ => some .v
  | .vmcnt _ _ _ => some .v
  | .vmfst _ _ _ => some .v
  | .vld _ _ _ _ => some .v
  | .vst _ _ _ _ => some .v
  | .vlds _ _ _ _ => some .v
  | .vsts _ _ _ _ => some .v
  | .vldx _ _ _ _ _ => some .v
  | .vstx _ _ _ _ _ => some .v
  | .vldb _ _ _ _ => some .v
  | .mma _ _ _ => some .v
  | .mmag _ _ _ => some .v
  | .zclr _ _ _ _ => some .v
  | .zld _ _ _ _ _ _ => some .v
  | .zst _ _ _ _ _ _ => some .v
  | .osm _ _ _ => some .v
  | .osmf _ _ => some .v
  | .rbkt _ _ _ _ => some .v
  | .rbias _ _ _ _ _ => some .v
  | .cpy _ => some .e
  | .cpy2 _ => some .e
  | .cpyg _ => some .e
  | .cpyf _ => some .e
  | .fmap _ _ _ => some .e
  | .fmapRel _ _ _ => some .e
  | .fmode _ _ _ _ _ => some .e
  | .fload _ _ _ _ _ _ => some .e
  | .fswap _ _ _ => some .e
  | .fgo _ => some .e
  | .fstat _ _ _ _ => some .e
  | .fremap _ _ => some .e
  | .sqnew _ _ => some .e
  | .sqnewReg _ _ _ => some .e
  | .sqrsv _ _ _ => some .e
  | .sqcmt _ _ _ _ _ => some .e
  | .sqabn _ _ _ _ => some .e
  | .sqfork _ _ _ _ => some .e
  | .sqdrop _ _ => some .e
  | .sqlen _ _ => some .e
  | .sqpos _ _ _ _ _ _ => some .e
  | .sqsplc _ _ _ _ => some .e
  | .rprchk _ _ => some .e
  | .rprins _ _ => some .e
  | .rprstat _ _ _ => some .e
  | .cred _ _ => some .e
  | .cbcst _ => some .e
  | .cagth _ => some .e
  | .ca2a _ => some .e
  | .rbseed _ _ _ => some .e
  | .rbctr _ _ _ => some .e
  | .rbrd _ _ => some .e
  | .assay _ _ _ _ _ => some .e
  | .bara _ _ _ => some .e
  | .barw _ _ _ => some .e
  | .bacq _ _ _ _ => some .e
  | .brel _ _ _ _ => some .e
  | .plaunch _ _ => some .e
  | .chenq _ _ _ => some .e
  | .chdeq _ _ _ => some .e
  | .csrr _ _ _ => some .e
  | .csrw _ _ _ => some .e
  | .tlbi _ _ _ => some .e
  | .tlbsync _ => some .e
  | .dcfl _ _ => some .e
  | .dcinv _ _ => some .e
  | .l2fl _ _ => some .e
  | .mscfl _ _ => some .e
  | .ctxsv _ _ _ => some .e
  | .ctxld _ _ _ => some .e
  | .sstep _ _ _ => some .e
  | .migr _ _ _ => some .e
  | .promo _ _ _ => some .e
  | .nmuOperationComplete => none
  | .gangStart => none
  | .copyCommandStart => none
  | .copyCommandComplete => none
  | .engineCommandFault => none
  | .fmapArrival => none
  | .fmodePerform => none
  | .fswapPerform => none
  | .plotReleasePerform => none
  | .reloadStart => none
  | .reloadFault => none
  | .reloadComplete => none
  | .nestStart => none
  | .nestStep => none
  | .collectorApply => none
  | .nestComplete => none
  | .storageViewArrival => none
  | .rowCheck => none
  | .rowRefetchComplete => none
  | .ptcInvalidation => none
  | .collectiveArrival => none
  | .collectiveComplete => none
  | .assayOutcome => none
  | .barrierArrival => none
  | .bankAcquireEffect => none
  | .bankReleaseEffect => none
  | .manifestRead => none
  | .channelEntryAvailable => none
  | .tableWalk => none
  | .remoteLoadLanding => none
  | .remoteAccessPerform => none
  | .invalidationApply => none
  | .inboundInvalidationReceive => none
  | .inboundInvalidationApply => none
  | .alqValueArrival => none
  | .alqFaultCapture => none
  | .monitorReread => none
  | .monitorTimeoutRead => none
  | .forcedYield => none
  | .strandRankAging => none
  | .trapEntry => none
  | .dispatcherTick => none
  | .taskImageArrival => none
  | .shadowBankSwap => none
  | .swapEnd => none
  | .spillComplete => none
  | .reinstatementComplete => none
  | .pipelineDone => none
  | .pipelineKill => none
  | .dspholdRelease => none
  | .barrierTargetWrite => none
  | .bheldWrite => none
  | .bholdWrite => none
  | .hcommitGo => none
  | .hashCommitComplete => none
  | .rtrctlEnable => none
  | .rtrctlDisable => none
  | .redirectActive => none
  | .redirectReleased => none
  | .quarantineClear => none
  | .plotOwnedRelease => none
  | .msigenWrite => none
  | .msixUnmask => none
  | .attestCert => none
  | .attestReport => none
  | .attestComplete => none
  | .registerWrite => none
  | .hostPostedWrite => none
  | .hostRead => none
  | .atsTranslationCompletion => none
  | .atsInvalidationRequest => none
  | .pageRequestReply => none
  | .pageRequestTimeout => none
  | .scrubVisit => none
  | .thermalForecastUpdate => none
  | .slayerFlushComplete => none
  | .slayerCutoff => none
  | .towerFence => none
  | .droopStretch => none
  | .currentPeakStretch => none
  | .powerControlUpdate => none
  | .moduleReset => none
  | .portReset => none
  | .selfHeatingTimeout => none
  | .alctlEnable => none
  | .alctlDisable => none
  | .linkUp => none
  | .linkDown => none
  | .linkFlitReceive => none
  | .sequenceUnitOperation => none
  | .vslBelowRetention => none
  | .railDroopEnd => none
  | .selfHeatingComplete => none

/-- The guard predicate of a slot; a header, a NOP and an event have none (R235, R244). -/
def Instr.guard : Instr → Option (BitVec 4)
  | .nop => none
  | .hdr _ => none
  | .br g _ => some g
  | .brl g _ => some g
  | .jr g _ => some g
  | .jrl g _ _ => some g
  | .loop g _ _ _ => some g
  | .loopi g _ _ _ => some g
  | .lbrk g _ => some g
  | .mtl g _ _ => some g
  | .mfl g _ _ => some g
  | .yield g _ => some g
  | .seg g _ _ => some g
  | .rdv g _ _ => some g
  | .trap g _ => some g
  | .trapb g _ _ _ => some g
  | .eret g => some g
  | .exit g => some g
  | .pause g => some g
  | .xadd g _ _ _ => some g
  | .xaddi g _ _ _ => some g
  | .xmovi g _ _ => some g
  | .xmovhi g _ _ => some g
  | .add g _ _ _ => some g
  | .sub g _ _ _ => some g
  | .addi g _ _ _ => some g
  | .mul g _ _ _ => some g
  | .mulhs g _ _ _ => some g
  | .mulhu g _ _ _ => some g
  | .divs g _ _ _ => some g
  | .divu g _ _ _ => some g
  | .rems g _ _ _ => some g
  | .remu g _ _ _ => some g
  | .and g _ _ _ => some g
  | .or g _ _ _ => some g
  | .xor g _ _ _ => some g
  | .andi g _ _ _ => some g
  | .ori g _ _ _ => some g
  | .xori g _ _ _ => some g
  | .shl g _ _ _ => some g
  | .shr g _ _ _ => some g
  | .sar g _ _ _ => some g
  | .shli g _ _ _ => some g
  | .shri g _ _ _ => some g
  | .sari g _ _ _ => some g
  | .rotr g _ _ _ => some g
  | .clz g _ _ => some g
  | .ctz g _ _ => some g
  | .popc g _ _ => some g
  | .mins g _ _ _ => some g
  | .maxs g _ _ _ => some g
  | .minu g _ _ _ => some g
  | .maxu g _ _ _ => some g
  | .abs g _ _ => some g
  | .bfx g _ _ _ _ => some g
  | .bfi g _ _ _ => some g
  | .mov g _ _ => some g
  | .movi g _ _ => some g
  | .movhi g _ _ => some g
  | .sel g _ _ _ _ => some g
  | .cmpeq g _ _ _ => some g
  | .cmpne g _ _ _ => some g
  | .cmplt g _ _ _ => some g
  | .cmple g _ _ _ => some g
  | .cmpltu g _ _ _ => some g
  | .cmpleu g _ _ _ => some g
  | .cmpeqi g _ _ _ => some g
  | .cmplti g _ _ _ => some g
  | .pand g _ _ _ => some g
  | .por g _ _ _ => some g
  | .pxor g _ _ _ => some g
  | .pnot g _ _ => some g
  | .pmov g _ _ => some g
  | .mfp g _ _ => some g
  | .ldb g _ _ _ => some g
  | .ldbu g _ _ _ => some g
  | .ldh g _ _ _ => some g
  | .ldhu g _ _ _ => some g
  | .ldw g _ _ _ => some g
  | .ldwu g _ _ _ => some g
  | .ldd g _ _ _ => some g
  | .ldq g _ _ _ => some g
  | .stb g _ _ _ => some g
  | .sth g _ _ _ => some g
  | .stw g _ _ _ => some g
  | .std g _ _ _ => some g
  | .stq g _ _ _ => some g
  | .pft g _ _ _ => some g
  | .aadd g _ _ _ => some g
  | .amin g _ _ _ => some g
  | .amax g _ _ _ => some g
  | .aminu g _ _ _ => some g
  | .amaxu g _ _ _ => some g
  | .aand g _ _ _ => some g
  | .aor g _ _ _ => some g
  | .axor g _ _ _ => some g
  | .axchg g _ _ _ => some g
  | .acas g _ _ _ _ => some g
  | .radd g _ _ _ => some g
  | .rmin g _ _ _ _ => some g
  | .rmax g _ _ _ _ => some g
  | .rand g _ _ _ => some g
  | .ror g _ _ _ => some g
  | .rxor g _ _ _ => some g
  | .popq g _ => some g
  | .rfadd g _ _ => some g
  | .drain g _ _ => some g
  | .waita g _ _ _ _ => some g
  | .mtg g _ _ => some g
  | .mfg g _ _ => some g
  | .mfsr g _ _ => some g
  | .vadd g _ _ _ _ _ => some g
  | .vsub g _ _ _ _ _ => some g
  | .vmul g _ _ _ _ => some g
  | .vmulh g _ _ _ _ _ => some g
  | .vmac g _ _ _ _ => some g
  | .vmins g _ _ _ _ => some g
  | .vmaxs g _ _ _ _ => some g
  | .vminu g _ _ _ _ => some g
  | .vmaxu g _ _ _ _ => some g
  | .vabs g _ _ _ => some g
  | .vand g _ _ _ => some g
  | .vor g _ _ _ => some g
  | .vxor g _ _ _ => some g
  | .vshl g _ _ _ _ => some g
  | .vshr g _ _ _ _ => some g
  | .vsar g _ _ _ _ => some g
  | .vfshl g _ _ _ _ => some g
  | .vfshr g _ _ _ _ => some g
  | .vrot g _ _ _ _ => some g
  | .vpopc g _ _ _ => some g
  | .vclz g _ _ _ => some g
  | .vshi g _ _ _ _ _ => some g
  | .vbcst g _ _ _ => some g
  | .vtern g _ _ _ _ => some g
  | .vfadd g _ _ _ _ _ => some g
  | .vfsub g _ _ _ _ _ => some g
  | .vfmul g _ _ _ _ _ => some g
  | .vfma g _ _ _ _ _ => some g
  | .vfmax g _ _ _ _ => some g
  | .vfmin g _ _ _ _ => some g
  | .vexp2 g _ _ => some g
  | .vrcp g _ _ => some g
  | .vrsq g _ _ => some g
  | .vfcmp g _ _ _ _ => some g
  | .vcvt g _ _ _ _ _ _ => some g
  | .vcvts g _ _ _ _ _ => some g
  | .vmxq g _ _ _ _ _ _ => some g
  | .vmxd g _ _ _ _ _ => some g
  | .vperm g _ _ _ => some g
  | .vslide g _ _ _ _ => some g
  | .vradd g _ _ => some g
  | .vrmax g _ _ _ => some g
  | .vrfadd g _ _ => some g
  | .vrfmax g _ _ => some g
  | .vsel g _ _ _ _ => some g
  | .vmov g _ _ => some g
  | .vext g _ _ _ => some g
  | .vins g _ _ _ => some g
  | .vcmp g _ _ _ _ _ => some g
  | .vmcnt g _ _ => some g
  | .vmfst g _ _ => some g
  | .vld g _ _ _ => some g
  | .vst g _ _ _ => some g
  | .vlds g _ _ _ => some g
  | .vsts g _ _ _ => some g
  | .vldx g _ _ _ _ => some g
  | .vstx g _ _ _ _ => some g
  | .vldb g _ _ _ => some g
  | .mma g _ _ => some g
  | .mmag g _ _ => some g
  | .zclr g _ _ _ => some g
  | .zld g _ _ _ _ _ => some g
  | .zst g _ _ _ _ _ => some g
  | .osm g _ _ => some g
  | .osmf g _ => some g
  | .rbkt g _ _ _ => some g
  | .rbias g _ _ _ _ => some g
  | .cpy g => some g
  | .cpy2 g => some g
  | .cpyg g => some g
  | .cpyf g => some g
  | .fmap g _ _ => some g
  | .fmapRel g _ _ => some g
  | .fmode g _ _ _ _ => some g
  | .fload g _ _ _ _ _ => some g
  | .fswap g _ _ => some g
  | .fgo g => some g
  | .fstat g _ _ _ => some g
  | .fremap g _ => some g
  | .sqnew g _ => some g
  | .sqnewReg g _ _ => some g
  | .sqrsv g _ _ => some g
  | .sqcmt g _ _ _ _ => some g
  | .sqabn g _ _ _ => some g
  | .sqfork g _ _ _ => some g
  | .sqdrop g _ => some g
  | .sqlen g _ => some g
  | .sqpos g _ _ _ _ _ => some g
  | .sqsplc g _ _ _ => some g
  | .rprchk g _ => some g
  | .rprins g _ => some g
  | .rprstat g _ _ => some g
  | .cred g _ => some g
  | .cbcst g => some g
  | .cagth g => some g
  | .ca2a g => some g
  | .rbseed g _ _ => some g
  | .rbctr g _ _ => some g
  | .rbrd g _ => some g
  | .assay g _ _ _ _ => some g
  | .bara g _ _ => some g
  | .barw g _ _ => some g
  | .bacq g _ _ _ => some g
  | .brel g _ _ _ => some g
  | .plaunch g _ => some g
  | .chenq g _ _ => some g
  | .chdeq g _ _ => some g
  | .csrr g _ _ => some g
  | .csrw g _ _ => some g
  | .tlbi g _ _ => some g
  | .tlbsync g => some g
  | .dcfl g _ => some g
  | .dcinv g _ => some g
  | .l2fl g _ => some g
  | .mscfl g _ => some g
  | .ctxsv g _ _ => some g
  | .ctxld g _ _ => some g
  | .sstep g _ _ => some g
  | .migr g _ _ => some g
  | .promo g _ _ => some g
  | .nmuOperationComplete => none
  | .gangStart => none
  | .copyCommandStart => none
  | .copyCommandComplete => none
  | .engineCommandFault => none
  | .fmapArrival => none
  | .fmodePerform => none
  | .fswapPerform => none
  | .plotReleasePerform => none
  | .reloadStart => none
  | .reloadFault => none
  | .reloadComplete => none
  | .nestStart => none
  | .nestStep => none
  | .collectorApply => none
  | .nestComplete => none
  | .storageViewArrival => none
  | .rowCheck => none
  | .rowRefetchComplete => none
  | .ptcInvalidation => none
  | .collectiveArrival => none
  | .collectiveComplete => none
  | .assayOutcome => none
  | .barrierArrival => none
  | .bankAcquireEffect => none
  | .bankReleaseEffect => none
  | .manifestRead => none
  | .channelEntryAvailable => none
  | .tableWalk => none
  | .remoteLoadLanding => none
  | .remoteAccessPerform => none
  | .invalidationApply => none
  | .inboundInvalidationReceive => none
  | .inboundInvalidationApply => none
  | .alqValueArrival => none
  | .alqFaultCapture => none
  | .monitorReread => none
  | .monitorTimeoutRead => none
  | .forcedYield => none
  | .strandRankAging => none
  | .trapEntry => none
  | .dispatcherTick => none
  | .taskImageArrival => none
  | .shadowBankSwap => none
  | .swapEnd => none
  | .spillComplete => none
  | .reinstatementComplete => none
  | .pipelineDone => none
  | .pipelineKill => none
  | .dspholdRelease => none
  | .barrierTargetWrite => none
  | .bheldWrite => none
  | .bholdWrite => none
  | .hcommitGo => none
  | .hashCommitComplete => none
  | .rtrctlEnable => none
  | .rtrctlDisable => none
  | .redirectActive => none
  | .redirectReleased => none
  | .quarantineClear => none
  | .plotOwnedRelease => none
  | .msigenWrite => none
  | .msixUnmask => none
  | .attestCert => none
  | .attestReport => none
  | .attestComplete => none
  | .registerWrite => none
  | .hostPostedWrite => none
  | .hostRead => none
  | .atsTranslationCompletion => none
  | .atsInvalidationRequest => none
  | .pageRequestReply => none
  | .pageRequestTimeout => none
  | .scrubVisit => none
  | .thermalForecastUpdate => none
  | .slayerFlushComplete => none
  | .slayerCutoff => none
  | .towerFence => none
  | .droopStretch => none
  | .currentPeakStretch => none
  | .powerControlUpdate => none
  | .moduleReset => none
  | .portReset => none
  | .selfHeatingTimeout => none
  | .alctlEnable => none
  | .alctlDisable => none
  | .linkUp => none
  | .linkDown => none
  | .linkFlitReceive => none
  | .sequenceUnitOperation => none
  | .vslBelowRetention => none
  | .railDroopEnd => none
  | .selfHeatingComplete => none

end Sys2Proof
end

