-- ==== Sys2Proof/WellFormed.lean ====
section
/-! DEFINITION. The field values that an entry forbids: a bundle that holds one traps ILL (R10, R236). -/

namespace Sys2Proof

/-- The type code and part of a conversion lie within Table 13-4 (R314). -/
def cvtOk (c : BitVec 4) (p : BitVec 3) : Bool :=
  match c.toNat with
  | 1 | 7 | 8 => decide (p.toNat < 2)
  | 2 | 3 | 9 | 10 => decide (p.toNat < 4)
  | 4 => true
  | 5 | 6 => p == 0#3
  | _ => false

/-- The operands hold values that the entry of the instruction allows: loop index and distance (R257, R258), register
pairs (R281), PFT hint (R283), DRAIN flavour and scope (R289), special register (R248), element widths and modes
(R307 to R309), conditions (R313, R319), conversions (R314), tile moves (R361, R366, R367), SQCMT scope and SQPOS flags
(R380), ASSAY's NMU form, which names no sector (R410). -/
def Instr.wf : Instr → Bool
  | .nop => true
  | .hdr _ => true
  | .br _ _ => true
  | .brl _ _ => true
  | .jr _ _ => true
  | .jrl _ _ _ => true
  | .loop _ _ _ _ => true
  | .loopi _ _ _ dist => dist != 0#7
  | .lbrk _ _ => true
  | .mtl _ k _ => decide (k.toNat < 12)
  | .mfl _ _ k => decide (k.toNat < 12)
  | .yield _ _ => true
  | .seg _ _ _ => true
  | .rdv _ _ _ => true
  | .trap _ _ => true
  | .trapb _ _ _ _ => true
  | .eret _ => true
  | .exit _ => true
  | .pause _ => true
  | .xadd _ _ _ _ => true
  | .xaddi _ _ _ _ => true
  | .xmovi _ _ _ => true
  | .xmovhi _ _ _ => true
  | .add _ _ _ _ => true
  | .sub _ _ _ _ => true
  | .addi _ _ _ _ => true
  | .mul _ _ _ _ => true
  | .mulhs _ _ _ _ => true
  | .mulhu _ _ _ _ => true
  | .divs _ _ _ _ => true
  | .divu _ _ _ _ => true
  | .rems _ _ _ _ => true
  | .remu _ _ _ _ => true
  | .and _ _ _ _ => true
  | .or _ _ _ _ => true
  | .xor _ _ _ _ => true
  | .andi _ _ _ _ => true
  | .ori _ _ _ _ => true
  | .xori _ _ _ _ => true
  | .shl _ _ _ _ => true
  | .shr _ _ _ _ => true
  | .sar _ _ _ _ => true
  | .shli _ _ _ _ => true
  | .shri _ _ _ _ => true
  | .sari _ _ _ _ => true
  | .rotr _ _ _ _ => true
  | .clz _ _ _ => true
  | .ctz _ _ _ => true
  | .popc _ _ _ => true
  | .mins _ _ _ _ => true
  | .maxs _ _ _ _ => true
  | .minu _ _ _ _ => true
  | .maxu _ _ _ _ => true
  | .abs _ _ _ => true
  | .bfx _ _ _ _ _ => true
  | .bfi _ _ _ _ => true
  | .mov _ _ _ => true
  | .movi _ _ _ => true
  | .movhi _ _ _ => true
  | .sel _ _ _ _ _ => true
  | .cmpeq _ _ _ _ => true
  | .cmpne _ _ _ _ => true
  | .cmplt _ _ _ _ => true
  | .cmple _ _ _ _ => true
  | .cmpltu _ _ _ _ => true
  | .cmpleu _ _ _ _ => true
  | .cmpeqi _ _ _ _ => true
  | .cmplti _ _ _ _ => true
  | .pand _ _ _ _ => true
  | .por _ _ _ _ => true
  | .pxor _ _ _ _ => true
  | .pnot _ _ _ => true
  | .pmov _ _ _ => true
  | .mfp _ _ _ => true
  | .ldb _ _ _ _ => true
  | .ldbu _ _ _ _ => true
  | .ldh _ _ _ _ => true
  | .ldhu _ _ _ _ => true
  | .ldw _ _ _ _ => true
  | .ldwu _ _ _ _ => true
  | .ldd _ _ _ _ => true
  | .ldq _ d _ _ => !d.getLsbD 0
  | .stb _ _ _ _ => true
  | .sth _ _ _ _ => true
  | .stw _ _ _ _ => true
  | .std _ _ _ _ => true
  | .stq _ d _ _ => !d.getLsbD 0
  | .pft _ h _ _ => decide (h.toNat < 3)
  | .aadd _ _ _ _ => true
  | .amin _ _ _ _ => true
  | .amax _ _ _ _ => true
  | .aminu _ _ _ _ => true
  | .amaxu _ _ _ _ => true
  | .aand _ _ _ _ => true
  | .aor _ _ _ _ => true
  | .axor _ _ _ _ => true
  | .axchg _ _ _ _ => true
  | .acas _ _ _ _ _ => true
  | .radd _ _ _ _ => true
  | .rmin _ _ _ _ _ => true
  | .rmax _ _ _ _ _ => true
  | .rand _ _ _ _ => true
  | .ror _ _ _ _ => true
  | .rxor _ _ _ _ => true
  | .popq _ _ => true
  | .rfadd _ _ _ => true
  | .drain _ sc fl => decide (sc.toNat < 6) && fl != 0#2
  | .waita _ _ _ _ _ => true
  | .mtg _ _ _ => true
  | .mfg _ _ _ => true
  | .mfsr _ _ n => decide (n.toNat < 7)
  | .vadd _ _ _ _ m w => m != 3#2 && w != 3#2
  | .vsub _ _ _ _ m w => m != 3#2 && w != 3#2
  | .vmul _ _ _ _ w => w != 3#2
  | .vmulh _ _ _ _ _ w => w != 3#2
  | .vmac _ _ _ _ w => w != 3#2
  | .vmins _ _ _ _ w => w != 3#2
  | .vmaxs _ _ _ _ w => w != 3#2
  | .vminu _ _ _ _ w => w != 3#2
  | .vmaxu _ _ _ _ w => w != 3#2
  | .vabs _ _ _ w => w != 3#2
  | .vand _ _ _ _ => true
  | .vor _ _ _ _ => true
  | .vxor _ _ _ _ => true
  | .vshl _ _ _ _ w => w != 3#2
  | .vshr _ _ _ _ w => w != 3#2
  | .vsar _ _ _ _ w => w != 3#2
  | .vfshl _ _ _ _ _ => true
  | .vfshr _ _ _ _ _ => true
  | .vrot _ _ _ _ w => w != 3#2
  | .vpopc _ _ _ w => w != 3#2
  | .vclz _ _ _ w => w != 3#2
  | .vshi _ _ _ _ w n => w != 3#2 && decide (n.toNat < 8 * 2 ^ w.toNat)
  | .vbcst _ _ _ w => w != 3#2
  | .vtern _ _ _ _ _ => true
  | .vfadd _ _ _ _ _ _ => true
  | .vfsub _ _ _ _ _ _ => true
  | .vfmul _ _ _ _ _ _ => true
  | .vfma _ _ _ _ _ _ => true
  | .vfmax _ _ _ _ _ => true
  | .vfmin _ _ _ _ _ => true
  | .vexp2 _ _ _ => true
  | .vrcp _ _ _ => true
  | .vrsq _ _ _ => true
  | .vfcmp _ _ _ _ c => decide (c.toNat < 5)
  | .vcvt _ _ _ _ c _ p => cvtOk c p
  | .vcvts _ _ _ c _ p => cvtOk c p
  | .vmxq _ _ _ _ _ _ _ => true
  | .vmxd _ _ _ _ _ _ => true
  | .vperm _ _ _ _ => true
  | .vslide _ _ _ _ _ => true
  | .vradd _ _ _ => true
  | .vrmax _ _ _ _ => true
  | .vrfadd _ _ _ => true
  | .vrfmax _ _ _ => true
  | .vsel _ _ _ _ _ => true
  | .vmov _ _ _ => true
  | .vext _ _ _ _ => true
  | .vins _ _ _ _ => true
  | .vcmp _ _ _ _ c w => decide (c.toNat < 6) && w != 3#2
  | .vmcnt _ _ _ => true
  | .vmfst _ _ _ => true
  | .vld _ _ _ _ => true
  | .vst _ _ _ _ => true
  | .vlds _ _ _ _ => true
  | .vsts _ _ _ _ => true
  | .vldx _ _ _ _ _ => true
  | .vstx _ _ _ _ _ => true
  | .vldb _ _ _ _ => true
  | .mma _ _ _ => true
  | .mmag _ _ _ => true
  | .zclr _ _ x y => x == 1#1 || y == 1#1
  | .zld _ _ _ b x y => x == 0#1 || (y == 0#1 && b == 0#6)
  | .zst _ _ _ b x y => x == 0#1 || (y == 0#1 && b == 0#6)
  | .osm _ d a => a != d
  | .osmf _ _ => true
  | .rbkt _ _ _ _ => true
  | .rbias _ _ _ _ _ => true
  | .cpy _ => true
  | .cpy2 _ => true
  | .cpyg _ => true
  | .cpyf _ => true
  | .fmap _ _ _ => true
  | .fmapRel _ _ _ => true
  | .fmode _ _ _ _ _ => true
  | .fload _ _ _ _ _ _ => true
  | .fswap _ _ _ => true
  | .fgo _ => true
  | .fstat _ _ _ _ => true
  | .fremap _ _ => true
  | .sqnew _ _ => true
  | .sqnewReg _ _ _ => true
  | .sqrsv _ _ _ => true
  | .sqcmt _ _ _ _ c => decide (c.toNat < 6)
  | .sqabn _ _ _ _ => true
  | .sqfork _ _ _ _ => true
  | .sqdrop _ _ => true
  | .sqlen _ _ => true
  | .sqpos _ _ _ _ x w => !(x == 1#1 && w == 1#1)
  | .sqsplc _ _ _ _ => true
  | .rprchk _ _ => true
  | .rprins _ _ => true
  | .rprstat _ _ _ => true
  | .cred _ _ => true
  | .cbcst _ => true
  | .cagth _ => true
  | .ca2a _ => true
  | .rbseed _ _ _ => true
  | .rbctr _ _ _ => true
  | .rbrd _ _ => true
  | .assay _ q nmu _ _ => nmu == 0#1 || q == 0#5
  | .bara _ _ _ => true
  | .barw _ _ _ => true
  | .bacq _ _ _ _ => true
  | .brel _ _ _ _ => true
  | .plaunch _ _ => true
  | .chenq _ _ _ => true
  | .chdeq _ _ _ => true
  | .csrr _ _ _ => true
  | .csrw _ _ _ => true
  | .tlbi _ _ _ => true
  | .tlbsync _ => true
  | .dcfl _ _ => true
  | .dcinv _ _ => true
  | .l2fl _ _ => true
  | .mscfl _ _ => true
  | .ctxsv _ _ _ => true
  | .ctxld _ _ _ => true
  | .sstep _ _ _ => true
  | .migr _ _ _ => true
  | .promo _ _ _ => true
  | .nmuOperationComplete => true
  | .gangStart => true
  | .copyCommandStart => true
  | .copyCommandComplete => true
  | .engineCommandFault => true
  | .fmapArrival => true
  | .fmodePerform => true
  | .fswapPerform => true
  | .plotReleasePerform => true
  | .reloadStart => true
  | .reloadFault => true
  | .reloadComplete => true
  | .nestStart => true
  | .nestStep => true
  | .collectorApply => true
  | .nestComplete => true
  | .storageViewArrival => true
  | .rowCheck => true
  | .rowRefetchComplete => true
  | .ptcInvalidation => true
  | .collectiveArrival => true
  | .collectiveComplete => true
  | .assayOutcome => true
  | .barrierArrival => true
  | .bankAcquireEffect => true
  | .bankReleaseEffect => true
  | .manifestRead => true
  | .channelEntryAvailable => true
  | .tableWalk => true
  | .remoteLoadLanding => true
  | .remoteAccessPerform => true
  | .invalidationApply => true
  | .inboundInvalidationReceive => true
  | .inboundInvalidationApply => true
  | .alqValueArrival => true
  | .alqFaultCapture => true
  | .monitorReread => true
  | .monitorTimeoutRead => true
  | .forcedYield => true
  | .strandRankAging => true
  | .trapEntry => true
  | .dispatcherTick => true
  | .taskImageArrival => true
  | .shadowBankSwap => true
  | .swapEnd => true
  | .spillComplete => true
  | .reinstatementComplete => true
  | .pipelineDone => true
  | .pipelineKill => true
  | .dspholdRelease => true
  | .barrierTargetWrite => true
  | .bheldWrite => true
  | .bholdWrite => true
  | .hcommitGo => true
  | .hashCommitComplete => true
  | .rtrctlEnable => true
  | .rtrctlDisable => true
  | .redirectActive => true
  | .redirectReleased => true
  | .quarantineClear => true
  | .plotOwnedRelease => true
  | .msigenWrite => true
  | .msixUnmask => true
  | .attestCert => true
  | .attestReport => true
  | .attestComplete => true
  | .registerWrite => true
  | .hostPostedWrite => true
  | .hostRead => true
  | .atsTranslationCompletion => true
  | .atsInvalidationRequest => true
  | .pageRequestReply => true
  | .pageRequestTimeout => true
  | .scrubVisit => true
  | .thermalForecastUpdate => true
  | .slayerFlushComplete => true
  | .slayerCutoff => true
  | .towerFence => true
  | .droopStretch => true
  | .currentPeakStretch => true
  | .powerControlUpdate => true
  | .moduleReset => true
  | .portReset => true
  | .selfHeatingTimeout => true
  | .alctlEnable => true
  | .alctlDisable => true
  | .linkUp => true
  | .linkDown => true
  | .linkFlitReceive => true
  | .sequenceUnitOperation => true
  | .vslBelowRetention => true
  | .railDroopEnd => true
  | .selfHeatingComplete => true

end Sys2Proof
end

