-- ==== Sys2Proof/Decode.lean ====
section
/-! DEFINITION. From slot words to instructions and back: the header's lent bits, the four classes of the opcode map, and
the encoder (R233 to R239, R249). -/

namespace Sys2Proof

/-- The fields of a slot word with the bits that a header lends it: d, a and b carry their sixth bit, x is HX[4:0] and hdr
says that the bundle carries a header (R235 to R237). -/
structure Fields where
  hdr : Bool
  g : BitVec 4
  op : BitVec 7
  d : BitVec 6
  a : BitVec 6
  b : BitVec 6
  f : BitVec 5
  x : BitVec 5
  deriving DecidableEq, Repr, Inhabited

/-- b as the five bits of the word. -/
def Fields.b5 (F : Fields) : BitVec 5 := F.b.setWidth 5

/-- imm10 (Table 10-3). -/
def Fields.imm10 (F : Fields) : BitVec 10 := F.b.setWidth 5 ++ F.f

/-- imm15 (Table 10-3). -/
def Fields.imm15 (F : Fields) : BitVec 15 := F.a.setWidth 5 ++ F.b.setWidth 5 ++ F.f

/-- offset20 (Table 10-3). -/
def Fields.off20 (F : Fields) : BitVec 20 := F.d.setWidth 5 ++ F.a.setWidth 5 ++ F.b.setWidth 5 ++ F.f

/-- imm10 as a signed value of 15 bits: with a header HX[4:0] are its upper bits, whatever they hold (R237, log 13). -/
def Fields.immS (F : Fields) : BitVec 15 := if F.hdr then F.x ++ F.b.setWidth 5 ++ F.f else F.imm10.signExtend 15

/-- imm10 as an unsigned value of 15 bits (R237). -/
def Fields.immZ (F : Fields) : BitVec 15 := if F.hdr then F.x ++ F.b.setWidth 5 ++ F.f else F.imm10.setWidth 15

/-- imm15 as a signed value of 20 bits (R237). -/
def Fields.immS20 (F : Fields) : BitVec 20 :=
  if F.hdr then F.x ++ F.a.setWidth 5 ++ F.b.setWidth 5 ++ F.f else F.imm15.signExtend 20

/-- imm15 as an unsigned value of 20 bits (R237). -/
def Fields.immZ20 (F : Fields) : BitVec 20 :=
  if F.hdr then F.x ++ F.a.setWidth 5 ++ F.b.setWidth 5 ++ F.f else F.imm15.setWidth 20

/-- The high bit of a six-bit field is 0. -/
def hi1 (x : BitVec 6) : Bool := x.extractLsb' 5 1 == 0#1

/-- The two high bits of a six-bit field are 0: a predicate or a loop index (R236, R257). -/
def hi2 (x : BitVec 6) : Bool := x.extractLsb' 4 2 == 0#2

/-- The four high bits of a six-bit field are 0: a z tile or a loop level (R236, R258). -/
def hi4 (x : BitVec 6) : Bool := x.extractLsb' 2 4 == 0#4

/-- The instruction where its unused fields are zero (R236). -/
def req (c : Bool) (i : Instr) : Option Instr := if c then some i else none

/-- Class X of the opcode map (R249): what the fields of a slot word name, or nothing. -/
def decodeX (F : Fields) : Option Instr :=
  match F.op.toNat with
  | 0x01 => req (hi1 F.d && hi1 F.a && hi1 F.b && (F.x == 0#5)) (.br F.g F.off20)
  | 0x02 => req (hi1 F.d && hi1 F.a && hi1 F.b && (F.x == 0#5)) (.brl F.g F.off20)
  | 0x03 => req (hi1 F.a && (F.d == 0#6) && (F.b == 0#6) && (F.f == 0#5) && (F.x == 0#5)) (.jr F.g (F.a.setWidth 5))
  | 0x04 => req (hi1 F.d && hi1 F.a && (F.b == 0#6) && (F.f == 0#5) && (F.x == 0#5)) (.jrl F.g (F.d.setWidth 5) (F.a.setWidth 5))
  | 0x10 => req (hi4 F.d && hi1 F.a && hi1 F.b && (F.x == 0#5)) (.loop F.g (F.d.setWidth 2) (F.a.setWidth 5) F.imm10)
  | 0x11 => req (hi4 F.d && hi1 F.a && hi1 F.b && (F.x == 0#5)) (.loopi F.g (F.d.setWidth 2) (F.imm15.extractLsb' 7 8) (F.imm15.extractLsb' 0 7))
  | 0x12 => req (hi4 F.d && (F.a == 0#6) && (F.b == 0#6) && (F.f == 0#5) && (F.x == 0#5)) (.lbrk F.g (F.d.setWidth 2))
  | 0x13 => req (hi2 F.d && hi1 F.a && (F.b == 0#6) && (F.f == 0#5) && (F.x == 0#5)) (.mtl F.g (F.d.setWidth 4) (F.a.setWidth 5))
  | 0x14 => req (hi1 F.d && hi2 F.a && (F.b == 0#6) && (F.f == 0#5) && (F.x == 0#5)) (.mfl F.g (F.d.setWidth 5) (F.a.setWidth 4))
  | 0x20 => req (hi1 F.d && hi1 F.a && hi1 F.b && (F.off20.extractLsb' 16 4 == 0#4) && (F.x == 0#5)) (.yield F.g (F.off20.setWidth 16))
  | 0x21 => req (hi1 F.a && (F.f.extractLsb' 1 4 == 0#4) && (F.d == 0#6) && (F.b == 0#6) && (F.x == 0#5)) (.seg F.g (F.a.setWidth 5) (F.f.extractLsb' 0 1))
  | 0x22 => req (hi1 F.a && hi1 F.b && (F.imm15.extractLsb' 6 2 == 0#2) && (F.imm15.extractLsb' 9 6 == 0#6) && (F.d == 0#6) && (F.x == 0#5)) (.rdv F.g (F.imm15.extractLsb' 8 1) (F.imm15.extractLsb' 0 6))
  | 0x23 => req (hi1 F.a && hi1 F.b && (F.imm15.extractLsb' 8 7 == 0#7) && (F.d == 0#6) && (F.x == 0#5)) (.trap F.g (F.imm15.extractLsb' 0 8))
  | 0x24 => req (hi1 F.d && hi1 F.a && hi1 F.b && (F.x == 0#5)) (.trapb F.g (F.d.setWidth 5) (F.a.setWidth 5) F.imm10)
  | 0x25 => req ((F.d == 0#6) && (F.a == 0#6) && (F.b == 0#6) && (F.f == 0#5) && (F.x == 0#5)) (.eret F.g)
  | 0x26 => req ((F.d == 0#6) && (F.a == 0#6) && (F.b == 0#6) && (F.f == 0#5) && (F.x == 0#5)) (.exit F.g)
  | 0x27 => req ((F.d == 0#6) && (F.a == 0#6) && (F.b == 0#6) && (F.f == 0#5) && (F.x == 0#5)) (.pause F.g)
  | 0x30 => req (hi1 F.d && hi1 F.a && hi1 F.b && (F.f == 0#5) && (F.x == 0#5)) (.xadd F.g (F.d.setWidth 5) (F.a.setWidth 5) (F.b.setWidth 5))
  | 0x31 => req (hi1 F.d && hi1 F.a && hi1 F.b && (F.x == 0#5)) (.xaddi F.g (F.d.setWidth 5) (F.a.setWidth 5) F.imm10)
  | 0x32 => req (hi1 F.d && hi1 F.a && hi1 F.b && (F.x == 0#5)) (.xmovi F.g (F.d.setWidth 5) F.imm15)
  | 0x33 => req (hi1 F.d && hi1 F.a && hi1 F.b && (F.x == 0#5)) (.xmovhi F.g (F.d.setWidth 5) F.imm15)
  | _ => none

/-- Class S of the opcode map (R249): what the fields of a slot word name, or nothing. -/
def decodeS (F : Fields) : Option Instr :=
  match F.op.toNat with
  | 0x01 => req ((F.f == 0#5) && (F.x == 0#5)) (.add F.g F.d F.a F.b)
  | 0x02 => req ((F.f == 0#5) && (F.x == 0#5)) (.sub F.g F.d F.a F.b)
  | 0x03 => req (hi1 F.b) (.addi F.g F.d F.a F.immS)
  | 0x04 => req ((F.f == 0#5) && (F.x == 0#5)) (.mul F.g F.d F.a F.b)
  | 0x05 => req ((F.f == 0#5) && (F.x == 0#5)) (.mulhs F.g F.d F.a F.b)
  | 0x06 => req ((F.f == 0#5) && (F.x == 0#5)) (.mulhu F.g F.d F.a F.b)
  | 0x07 => req ((F.f == 0#5) && (F.x == 0#5)) (.divs F.g F.d F.a F.b)
  | 0x08 => req ((F.f == 0#5) && (F.x == 0#5)) (.divu F.g F.d F.a F.b)
  | 0x09 => req ((F.f == 0#5) && (F.x == 0#5)) (.rems F.g F.d F.a F.b)
  | 0x0a => req ((F.f == 0#5) && (F.x == 0#5)) (.remu F.g F.d F.a F.b)
  | 0x0b => req ((F.f == 0#5) && (F.x == 0#5)) (.and F.g F.d F.a F.b)
  | 0x0c => req ((F.f == 0#5) && (F.x == 0#5)) (.or F.g F.d F.a F.b)
  | 0x0d => req ((F.f == 0#5) && (F.x == 0#5)) (.xor F.g F.d F.a F.b)
  | 0x0e => req (hi1 F.b) (.andi F.g F.d F.a F.immS)
  | 0x0f => req (hi1 F.b) (.ori F.g F.d F.a F.immS)
  | 0x10 => req (hi1 F.b) (.xori F.g F.d F.a F.immS)
  | 0x11 => req ((F.f == 0#5) && (F.x == 0#5)) (.shl F.g F.d F.a F.b)
  | 0x12 => req ((F.f == 0#5) && (F.x == 0#5)) (.shr F.g F.d F.a F.b)
  | 0x13 => req ((F.f == 0#5) && (F.x == 0#5)) (.sar F.g F.d F.a F.b)
  | 0x14 => req (hi1 F.b && (F.immZ.extractLsb' 6 9 == 0#9)) (.shli F.g F.d F.a (F.immZ.setWidth 6))
  | 0x15 => req (hi1 F.b && (F.immZ.extractLsb' 6 9 == 0#9)) (.shri F.g F.d F.a (F.immZ.setWidth 6))
  | 0x16 => req (hi1 F.b && (F.immZ.extractLsb' 6 9 == 0#9)) (.sari F.g F.d F.a (F.immZ.setWidth 6))
  | 0x17 => req ((F.f == 0#5) && (F.x == 0#5)) (.rotr F.g F.d F.a F.b)
  | 0x18 => req ((F.b == 0#6) && (F.f == 0#5) && (F.x == 0#5)) (.clz F.g F.d F.a)
  | 0x19 => req ((F.b == 0#6) && (F.f == 0#5) && (F.x == 0#5)) (.ctz F.g F.d F.a)
  | 0x1a => req ((F.b == 0#6) && (F.f == 0#5) && (F.x == 0#5)) (.popc F.g F.d F.a)
  | 0x1b => req ((F.f == 0#5) && (F.x == 0#5)) (.mins F.g F.d F.a F.b)
  | 0x1c => req ((F.f == 0#5) && (F.x == 0#5)) (.maxs F.g F.d F.a F.b)
  | 0x1d => req ((F.f == 0#5) && (F.x == 0#5)) (.minu F.g F.d F.a F.b)
  | 0x1e => req ((F.f == 0#5) && (F.x == 0#5)) (.maxu F.g F.d F.a F.b)
  | 0x1f => req ((F.b == 0#6) && (F.f == 0#5) && (F.x == 0#5)) (.abs F.g F.d F.a)
  | 0x20 => req ((F.f.extractLsb' 1 4 == 0#4) && (F.x == 0#5)) (.bfx F.g F.d F.a F.b (F.f.extractLsb' 0 1))
  | 0x21 => req ((F.f == 0#5) && (F.x == 0#5)) (.bfi F.g F.d F.a F.b)
  | 0x22 => req ((F.b == 0#6) && (F.f == 0#5) && (F.x == 0#5)) (.mov F.g F.d F.a)
  | 0x23 => req (hi1 F.a && hi1 F.b) (.movi F.g F.d F.immS20)
  | 0x24 => req (hi1 F.a && hi1 F.b && (F.immZ20.extractLsb' 16 4 == 0#4)) (.movhi F.g F.d (F.immZ20.setWidth 16))
  | 0x25 => req ((F.f.extractLsb' 4 1 == 0#1) && (F.x == 0#5)) (.sel F.g F.d F.a F.b (F.f.extractLsb' 0 4))
  | 0x30 => req (hi2 F.d && (F.f == 0#5) && (F.x == 0#5)) (.cmpeq F.g (F.d.setWidth 4) F.a F.b)
  | 0x31 => req (hi2 F.d && (F.f == 0#5) && (F.x == 0#5)) (.cmpne F.g (F.d.setWidth 4) F.a F.b)
  | 0x32 => req (hi2 F.d && (F.f == 0#5) && (F.x == 0#5)) (.cmplt F.g (F.d.setWidth 4) F.a F.b)
  | 0x33 => req (hi2 F.d && (F.f == 0#5) && (F.x == 0#5)) (.cmple F.g (F.d.setWidth 4) F.a F.b)
  | 0x34 => req (hi2 F.d && (F.f == 0#5) && (F.x == 0#5)) (.cmpltu F.g (F.d.setWidth 4) F.a F.b)
  | 0x35 => req (hi2 F.d && (F.f == 0#5) && (F.x == 0#5)) (.cmpleu F.g (F.d.setWidth 4) F.a F.b)
  | 0x36 => req (hi2 F.d && hi1 F.b) (.cmpeqi F.g (F.d.setWidth 4) F.a F.immS)
  | 0x37 => req (hi2 F.d && hi1 F.b) (.cmplti F.g (F.d.setWidth 4) F.a F.immS)
  | 0x38 => req (hi2 F.d && hi2 F.a && hi2 F.b && (F.f == 0#5) && (F.x == 0#5)) (.pand F.g (F.d.setWidth 4) (F.a.setWidth 4) (F.b.setWidth 4))
  | 0x39 => req (hi2 F.d && hi2 F.a && hi2 F.b && (F.f == 0#5) && (F.x == 0#5)) (.por F.g (F.d.setWidth 4) (F.a.setWidth 4) (F.b.setWidth 4))
  | 0x3a => req (hi2 F.d && hi2 F.a && hi2 F.b && (F.f == 0#5) && (F.x == 0#5)) (.pxor F.g (F.d.setWidth 4) (F.a.setWidth 4) (F.b.setWidth 4))
  | 0x3b => req (hi2 F.d && hi2 F.a && (F.b == 0#6) && (F.f == 0#5) && (F.x == 0#5)) (.pnot F.g (F.d.setWidth 4) (F.a.setWidth 4))
  | 0x3c => req (hi2 F.d && (F.b == 0#6) && (F.f == 0#5) && (F.x == 0#5)) (.pmov F.g (F.d.setWidth 4) F.a)
  | 0x3d => req (hi2 F.a && (F.b == 0#6) && (F.f == 0#5) && (F.x == 0#5)) (.mfp F.g F.d (F.a.setWidth 4))
  | 0x40 => req (hi1 F.b) (.ldb F.g F.d F.a F.immS)
  | 0x41 => req (hi1 F.b) (.ldbu F.g F.d F.a F.immS)
  | 0x42 => req (hi1 F.b) (.ldh F.g F.d F.a F.immS)
  | 0x43 => req (hi1 F.b) (.ldhu F.g F.d F.a F.immS)
  | 0x44 => req (hi1 F.b) (.ldw F.g F.d F.a F.immS)
  | 0x45 => req (hi1 F.b) (.ldwu F.g F.d F.a F.immS)
  | 0x46 => req (hi1 F.b) (.ldd F.g F.d F.a F.immS)
  | 0x47 => req (hi1 F.b) (.ldq F.g F.d F.a F.immS)
  | 0x48 => req (hi1 F.b) (.stb F.g F.d F.a F.immS)
  | 0x49 => req (hi1 F.b) (.sth F.g F.d F.a F.immS)
  | 0x4a => req (hi1 F.b) (.stw F.g F.d F.a F.immS)
  | 0x4b => req (hi1 F.b) (.std F.g F.d F.a F.immS)
  | 0x4c => req (hi1 F.b) (.stq F.g F.d F.a F.immS)
  | 0x4d => req (hi1 F.d && hi1 F.b) (.pft F.g (F.d.setWidth 5) F.a F.immS)
  | 0x60 => req ((F.f.extractLsb' 1 4 == 0#4) && (F.d == 0#6) && (F.x == 0#5)) (.aadd F.g F.a F.b (F.f.extractLsb' 0 1))
  | 0x61 => req ((F.f.extractLsb' 1 4 == 0#4) && (F.d == 0#6) && (F.x == 0#5)) (.amin F.g F.a F.b (F.f.extractLsb' 0 1))
  | 0x62 => req ((F.f.extractLsb' 1 4 == 0#4) && (F.d == 0#6) && (F.x == 0#5)) (.amax F.g F.a F.b (F.f.extractLsb' 0 1))
  | 0x63 => req ((F.f.extractLsb' 1 4 == 0#4) && (F.d == 0#6) && (F.x == 0#5)) (.aminu F.g F.a F.b (F.f.extractLsb' 0 1))
  | 0x64 => req ((F.f.extractLsb' 1 4 == 0#4) && (F.d == 0#6) && (F.x == 0#5)) (.amaxu F.g F.a F.b (F.f.extractLsb' 0 1))
  | 0x65 => req ((F.f.extractLsb' 1 4 == 0#4) && (F.d == 0#6) && (F.x == 0#5)) (.aand F.g F.a F.b (F.f.extractLsb' 0 1))
  | 0x66 => req ((F.f.extractLsb' 1 4 == 0#4) && (F.d == 0#6) && (F.x == 0#5)) (.aor F.g F.a F.b (F.f.extractLsb' 0 1))
  | 0x67 => req ((F.f.extractLsb' 1 4 == 0#4) && (F.d == 0#6) && (F.x == 0#5)) (.axor F.g F.a F.b (F.f.extractLsb' 0 1))
  | 0x68 => req ((F.f.extractLsb' 1 4 == 0#4) && (F.d == 0#6) && (F.x == 0#5)) (.axchg F.g F.a F.b (F.f.extractLsb' 0 1))
  | 0x69 => req ((F.f.extractLsb' 1 4 == 0#4) && (F.x == 0#5)) (.acas F.g F.d F.a F.b (F.f.extractLsb' 0 1))
  | 0x6a => req ((F.f.extractLsb' 1 4 == 0#4) && (F.d == 0#6) && (F.x == 0#5)) (.radd F.g F.a F.b (F.f.extractLsb' 0 1))
  | 0x6b => req ((F.f.extractLsb' 2 3 == 0#3) && (F.d == 0#6) && (F.x == 0#5)) (.rmin F.g F.a F.b (F.f.extractLsb' 1 1) (F.f.extractLsb' 0 1))
  | 0x6c => req ((F.f.extractLsb' 2 3 == 0#3) && (F.d == 0#6) && (F.x == 0#5)) (.rmax F.g F.a F.b (F.f.extractLsb' 1 1) (F.f.extractLsb' 0 1))
  | 0x6d => req ((F.f.extractLsb' 1 4 == 0#4) && (F.d == 0#6) && (F.x == 0#5)) (.rand F.g F.a F.b (F.f.extractLsb' 0 1))
  | 0x6e => req ((F.f.extractLsb' 1 4 == 0#4) && (F.d == 0#6) && (F.x == 0#5)) (.ror F.g F.a F.b (F.f.extractLsb' 0 1))
  | 0x6f => req ((F.f.extractLsb' 1 4 == 0#4) && (F.d == 0#6) && (F.x == 0#5)) (.rxor F.g F.a F.b (F.f.extractLsb' 0 1))
  | 0x70 => req ((F.a == 0#6) && (F.b == 0#6) && (F.f == 0#5) && (F.x == 0#5)) (.popq F.g F.d)
  | 0x71 => req ((F.d == 0#6) && (F.f == 0#5) && (F.x == 0#5)) (.rfadd F.g F.a F.b)
  | 0x72 => req ((F.d == 0#6) && (F.a == 0#6) && (F.b == 0#6) && (F.x == 0#5)) (.drain F.g (F.f.extractLsb' 2 3) (F.f.extractLsb' 0 2))
  | 0x73 => req ((F.f.extractLsb' 3 2 == 0#2) && (F.d == 0#6) && (F.x == 0#5)) (.waita F.g F.a F.b (F.f.extractLsb' 2 1) (F.f.extractLsb' 0 2))
  | 0x78 => req (hi1 F.b && (F.immZ.extractLsb' 6 9 == 0#9) && (F.d == 0#6)) (.mtg F.g F.a (F.immZ.setWidth 6))
  | 0x79 => req (hi1 F.b && (F.immZ.extractLsb' 6 9 == 0#9) && (F.a == 0#6)) (.mfg F.g F.d (F.immZ.setWidth 6))
  | 0x7a => req (hi1 F.b && (F.immZ.extractLsb' 6 9 == 0#9) && (F.a == 0#6)) (.mfsr F.g F.d (F.immZ.setWidth 6))
  | _ => none

/-- Class V of the opcode map (R249): what the fields of a slot word name, or nothing. -/
def decodeV (F : Fields) : Option Instr :=
  match F.op.toNat with
  | 0x01 => req ((F.f.extractLsb' 4 1 == 0#1) && (F.x == 0#5)) (.vadd F.g F.d F.a F.b (F.f.extractLsb' 2 2) (F.f.extractLsb' 0 2))
  | 0x02 => req ((F.f.extractLsb' 4 1 == 0#1) && (F.x == 0#5)) (.vsub F.g F.d F.a F.b (F.f.extractLsb' 2 2) (F.f.extractLsb' 0 2))
  | 0x03 => req ((F.f.extractLsb' 2 3 == 0#3) && (F.x == 0#5)) (.vmul F.g F.d F.a F.b (F.f.extractLsb' 0 2))
  | 0x04 => req ((F.f.extractLsb' 3 2 == 0#2) && (F.x == 0#5)) (.vmulh F.g F.d F.a F.b (F.f.extractLsb' 2 1) (F.f.extractLsb' 0 2))
  | 0x05 => req ((F.f.extractLsb' 2 3 == 0#3) && (F.x == 0#5)) (.vmac F.g F.d F.a F.b (F.f.extractLsb' 0 2))
  | 0x06 => req ((F.f.extractLsb' 2 3 == 0#3) && (F.x == 0#5)) (.vmins F.g F.d F.a F.b (F.f.extractLsb' 0 2))
  | 0x07 => req ((F.f.extractLsb' 2 3 == 0#3) && (F.x == 0#5)) (.vmaxs F.g F.d F.a F.b (F.f.extractLsb' 0 2))
  | 0x08 => req ((F.f.extractLsb' 2 3 == 0#3) && (F.x == 0#5)) (.vminu F.g F.d F.a F.b (F.f.extractLsb' 0 2))
  | 0x09 => req ((F.f.extractLsb' 2 3 == 0#3) && (F.x == 0#5)) (.vmaxu F.g F.d F.a F.b (F.f.extractLsb' 0 2))
  | 0x0a => req ((F.f.extractLsb' 2 3 == 0#3) && (F.b == 0#6) && (F.x == 0#5)) (.vabs F.g F.d F.a (F.f.extractLsb' 0 2))
  | 0x0b => req ((F.f == 0#5) && (F.x == 0#5)) (.vand F.g F.d F.a F.b)
  | 0x0c => req ((F.f == 0#5) && (F.x == 0#5)) (.vor F.g F.d F.a F.b)
  | 0x0d => req ((F.f == 0#5) && (F.x == 0#5)) (.vxor F.g F.d F.a F.b)
  | 0x0e => req ((F.f.extractLsb' 2 3 == 0#3) && (F.x == 0#5)) (.vshl F.g F.d F.a F.b (F.f.extractLsb' 0 2))
  | 0x0f => req ((F.f.extractLsb' 2 3 == 0#3) && (F.x == 0#5)) (.vshr F.g F.d F.a F.b (F.f.extractLsb' 0 2))
  | 0x10 => req ((F.f.extractLsb' 2 3 == 0#3) && (F.x == 0#5)) (.vsar F.g F.d F.a F.b (F.f.extractLsb' 0 2))
  | 0x11 => req ((F.x == 0#5)) (.vfshl F.g F.d F.a F.b F.f)
  | 0x12 => req ((F.x == 0#5)) (.vfshr F.g F.d F.a F.b F.f)
  | 0x13 => req ((F.f.extractLsb' 2 3 == 0#3) && (F.x == 0#5)) (.vrot F.g F.d F.a F.b (F.f.extractLsb' 0 2))
  | 0x14 => req ((F.f.extractLsb' 2 3 == 0#3) && (F.b == 0#6) && (F.x == 0#5)) (.vpopc F.g F.d F.a (F.f.extractLsb' 0 2))
  | 0x15 => req ((F.f.extractLsb' 2 3 == 0#3) && (F.b == 0#6) && (F.x == 0#5)) (.vclz F.g F.d F.a (F.f.extractLsb' 0 2))
  | 0x16 => req (hi1 F.b && (F.b5.extractLsb' 4 1 == 0#1) && (F.x == 0#5)) (.vshi F.g F.d F.a (F.b5.extractLsb' 2 2) (F.b5.extractLsb' 0 2) F.f)
  | 0x17 => req ((F.f.extractLsb' 2 3 == 0#3) && (F.b == 0#6) && (F.x == 0#5)) (.vbcst F.g F.d F.a (F.f.extractLsb' 0 2))
  | 0x18 => req ((F.x == 0#5)) (.vtern F.g F.d F.a F.b (F.op.extractLsb' 0 3 ++ F.f))
  | 0x19 => req ((F.x == 0#5)) (.vtern F.g F.d F.a F.b (F.op.extractLsb' 0 3 ++ F.f))
  | 0x1a => req ((F.x == 0#5)) (.vtern F.g F.d F.a F.b (F.op.extractLsb' 0 3 ++ F.f))
  | 0x1b => req ((F.x == 0#5)) (.vtern F.g F.d F.a F.b (F.op.extractLsb' 0 3 ++ F.f))
  | 0x1c => req ((F.x == 0#5)) (.vtern F.g F.d F.a F.b (F.op.extractLsb' 0 3 ++ F.f))
  | 0x1d => req ((F.x == 0#5)) (.vtern F.g F.d F.a F.b (F.op.extractLsb' 0 3 ++ F.f))
  | 0x1e => req ((F.x == 0#5)) (.vtern F.g F.d F.a F.b (F.op.extractLsb' 0 3 ++ F.f))
  | 0x1f => req ((F.x == 0#5)) (.vtern F.g F.d F.a F.b (F.op.extractLsb' 0 3 ++ F.f))
  | 0x20 => req ((F.f.extractLsb' 2 3 == 0#3) && (F.x == 0#5)) (.vfadd F.g F.d F.a F.b (F.f.extractLsb' 1 1) (F.f.extractLsb' 0 1))
  | 0x21 => req ((F.f.extractLsb' 2 3 == 0#3) && (F.x == 0#5)) (.vfsub F.g F.d F.a F.b (F.f.extractLsb' 1 1) (F.f.extractLsb' 0 1))
  | 0x22 => req ((F.f.extractLsb' 2 3 == 0#3) && (F.x == 0#5)) (.vfmul F.g F.d F.a F.b (F.f.extractLsb' 1 1) (F.f.extractLsb' 0 1))
  | 0x23 => req ((F.f.extractLsb' 2 3 == 0#3) && (F.x == 0#5)) (.vfma F.g F.d F.a F.b (F.f.extractLsb' 1 1) (F.f.extractLsb' 0 1))
  | 0x24 => req ((F.f.extractLsb' 1 4 == 0#4) && (F.x == 0#5)) (.vfmax F.g F.d F.a F.b (F.f.extractLsb' 0 1))
  | 0x25 => req ((F.f.extractLsb' 1 4 == 0#4) && (F.x == 0#5)) (.vfmin F.g F.d F.a F.b (F.f.extractLsb' 0 1))
  | 0x26 => req ((F.b == 0#6) && (F.f == 0#5) && (F.x == 0#5)) (.vexp2 F.g F.d F.a)
  | 0x27 => req ((F.b == 0#6) && (F.f == 0#5) && (F.x == 0#5)) (.vrcp F.g F.d F.a)
  | 0x28 => req ((F.b == 0#6) && (F.f == 0#5) && (F.x == 0#5)) (.vrsq F.g F.d F.a)
  | 0x29 => req (hi2 F.d && (F.f.extractLsb' 0 1 == 0#1) && (F.f.extractLsb' 4 1 == 0#1) && (F.x == 0#5)) (.vfcmp F.g (F.d.setWidth 4) F.a F.b (F.f.extractLsb' 1 3))
  | 0x2a => req ((F.f.extractLsb' 4 1 == 0#1) && hi1 F.b && (F.x == 0#5)) (.vcvt F.g F.d F.a (F.b5.extractLsb' 4 1) (F.b5.extractLsb' 0 4) (F.f.extractLsb' 3 1) (F.f.extractLsb' 0 3))
  | 0x2b => req ((F.f.extractLsb' 4 1 == 0#1) && hi1 F.b && (F.b5.extractLsb' 4 1 == 0#1) && (F.x == 0#5)) (.vcvts F.g F.d F.a (F.b5.extractLsb' 0 4) (F.f.extractLsb' 3 1) (F.f.extractLsb' 0 3))
  | 0x2c => req ((F.x == 0#5)) (.vmxq F.g F.d F.a F.b (F.f.extractLsb' 3 2) (F.f.extractLsb' 2 1) (F.f.extractLsb' 0 2))
  | 0x2d => req ((F.f.extractLsb' 2 1 == 0#1) && (F.x == 0#5)) (.vmxd F.g F.d F.a F.b (F.f.extractLsb' 3 2) (F.f.extractLsb' 0 2))
  | 0x40 => req ((F.f == 0#5) && (F.x == 0#5)) (.vperm F.g F.d F.a F.b)
  | 0x41 => req ((F.x == 0#5)) (.vslide F.g F.d F.a F.b F.f)
  | 0x42 => req ((F.b == 0#6) && (F.f == 0#5) && (F.x == 0#5)) (.vradd F.g F.d F.a)
  | 0x43 => req ((F.f.extractLsb' 1 4 == 0#4) && (F.b == 0#6) && (F.x == 0#5)) (.vrmax F.g F.d F.a (F.f.extractLsb' 0 1))
  | 0x44 => req ((F.b == 0#6) && (F.f == 0#5) && (F.x == 0#5)) (.vrfadd F.g F.d F.a)
  | 0x45 => req ((F.b == 0#6) && (F.f == 0#5) && (F.x == 0#5)) (.vrfmax F.g F.d F.a)
  | 0x46 => req ((F.f.extractLsb' 4 1 == 0#1) && (F.x == 0#5)) (.vsel F.g F.d F.a F.b (F.f.extractLsb' 0 4))
  | 0x47 => req ((F.b == 0#6) && (F.f == 0#5) && (F.x == 0#5)) (.vmov F.g F.d F.a)
  | 0x48 => req ((F.b == 0#6) && (F.x == 0#5)) (.vext F.g F.d F.a F.f)
  | 0x49 => req ((F.b == 0#6) && (F.x == 0#5)) (.vins F.g F.d F.a F.f)
  | 0x4a => req (hi2 F.d && (F.x == 0#5)) (.vcmp F.g (F.d.setWidth 4) F.a F.b (F.f.extractLsb' 2 3) (F.f.extractLsb' 0 2))
  | 0x4b => req ((F.b == 0#6) && (F.f == 0#5) && (F.x == 0#5)) (.vmcnt F.g F.d F.a)
  | 0x4c => req ((F.b == 0#6) && (F.f == 0#5) && (F.x == 0#5)) (.vmfst F.g F.d F.a)
  | 0x50 => req (hi1 F.b) (.vld F.g F.d F.a F.immS)
  | 0x51 => req (hi1 F.b) (.vst F.g F.d F.a F.immS)
  | 0x52 => req ((F.f == 0#5) && (F.x == 0#5)) (.vlds F.g F.d F.a F.b)
  | 0x53 => req ((F.f == 0#5) && (F.x == 0#5)) (.vsts F.g F.d F.a F.b)
  | 0x54 => req ((F.f.extractLsb' 2 3 == 0#3) && (F.x == 0#5)) (.vldx F.g F.d F.a F.b (F.f.extractLsb' 0 2))
  | 0x55 => req ((F.f.extractLsb' 2 3 == 0#3) && (F.x == 0#5)) (.vstx F.g F.d F.a F.b (F.f.extractLsb' 0 2))
  | 0x56 => req (hi1 F.b) (.vldb F.g F.d F.a F.immS)
  | 0x60 => req (hi4 F.d && (F.f.extractLsb' 1 4 == 0#4) && (F.a == 0#6) && (F.b == 0#6) && (F.x == 0#5)) (.mma F.g (F.d.setWidth 2) (F.f.extractLsb' 0 1))
  | 0x61 => req (hi4 F.d && (F.f.extractLsb' 1 4 == 0#4) && (F.a == 0#6) && (F.b == 0#6) && (F.x == 0#5)) (.mmag F.g (F.d.setWidth 2) (F.f.extractLsb' 0 1))
  | 0x62 => req (hi4 F.d && (F.f.extractLsb' 2 3 == 0#3) && (F.a == 0#6) && (F.b == 0#6) && (F.x == 0#5)) (.zclr F.g (F.d.setWidth 2) (F.f.extractLsb' 1 1) (F.f.extractLsb' 0 1))
  | 0x63 => req (hi4 F.d && (F.f.extractLsb' 2 3 == 0#3) && (F.x == 0#5)) (.zld F.g (F.d.setWidth 2) F.a F.b (F.f.extractLsb' 1 1) (F.f.extractLsb' 0 1))
  | 0x64 => req (hi4 F.d && (F.f.extractLsb' 2 3 == 0#3) && (F.x == 0#5)) (.zst F.g (F.d.setWidth 2) F.a F.b (F.f.extractLsb' 1 1) (F.f.extractLsb' 0 1))
  | 0x65 => req (hi4 F.d && hi4 F.a && (F.b == 0#6) && (F.f == 0#5) && (F.x == 0#5)) (.osm F.g (F.d.setWidth 2) (F.a.setWidth 2))
  | 0x66 => req (hi4 F.d && (F.a == 0#6) && (F.b == 0#6) && (F.f == 0#5) && (F.x == 0#5)) (.osmf F.g (F.d.setWidth 2))
  | 0x67 => req ((F.f.extractLsb' 1 4 == 0#4) && (F.b == 0#6) && (F.x == 0#5)) (.rbkt F.g F.d F.a (F.f.extractLsb' 0 1))
  | 0x68 => req ((F.x == 0#5)) (.rbias F.g F.d F.a F.b F.f)
  | _ => none

/-- Class E of the opcode map (R249): what the fields of a slot word name, or nothing. -/
def decodeE (F : Fields) : Option Instr :=
  match F.op.toNat with
  | 0x01 => req ((F.d == 0#6) && (F.a == 0#6) && (F.b == 0#6) && (F.f == 0#5) && (F.x == 0#5)) (.cpy F.g)
  | 0x02 => req ((F.d == 0#6) && (F.a == 0#6) && (F.b == 0#6) && (F.f == 0#5) && (F.x == 0#5)) (.cpy2 F.g)
  | 0x03 => req ((F.d == 0#6) && (F.a == 0#6) && (F.b == 0#6) && (F.f == 0#5) && (F.x == 0#5)) (.cpyg F.g)
  | 0x04 => req ((F.d == 0#6) && (F.a == 0#6) && (F.b == 0#6) && (F.f == 0#5) && (F.x == 0#5)) (.cpyf F.g)
  | 0x10 => (req ((F.d == 0#6) && (F.b == 0#6) && (F.x == 0#5)) (.fmap F.g F.a F.f)).or
      (req ((F.d == 0#6) && (F.b == 1#6) && (F.x == 0#5)) (.fmapRel F.g F.a F.f))
  | 0x11 => req (hi1 F.b && (F.b5.extractLsb' 2 3 == 0#3) && (F.d == 0#6) && (F.x == 0#5)) (.fmode F.g F.a (F.b5.extractLsb' 1 1) (F.b5.extractLsb' 0 1) F.f)
  | 0x12 => req (hi1 F.b && (F.b5.extractLsb' 2 3 == 0#3) && (F.x == 0#5)) (.fload F.g F.d F.a (F.b5.extractLsb' 1 1) (F.b5.extractLsb' 0 1) F.f)
  | 0x13 => req ((F.d == 0#6) && (F.b == 0#6) && (F.x == 0#5)) (.fswap F.g F.a F.f)
  | 0x14 => req ((F.d == 0#6) && (F.a == 0#6) && (F.b == 0#6) && (F.f == 0#5) && (F.x == 0#5)) (.fgo F.g)
  | 0x15 => req ((F.b == 0#6) && (F.x == 0#5)) (.fstat F.g F.d F.a F.f)
  | 0x16 => req ((F.d == 0#6) && (F.b == 0#6) && (F.f == 0#5) && (F.x == 0#5)) (.fremap F.g F.a)
  | 0x20 => (req ((F.d == 0#6) && (F.b == 0#6) && (F.f == 0#5) && (F.x == 0#5)) (.sqnew F.g F.a)).or
      (req ((F.d == 0#6) && (F.f == 1#5) && (F.x == 0#5)) (.sqnewReg F.g F.a F.b))
  | 0x21 => req ((F.d == 0#6) && (F.f == 0#5) && (F.x == 0#5)) (.sqrsv F.g F.a F.b)
  | 0x22 => req ((F.f.extractLsb' 3 2 == 0#2) && (F.x == 0#5)) (.sqcmt F.g F.d F.a F.b (F.f.extractLsb' 0 3))
  | 0x23 => req ((F.f == 0#5) && (F.x == 0#5)) (.sqabn F.g F.d F.a F.b)
  | 0x24 => req ((F.f == 0#5) && (F.x == 0#5)) (.sqfork F.g F.d F.a F.b)
  | 0x25 => req ((F.d == 0#6) && (F.b == 0#6) && (F.f == 0#5) && (F.x == 0#5)) (.sqdrop F.g F.a)
  | 0x26 => req ((F.d == 0#6) && (F.b == 0#6) && (F.f == 0#5) && (F.x == 0#5)) (.sqlen F.g F.a)
  | 0x27 => req ((F.f.extractLsb' 2 3 == 0#3) && (F.x == 0#5)) (.sqpos F.g F.d F.a F.b (F.f.extractLsb' 1 1) (F.f.extractLsb' 0 1))
  | 0x28 => req ((F.f == 0#5) && (F.x == 0#5)) (.sqsplc F.g F.d F.a F.b)
  | 0x29 => req ((F.d == 0#6) && (F.b == 0#6) && (F.f == 0#5) && (F.x == 0#5)) (.rprchk F.g F.a)
  | 0x2a => req ((F.d == 0#6) && (F.b == 0#6) && (F.f == 0#5) && (F.x == 0#5)) (.rprins F.g F.a)
  | 0x2b => req ((F.f.extractLsb' 1 4 == 0#4) && (F.d == 0#6) && (F.b == 0#6) && (F.x == 0#5)) (.rprstat F.g F.a (F.f.extractLsb' 0 1))
  | 0x30 => req ((F.f.extractLsb' 1 4 == 0#4) && (F.d == 0#6) && (F.a == 0#6) && (F.b == 0#6) && (F.x == 0#5)) (.cred F.g (F.f.extractLsb' 0 1))
  | 0x31 => req ((F.d == 0#6) && (F.a == 0#6) && (F.b == 0#6) && (F.f == 0#5) && (F.x == 0#5)) (.cbcst F.g)
  | 0x32 => req ((F.d == 0#6) && (F.a == 0#6) && (F.b == 0#6) && (F.f == 0#5) && (F.x == 0#5)) (.cagth F.g)
  | 0x33 => req ((F.d == 0#6) && (F.a == 0#6) && (F.b == 0#6) && (F.f == 0#5) && (F.x == 0#5)) (.ca2a F.g)
  | 0x38 => req ((F.d == 0#6) && (F.f == 0#5) && (F.x == 0#5)) (.rbseed F.g F.a F.b)
  | 0x39 => req ((F.d == 0#6) && (F.f == 0#5) && (F.x == 0#5)) (.rbctr F.g F.a F.b)
  | 0x3a => req ((F.a == 0#6) && (F.b == 0#6) && (F.f == 0#5) && (F.x == 0#5)) (.rbrd F.g F.d)
  | 0x40 => req (hi1 F.a && hi1 F.b && (F.immZ20.extractLsb' 6 2 == 0#2) && (F.immZ20.extractLsb' 9 11 == 0#11) && (F.d == 0#6)) (.bara F.g (F.immZ20.extractLsb' 8 1) (F.immZ20.extractLsb' 0 6))
  | 0x41 => req (hi1 F.a && hi1 F.b && (F.immZ20.extractLsb' 6 2 == 0#2) && (F.immZ20.extractLsb' 9 11 == 0#11) && (F.d == 0#6)) (.barw F.g (F.immZ20.extractLsb' 8 1) (F.immZ20.extractLsb' 0 6))
  | 0x42 => req (hi1 F.b && (F.d == 0#6) && (F.x == 0#5)) (.bacq F.g F.a (F.imm10.extractLsb' 8 2) (F.imm10.extractLsb' 0 8))
  | 0x43 => req (hi1 F.b && (F.d == 0#6) && (F.x == 0#5)) (.brel F.g F.a (F.imm10.extractLsb' 8 2) (F.imm10.extractLsb' 0 8))
  | 0x44 => req ((F.d == 0#6) && (F.b == 0#6) && (F.f == 0#5) && (F.x == 0#5)) (.plaunch F.g F.a)
  | 0x45 => req ((F.d == 0#6) && (F.b == 0#6) && (F.x == 0#5)) (.chenq F.g F.a F.f)
  | 0x46 => req ((F.d == 0#6) && (F.b == 0#6) && (F.x == 0#5)) (.chdeq F.g F.a F.f)
  | 0x50 => req (hi1 F.b && (F.a == 0#6)) (.csrr F.g F.d F.immZ)
  | 0x51 => req (hi1 F.b && (F.d == 0#6)) (.csrw F.g F.a F.immZ)
  | 0x52 => req ((F.f.extractLsb' 1 4 == 0#4) && (F.d == 0#6) && (F.b == 0#6) && (F.x == 0#5)) (.tlbi F.g F.a (F.f.extractLsb' 0 1))
  | 0x53 => req ((F.d == 0#6) && (F.a == 0#6) && (F.b == 0#6) && (F.f == 0#5) && (F.x == 0#5)) (.tlbsync F.g)
  | 0x54 => req ((F.d == 0#6) && (F.b == 0#6) && (F.f == 0#5) && (F.x == 0#5)) (.dcfl F.g F.a)
  | 0x55 => req ((F.d == 0#6) && (F.b == 0#6) && (F.f == 0#5) && (F.x == 0#5)) (.dcinv F.g F.a)
  | 0x56 => req ((F.d == 0#6) && (F.b == 0#6) && (F.f == 0#5) && (F.x == 0#5)) (.l2fl F.g F.a)
  | 0x57 => req ((F.d == 0#6) && (F.b == 0#6) && (F.f == 0#5) && (F.x == 0#5)) (.mscfl F.g F.a)
  | 0x58 => req ((F.d == 0#6) && (F.f == 0#5) && (F.x == 0#5)) (.ctxsv F.g F.a F.b)
  | 0x59 => req ((F.d == 0#6) && (F.f == 0#5) && (F.x == 0#5)) (.ctxld F.g F.a F.b)
  | 0x5a => req ((F.f.extractLsb' 2 3 == 0#3) && (F.d == 0#6) && (F.b == 0#6) && (F.x == 0#5)) (.sstep F.g F.a (F.f.extractLsb' 0 2))
  | 0x5b => req ((F.d == 0#6) && (F.f == 0#5) && (F.x == 0#5)) (.migr F.g F.a F.b)
  | 0x5c => req ((F.d == 0#6) && (F.f == 0#5) && (F.x == 0#5)) (.promo F.g F.a F.b)
  | _ => none

/-- The byte HX_j that a header lends to slot j (R237); an ASSAY takes all 24 bits, so that slots 1 and 2 of its bundle
receive none (R238). -/
def lent (p : Pos) (H : BitVec 24) : BitVec 8 :=
  match p with
  | .x => 0#8
  | .s => H.extractLsb' 0 8
  | .v => H.extractLsb' 8 8
  | .e => H.extractLsb' 16 8

/-- The fields of a slot word (R235). -/
def unpack (hdr : Bool) (hx : BitVec 8) (w : BitVec 32) : Fields where
  hdr := hdr
  g := w.extractLsb' 27 4
  op := w.extractLsb' 20 7
  d := hx.extractLsb' 7 1 ++ w.extractLsb' 15 5
  a := hx.extractLsb' 6 1 ++ w.extractLsb' 10 5
  b := hx.extractLsb' 5 1 ++ w.extractLsb' 5 5
  f := w.extractLsb' 0 5
  x := hx.extractLsb' 0 5

/-- ASSAY: digest bits [7:0] in the word and [31:8] from a header (R238, R410); its S bit must be 1. -/
def decodeAssay (H : Option (BitVec 24)) (w : BitVec 32) : Option Instr :=
  if w.extractLsb' 31 1 == 1#1 then
    some (.assay (w.extractLsb' 27 4) (w.extractLsb' 15 5) (w.extractLsb' 14 1) (w.extractLsb' 8 6)
      ((H.getD 0#24) ++ w.extractLsb' 0 8))
  else none

/-- The instruction of a slot in class p: a NOP, a header in position 0, an ASSAY, or what the class's opcodes say
(R233, R236, R239). -/
def decodeClass (p : Pos) (H : Option (BitVec 24)) (w : BitVec 32) : Option Instr :=
  let hx := (H.map (lent p)).getD 0#8
  if w.extractLsb' 0 31 == 0#31 then
    (if hx == 0#8 then some .nop else none)
  else
    let F := unpack H.isSome hx w
    match p with
    | .x => if F.op == 0x7f#7 then
              (if w.extractLsb' 31 1 == 0#1 then some (.hdr (w.extractLsb' 27 4 ++ w.extractLsb' 0 20)) else none)
            else decodeX F
    | .s => decodeS F
    | .v => decodeV F
    | .e => if F.op == 0x3b#7 then decodeAssay H w else decodeE F

/-- One slot word: the instruction and its stop bit; nothing where the bundle traps ILL (R10, R235, R236). -/
def decodeSlot (p : Pos) (H : Option (BitVec 24)) (w : BitVec 32) : Option (Instr × Bool) :=
  match decodeClass p H w with
  | none => none
  | some i => if i.wf then some (i, w.getLsbD 31) else none

/-- A slot of the decoded bundle. -/
structure Slot where
  i : Instr
  stop : Bool
  deriving DecidableEq, Repr, Inhabited

/-- The four slots of a bundle. -/
structure Bundle where
  x : Slot
  s : Slot
  v : Slot
  e : Slot
  deriving DecidableEq, Repr, Inhabited

/-- The instruction is an ASSAY. -/
def Instr.isAssay : Instr → Bool
  | .assay _ _ _ _ _ => true
  | _ => false

/-- The instruction is a NOP. -/
def Instr.isNop : Instr → Bool
  | .nop => true
  | _ => false

/-- The instruction is an ERET. -/
def Instr.isEret : Instr → Bool
  | .eret _ => true
  | _ => false

/-- The whole bundle of 128 bits, slot 0 lowest (R233): nothing where any slot, or the bundle, traps ILL (R239, R249).
An ERET allows only NOP words beside it (R269); with ASSAY in position 3 the header lends its bits to that slot alone (R238). -/
def decodeBundle (b : BitVec 128) : Option Bundle :=
  match decodeSlot .x none (b.extractLsb' 0 32) with
  | none => none
  | some (ix, sx) =>
    let H : Option (BitVec 24) := match ix with
      | .hdr h => some h
      | _ => none
    let we := b.extractLsb' 96 32
    let Hm : Option (BitVec 24) := if we.extractLsb' 20 7 == 0x3b#7 then none else H
    match decodeSlot .s Hm (b.extractLsb' 32 32), decodeSlot .v Hm (b.extractLsb' 64 32), decodeSlot .e H we with
    | some (is, ss), some (iv, sv), some (ie, se) =>
      if ix.isEret && !(is.isNop && iv.isNop && ie.isNop) then none
      else some ⟨⟨ix, sx⟩, ⟨is, ss⟩, ⟨iv, sv⟩, ⟨ie, se⟩⟩
    | _, _, _ => none

/-! ## The encoder -/

/-- Fields of a slot of positions 1 to 3, in a bundle that carries a header. -/
def mk (op : BitVec 7) (g : BitVec 4) (d a b : BitVec 6) (f x : BitVec 5) : Fields := ⟨true, g, op, d, a, b, f, x⟩

/-- Fields of a slot of position 0, which no header reaches (R239). -/
def mkX (op : BitVec 7) (g : BitVec 4) (d a b : BitVec 6) (f x : BitVec 5) : Fields := ⟨false, g, op, d, a, b, f, x⟩

/-- The fields that encode a slot instruction, from the entries' tables; default for rows with no such word. -/
def encodeFields : Instr → Fields
  | .br g off => mkX 0x01#7 g ((off.extractLsb' 15 5).setWidth 6) ((off.extractLsb' 10 5).setWidth 6) ((off.extractLsb' 5 5).setWidth 6) (off.extractLsb' 0 5) 0#5
  | .brl g off => mkX 0x02#7 g ((off.extractLsb' 15 5).setWidth 6) ((off.extractLsb' 10 5).setWidth 6) ((off.extractLsb' 5 5).setWidth 6) (off.extractLsb' 0 5) 0#5
  | .jr g a => mkX 0x03#7 g 0#6 (a.setWidth 6) 0#6 0#5 0#5
  | .jrl g d a => mkX 0x04#7 g (d.setWidth 6) (a.setWidth 6) 0#6 0#5 0#5
  | .loop g lv a dist => mkX 0x10#7 g (lv.setWidth 6) (a.setWidth 6) ((dist.extractLsb' 5 5).setWidth 6) (dist.extractLsb' 0 5) 0#5
  | .loopi g lv n dist => mkX 0x11#7 g (lv.setWidth 6) (((n ++ dist).extractLsb' 10 5).setWidth 6) (((n ++ dist).extractLsb' 5 5).setWidth 6) ((n ++ dist).extractLsb' 0 5) 0#5
  | .lbrk g lv => mkX 0x12#7 g (lv.setWidth 6) 0#6 0#6 0#5 0#5
  | .mtl g k a => mkX 0x13#7 g (k.setWidth 6) (a.setWidth 6) 0#6 0#5 0#5
  | .mfl g d k => mkX 0x14#7 g (d.setWidth 6) (k.setWidth 6) 0#6 0#5 0#5
  | .yield g n => mkX 0x20#7 g (((n.setWidth 20).extractLsb' 15 5).setWidth 6) (((n.setWidth 20).extractLsb' 10 5).setWidth 6) (((n.setWidth 20).extractLsb' 5 5).setWidth 6) ((n.setWidth 20).extractLsb' 0 5) 0#5
  | .seg g a aflag => mkX 0x21#7 g 0#6 (a.setWidth 6) 0#6 (0#4 ++ aflag) 0#5
  | .rdv g twr k => mkX 0x22#7 g 0#6 (((0#6 ++ twr ++ 0#2 ++ k).extractLsb' 10 5).setWidth 6) (((0#6 ++ twr ++ 0#2 ++ k).extractLsb' 5 5).setWidth 6) ((0#6 ++ twr ++ 0#2 ++ k).extractLsb' 0 5) 0#5
  | .trap g code => mkX 0x23#7 g 0#6 (((0#7 ++ code).extractLsb' 10 5).setWidth 6) (((0#7 ++ code).extractLsb' 5 5).setWidth 6) ((0#7 ++ code).extractLsb' 0 5) 0#5
  | .trapb g code a bound => mkX 0x24#7 g (code.setWidth 6) (a.setWidth 6) ((bound.extractLsb' 5 5).setWidth 6) (bound.extractLsb' 0 5) 0#5
  | .eret g => mkX 0x25#7 g 0#6 0#6 0#6 0#5 0#5
  | .exit g => mkX 0x26#7 g 0#6 0#6 0#6 0#5 0#5
  | .pause g => mkX 0x27#7 g 0#6 0#6 0#6 0#5 0#5
  | .xadd g d a b => mkX 0x30#7 g (d.setWidth 6) (a.setWidth 6) (b.setWidth 6) 0#5 0#5
  | .xaddi g d a imm => mkX 0x31#7 g (d.setWidth 6) (a.setWidth 6) ((imm.extractLsb' 5 5).setWidth 6) (imm.extractLsb' 0 5) 0#5
  | .xmovi g d imm => mkX 0x32#7 g (d.setWidth 6) ((imm.extractLsb' 10 5).setWidth 6) ((imm.extractLsb' 5 5).setWidth 6) (imm.extractLsb' 0 5) 0#5
  | .xmovhi g d imm => mkX 0x33#7 g (d.setWidth 6) ((imm.extractLsb' 10 5).setWidth 6) ((imm.extractLsb' 5 5).setWidth 6) (imm.extractLsb' 0 5) 0#5
  | .add g d a b => mk 0x01#7 g d a b 0#5 0#5
  | .sub g d a b => mk 0x02#7 g d a b 0#5 0#5
  | .addi g d a imm => mk 0x03#7 g d a ((imm.extractLsb' 5 5).setWidth 6) (imm.extractLsb' 0 5) (imm.extractLsb' 10 5)
  | .mul g d a b => mk 0x04#7 g d a b 0#5 0#5
  | .mulhs g d a b => mk 0x05#7 g d a b 0#5 0#5
  | .mulhu g d a b => mk 0x06#7 g d a b 0#5 0#5
  | .divs g d a b => mk 0x07#7 g d a b 0#5 0#5
  | .divu g d a b => mk 0x08#7 g d a b 0#5 0#5
  | .rems g d a b => mk 0x09#7 g d a b 0#5 0#5
  | .remu g d a b => mk 0x0a#7 g d a b 0#5 0#5
  | .and g d a b => mk 0x0b#7 g d a b 0#5 0#5
  | .or g d a b => mk 0x0c#7 g d a b 0#5 0#5
  | .xor g d a b => mk 0x0d#7 g d a b 0#5 0#5
  | .andi g d a imm => mk 0x0e#7 g d a ((imm.extractLsb' 5 5).setWidth 6) (imm.extractLsb' 0 5) (imm.extractLsb' 10 5)
  | .ori g d a imm => mk 0x0f#7 g d a ((imm.extractLsb' 5 5).setWidth 6) (imm.extractLsb' 0 5) (imm.extractLsb' 10 5)
  | .xori g d a imm => mk 0x10#7 g d a ((imm.extractLsb' 5 5).setWidth 6) (imm.extractLsb' 0 5) (imm.extractLsb' 10 5)
  | .shl g d a b => mk 0x11#7 g d a b 0#5 0#5
  | .shr g d a b => mk 0x12#7 g d a b 0#5 0#5
  | .sar g d a b => mk 0x13#7 g d a b 0#5 0#5
  | .shli g d a k => mk 0x14#7 g d a (((k.setWidth 15).extractLsb' 5 5).setWidth 6) ((k.setWidth 15).extractLsb' 0 5) ((k.setWidth 15).extractLsb' 10 5)
  | .shri g d a k => mk 0x15#7 g d a (((k.setWidth 15).extractLsb' 5 5).setWidth 6) ((k.setWidth 15).extractLsb' 0 5) ((k.setWidth 15).extractLsb' 10 5)
  | .sari g d a k => mk 0x16#7 g d a (((k.setWidth 15).extractLsb' 5 5).setWidth 6) ((k.setWidth 15).extractLsb' 0 5) ((k.setWidth 15).extractLsb' 10 5)
  | .rotr g d a b => mk 0x17#7 g d a b 0#5 0#5
  | .clz g d a => mk 0x18#7 g d a 0#6 0#5 0#5
  | .ctz g d a => mk 0x19#7 g d a 0#6 0#5 0#5
  | .popc g d a => mk 0x1a#7 g d a 0#6 0#5 0#5
  | .mins g d a b => mk 0x1b#7 g d a b 0#5 0#5
  | .maxs g d a b => mk 0x1c#7 g d a b 0#5 0#5
  | .minu g d a b => mk 0x1d#7 g d a b 0#5 0#5
  | .maxu g d a b => mk 0x1e#7 g d a b 0#5 0#5
  | .abs g d a => mk 0x1f#7 g d a 0#6 0#5 0#5
  | .bfx g d a b x => mk 0x20#7 g d a b (0#4 ++ x) 0#5
  | .bfi g d a b => mk 0x21#7 g d a b 0#5 0#5
  | .mov g d a => mk 0x22#7 g d a 0#6 0#5 0#5
  | .movi g d imm => mk 0x23#7 g d ((imm.extractLsb' 10 5).setWidth 6) ((imm.extractLsb' 5 5).setWidth 6) (imm.extractLsb' 0 5) (imm.extractLsb' 15 5)
  | .movhi g d imm => mk 0x24#7 g d (((imm.setWidth 20).extractLsb' 10 5).setWidth 6) (((imm.setWidth 20).extractLsb' 5 5).setWidth 6) ((imm.setWidth 20).extractLsb' 0 5) ((imm.setWidth 20).extractLsb' 15 5)
  | .sel g d a b p => mk 0x25#7 g d a b (0#1 ++ p) 0#5
  | .cmpeq g d a b => mk 0x30#7 g (d.setWidth 6) a b 0#5 0#5
  | .cmpne g d a b => mk 0x31#7 g (d.setWidth 6) a b 0#5 0#5
  | .cmplt g d a b => mk 0x32#7 g (d.setWidth 6) a b 0#5 0#5
  | .cmple g d a b => mk 0x33#7 g (d.setWidth 6) a b 0#5 0#5
  | .cmpltu g d a b => mk 0x34#7 g (d.setWidth 6) a b 0#5 0#5
  | .cmpleu g d a b => mk 0x35#7 g (d.setWidth 6) a b 0#5 0#5
  | .cmpeqi g d a imm => mk 0x36#7 g (d.setWidth 6) a ((imm.extractLsb' 5 5).setWidth 6) (imm.extractLsb' 0 5) (imm.extractLsb' 10 5)
  | .cmplti g d a imm => mk 0x37#7 g (d.setWidth 6) a ((imm.extractLsb' 5 5).setWidth 6) (imm.extractLsb' 0 5) (imm.extractLsb' 10 5)
  | .pand g d a b => mk 0x38#7 g (d.setWidth 6) (a.setWidth 6) (b.setWidth 6) 0#5 0#5
  | .por g d a b => mk 0x39#7 g (d.setWidth 6) (a.setWidth 6) (b.setWidth 6) 0#5 0#5
  | .pxor g d a b => mk 0x3a#7 g (d.setWidth 6) (a.setWidth 6) (b.setWidth 6) 0#5 0#5
  | .pnot g d a => mk 0x3b#7 g (d.setWidth 6) (a.setWidth 6) 0#6 0#5 0#5
  | .pmov g d a => mk 0x3c#7 g (d.setWidth 6) a 0#6 0#5 0#5
  | .mfp g d a => mk 0x3d#7 g d (a.setWidth 6) 0#6 0#5 0#5
  | .ldb g d a imm => mk 0x40#7 g d a ((imm.extractLsb' 5 5).setWidth 6) (imm.extractLsb' 0 5) (imm.extractLsb' 10 5)
  | .ldbu g d a imm => mk 0x41#7 g d a ((imm.extractLsb' 5 5).setWidth 6) (imm.extractLsb' 0 5) (imm.extractLsb' 10 5)
  | .ldh g d a imm => mk 0x42#7 g d a ((imm.extractLsb' 5 5).setWidth 6) (imm.extractLsb' 0 5) (imm.extractLsb' 10 5)
  | .ldhu g d a imm => mk 0x43#7 g d a ((imm.extractLsb' 5 5).setWidth 6) (imm.extractLsb' 0 5) (imm.extractLsb' 10 5)
  | .ldw g d a imm => mk 0x44#7 g d a ((imm.extractLsb' 5 5).setWidth 6) (imm.extractLsb' 0 5) (imm.extractLsb' 10 5)
  | .ldwu g d a imm => mk 0x45#7 g d a ((imm.extractLsb' 5 5).setWidth 6) (imm.extractLsb' 0 5) (imm.extractLsb' 10 5)
  | .ldd g d a imm => mk 0x46#7 g d a ((imm.extractLsb' 5 5).setWidth 6) (imm.extractLsb' 0 5) (imm.extractLsb' 10 5)
  | .ldq g d a imm => mk 0x47#7 g d a ((imm.extractLsb' 5 5).setWidth 6) (imm.extractLsb' 0 5) (imm.extractLsb' 10 5)
  | .stb g d a imm => mk 0x48#7 g d a ((imm.extractLsb' 5 5).setWidth 6) (imm.extractLsb' 0 5) (imm.extractLsb' 10 5)
  | .sth g d a imm => mk 0x49#7 g d a ((imm.extractLsb' 5 5).setWidth 6) (imm.extractLsb' 0 5) (imm.extractLsb' 10 5)
  | .stw g d a imm => mk 0x4a#7 g d a ((imm.extractLsb' 5 5).setWidth 6) (imm.extractLsb' 0 5) (imm.extractLsb' 10 5)
  | .std g d a imm => mk 0x4b#7 g d a ((imm.extractLsb' 5 5).setWidth 6) (imm.extractLsb' 0 5) (imm.extractLsb' 10 5)
  | .stq g d a imm => mk 0x4c#7 g d a ((imm.extractLsb' 5 5).setWidth 6) (imm.extractLsb' 0 5) (imm.extractLsb' 10 5)
  | .pft g h a imm => mk 0x4d#7 g (h.setWidth 6) a ((imm.extractLsb' 5 5).setWidth 6) (imm.extractLsb' 0 5) (imm.extractLsb' 10 5)
  | .aadd g a b w => mk 0x60#7 g 0#6 a b (0#4 ++ w) 0#5
  | .amin g a b w => mk 0x61#7 g 0#6 a b (0#4 ++ w) 0#5
  | .amax g a b w => mk 0x62#7 g 0#6 a b (0#4 ++ w) 0#5
  | .aminu g a b w => mk 0x63#7 g 0#6 a b (0#4 ++ w) 0#5
  | .amaxu g a b w => mk 0x64#7 g 0#6 a b (0#4 ++ w) 0#5
  | .aand g a b w => mk 0x65#7 g 0#6 a b (0#4 ++ w) 0#5
  | .aor g a b w => mk 0x66#7 g 0#6 a b (0#4 ++ w) 0#5
  | .axor g a b w => mk 0x67#7 g 0#6 a b (0#4 ++ w) 0#5
  | .axchg g a b w => mk 0x68#7 g 0#6 a b (0#4 ++ w) 0#5
  | .acas g d a b w => mk 0x69#7 g d a b (0#4 ++ w) 0#5
  | .radd g a b w => mk 0x6a#7 g 0#6 a b (0#4 ++ w) 0#5
  | .rmin g a b u w => mk 0x6b#7 g 0#6 a b (0#3 ++ u ++ w) 0#5
  | .rmax g a b u w => mk 0x6c#7 g 0#6 a b (0#3 ++ u ++ w) 0#5
  | .rand g a b w => mk 0x6d#7 g 0#6 a b (0#4 ++ w) 0#5
  | .ror g a b w => mk 0x6e#7 g 0#6 a b (0#4 ++ w) 0#5
  | .rxor g a b w => mk 0x6f#7 g 0#6 a b (0#4 ++ w) 0#5
  | .popq g d => mk 0x70#7 g d 0#6 0#6 0#5 0#5
  | .rfadd g a b => mk 0x71#7 g 0#6 a b 0#5 0#5
  | .drain g sc fl => mk 0x72#7 g 0#6 0#6 0#6 (sc ++ fl) 0#5
  | .waita g a b w c => mk 0x73#7 g 0#6 a b (0#2 ++ w ++ c) 0#5
  | .mtg g a i => mk 0x78#7 g 0#6 a (((i.setWidth 15).extractLsb' 5 5).setWidth 6) ((i.setWidth 15).extractLsb' 0 5) ((i.setWidth 15).extractLsb' 10 5)
  | .mfg g d i => mk 0x79#7 g d 0#6 (((i.setWidth 15).extractLsb' 5 5).setWidth 6) ((i.setWidth 15).extractLsb' 0 5) ((i.setWidth 15).extractLsb' 10 5)
  | .mfsr g d n => mk 0x7a#7 g d 0#6 (((n.setWidth 15).extractLsb' 5 5).setWidth 6) ((n.setWidth 15).extractLsb' 0 5) ((n.setWidth 15).extractLsb' 10 5)
  | .vadd g d a b m w => mk 0x01#7 g d a b (0#1 ++ m ++ w) 0#5
  | .vsub g d a b m w => mk 0x02#7 g d a b (0#1 ++ m ++ w) 0#5
  | .vmul g d a b w => mk 0x03#7 g d a b (0#3 ++ w) 0#5
  | .vmulh g d a b u w => mk 0x04#7 g d a b (0#2 ++ u ++ w) 0#5
  | .vmac g d a b w => mk 0x05#7 g d a b (0#3 ++ w) 0#5
  | .vmins g d a b w => mk 0x06#7 g d a b (0#3 ++ w) 0#5
  | .vmaxs g d a b w => mk 0x07#7 g d a b (0#3 ++ w) 0#5
  | .vminu g d a b w => mk 0x08#7 g d a b (0#3 ++ w) 0#5
  | .vmaxu g d a b w => mk 0x09#7 g d a b (0#3 ++ w) 0#5
  | .vabs g d a w => mk 0x0a#7 g d a 0#6 (0#3 ++ w) 0#5
  | .vand g d a b => mk 0x0b#7 g d a b 0#5 0#5
  | .vor g d a b => mk 0x0c#7 g d a b 0#5 0#5
  | .vxor g d a b => mk 0x0d#7 g d a b 0#5 0#5
  | .vshl g d a b w => mk 0x0e#7 g d a b (0#3 ++ w) 0#5
  | .vshr g d a b w => mk 0x0f#7 g d a b (0#3 ++ w) 0#5
  | .vsar g d a b w => mk 0x10#7 g d a b (0#3 ++ w) 0#5
  | .vfshl g d a b k => mk 0x11#7 g d a b k 0#5
  | .vfshr g d a b k => mk 0x12#7 g d a b k 0#5
  | .vrot g d a b w => mk 0x13#7 g d a b (0#3 ++ w) 0#5
  | .vpopc g d a w => mk 0x14#7 g d a 0#6 (0#3 ++ w) 0#5
  | .vclz g d a w => mk 0x15#7 g d a 0#6 (0#3 ++ w) 0#5
  | .vshi g d a k w n => mk 0x16#7 g d a ((0#1 ++ k ++ w).setWidth 6) n 0#5
  | .vbcst g d a w => mk 0x17#7 g d a 0#6 (0#3 ++ w) 0#5
  | .vtern g d a b t => mk (0x3#4 ++ t.extractLsb' 5 3) g d a b (t.extractLsb' 0 5) 0#5
  | .vfadd g d a b r e => mk 0x20#7 g d a b (0#3 ++ r ++ e) 0#5
  | .vfsub g d a b r e => mk 0x21#7 g d a b (0#3 ++ r ++ e) 0#5
  | .vfmul g d a b r e => mk 0x22#7 g d a b (0#3 ++ r ++ e) 0#5
  | .vfma g d a b r e => mk 0x23#7 g d a b (0#3 ++ r ++ e) 0#5
  | .vfmax g d a b e => mk 0x24#7 g d a b (0#4 ++ e) 0#5
  | .vfmin g d a b e => mk 0x25#7 g d a b (0#4 ++ e) 0#5
  | .vexp2 g d a => mk 0x26#7 g d a 0#6 0#5 0#5
  | .vrcp g d a => mk 0x27#7 g d a 0#6 0#5 0#5
  | .vrsq g d a => mk 0x28#7 g d a 0#6 0#5 0#5
  | .vfcmp g d a b c => mk 0x29#7 g (d.setWidth 6) a b (0#1 ++ c ++ 0#1) 0#5
  | .vcvt g d a r c x p => mk 0x2a#7 g d a ((r ++ c).setWidth 6) (0#1 ++ x ++ p) 0#5
  | .vcvts g d a c x p => mk 0x2b#7 g d a ((0#1 ++ c).setWidth 6) (0#1 ++ x ++ p) 0#5
  | .vmxq g d a b q m e => mk 0x2c#7 g d a b (q ++ m ++ e) 0#5
  | .vmxd g d a b q e => mk 0x2d#7 g d a b (q ++ 0#1 ++ e) 0#5
  | .vperm g d a b => mk 0x40#7 g d a b 0#5 0#5
  | .vslide g d a b k => mk 0x41#7 g d a b k 0#5
  | .vradd g d a => mk 0x42#7 g d a 0#6 0#5 0#5
  | .vrmax g d a u => mk 0x43#7 g d a 0#6 (0#4 ++ u) 0#5
  | .vrfadd g d a => mk 0x44#7 g d a 0#6 0#5 0#5
  | .vrfmax g d a => mk 0x45#7 g d a 0#6 0#5 0#5
  | .vsel g d a b p => mk 0x46#7 g d a b (0#1 ++ p) 0#5
  | .vmov g d a => mk 0x47#7 g d a 0#6 0#5 0#5
  | .vext g d a k => mk 0x48#7 g d a 0#6 k 0#5
  | .vins g d a k => mk 0x49#7 g d a 0#6 k 0#5
  | .vcmp g d a b c w => mk 0x4a#7 g (d.setWidth 6) a b (c ++ w) 0#5
  | .vmcnt g d a => mk 0x4b#7 g d a 0#6 0#5 0#5
  | .vmfst g d a => mk 0x4c#7 g d a 0#6 0#5 0#5
  | .vld g d a imm => mk 0x50#7 g d a ((imm.extractLsb' 5 5).setWidth 6) (imm.extractLsb' 0 5) (imm.extractLsb' 10 5)
  | .vst g d a imm => mk 0x51#7 g d a ((imm.extractLsb' 5 5).setWidth 6) (imm.extractLsb' 0 5) (imm.extractLsb' 10 5)
  | .vlds g d a b => mk 0x52#7 g d a b 0#5 0#5
  | .vsts g d a b => mk 0x53#7 g d a b 0#5 0#5
  | .vldx g d a b c => mk 0x54#7 g d a b (0#3 ++ c) 0#5
  | .vstx g d a b c => mk 0x55#7 g d a b (0#3 ++ c) 0#5
  | .vldb g d a imm => mk 0x56#7 g d a ((imm.extractLsb' 5 5).setWidth 6) (imm.extractLsb' 0 5) (imm.extractLsb' 10 5)
  | .mma g d z => mk 0x60#7 g (d.setWidth 6) 0#6 0#6 (0#4 ++ z) 0#5
  | .mmag g d z => mk 0x61#7 g (d.setWidth 6) 0#6 0#6 (0#4 ++ z) 0#5
  | .zclr g d x y => mk 0x62#7 g (d.setWidth 6) 0#6 0#6 (0#3 ++ x ++ y) 0#5
  | .zld g d a b x y => mk 0x63#7 g (d.setWidth 6) a b (0#3 ++ x ++ y) 0#5
  | .zst g d a b x y => mk 0x64#7 g (d.setWidth 6) a b (0#3 ++ x ++ y) 0#5
  | .osm g d a => mk 0x65#7 g (d.setWidth 6) (a.setWidth 6) 0#6 0#5 0#5
  | .osmf g d => mk 0x66#7 g (d.setWidth 6) 0#6 0#6 0#5 0#5
  | .rbkt g d a m => mk 0x67#7 g d a 0#6 (0#4 ++ m) 0#5
  | .rbias g d a b k => mk 0x68#7 g d a b k 0#5
  | .cpy g => mk 0x01#7 g 0#6 0#6 0#6 0#5 0#5
  | .cpy2 g => mk 0x02#7 g 0#6 0#6 0#6 0#5 0#5
  | .cpyg g => mk 0x03#7 g 0#6 0#6 0#6 0#5 0#5
  | .cpyf g => mk 0x04#7 g 0#6 0#6 0#6 0#5 0#5
  | .fmap g a q => mk 0x10#7 g 0#6 a 0#6 q 0#5
  | .fmapRel g a q => mk 0x10#7 g 0#6 a 1#6 q 0#5
  | .fmode g a m h q => mk 0x11#7 g 0#6 a ((0#3 ++ m ++ h).setWidth 6) q 0#5
  | .fload g d a t h q => mk 0x12#7 g d a ((0#3 ++ t ++ h).setWidth 6) q 0#5
  | .fswap g a q => mk 0x13#7 g 0#6 a 0#6 q 0#5
  | .fgo g => mk 0x14#7 g 0#6 0#6 0#6 0#5 0#5
  | .fstat g d a q => mk 0x15#7 g d a 0#6 q 0#5
  | .fremap g a => mk 0x16#7 g 0#6 a 0#6 0#5 0#5
  | .sqnew g a => mk 0x20#7 g 0#6 a 0#6 0#5 0#5
  | .sqnewReg g a b => mk 0x20#7 g 0#6 a b 1#5 0#5
  | .sqrsv g a b => mk 0x21#7 g 0#6 a b 0#5 0#5
  | .sqcmt g d a b c => mk 0x22#7 g d a b (0#2 ++ c) 0#5
  | .sqabn g d a b => mk 0x23#7 g d a b 0#5 0#5
  | .sqfork g d a b => mk 0x24#7 g d a b 0#5 0#5
  | .sqdrop g a => mk 0x25#7 g 0#6 a 0#6 0#5 0#5
  | .sqlen g a => mk 0x26#7 g 0#6 a 0#6 0#5 0#5
  | .sqpos g d a b x w => mk 0x27#7 g d a b (0#3 ++ x ++ w) 0#5
  | .sqsplc g d a b => mk 0x28#7 g d a b 0#5 0#5
  | .rprchk g a => mk 0x29#7 g 0#6 a 0#6 0#5 0#5
  | .rprins g a => mk 0x2a#7 g 0#6 a 0#6 0#5 0#5
  | .rprstat g a c => mk 0x2b#7 g 0#6 a 0#6 (0#4 ++ c) 0#5
  | .cred g r => mk 0x30#7 g 0#6 0#6 0#6 (0#4 ++ r) 0#5
  | .cbcst g => mk 0x31#7 g 0#6 0#6 0#6 0#5 0#5
  | .cagth g => mk 0x32#7 g 0#6 0#6 0#6 0#5 0#5
  | .ca2a g => mk 0x33#7 g 0#6 0#6 0#6 0#5 0#5
  | .rbseed g a b => mk 0x38#7 g 0#6 a b 0#5 0#5
  | .rbctr g a b => mk 0x39#7 g 0#6 a b 0#5 0#5
  | .rbrd g d => mk 0x3a#7 g d 0#6 0#6 0#5 0#5
  | .bara g twr k => mk 0x40#7 g 0#6 (((0#11 ++ twr ++ 0#2 ++ k).extractLsb' 10 5).setWidth 6) (((0#11 ++ twr ++ 0#2 ++ k).extractLsb' 5 5).setWidth 6) ((0#11 ++ twr ++ 0#2 ++ k).extractLsb' 0 5) ((0#11 ++ twr ++ 0#2 ++ k).extractLsb' 15 5)
  | .barw g twr k => mk 0x41#7 g 0#6 (((0#11 ++ twr ++ 0#2 ++ k).extractLsb' 10 5).setWidth 6) (((0#11 ++ twr ++ 0#2 ++ k).extractLsb' 5 5).setWidth 6) ((0#11 ++ twr ++ 0#2 ++ k).extractLsb' 0 5) ((0#11 ++ twr ++ 0#2 ++ k).extractLsb' 15 5)
  | .bacq g a p m => mk 0x42#7 g 0#6 a (((p ++ m).extractLsb' 5 5).setWidth 6) ((p ++ m).extractLsb' 0 5) 0#5
  | .brel g a p m => mk 0x43#7 g 0#6 a (((p ++ m).extractLsb' 5 5).setWidth 6) ((p ++ m).extractLsb' 0 5) 0#5
  | .plaunch g a => mk 0x44#7 g 0#6 a 0#6 0#5 0#5
  | .chenq g a c => mk 0x45#7 g 0#6 a 0#6 c 0#5
  | .chdeq g a c => mk 0x46#7 g 0#6 a 0#6 c 0#5
  | .csrr g d n => mk 0x50#7 g d 0#6 ((n.extractLsb' 5 5).setWidth 6) (n.extractLsb' 0 5) (n.extractLsb' 10 5)
  | .csrw g a n => mk 0x51#7 g 0#6 a ((n.extractLsb' 5 5).setWidth 6) (n.extractLsb' 0 5) (n.extractLsb' 10 5)
  | .tlbi g a x => mk 0x52#7 g 0#6 a 0#6 (0#4 ++ x) 0#5
  | .tlbsync g => mk 0x53#7 g 0#6 0#6 0#6 0#5 0#5
  | .dcfl g a => mk 0x54#7 g 0#6 a 0#6 0#5 0#5
  | .dcinv g a => mk 0x55#7 g 0#6 a 0#6 0#5 0#5
  | .l2fl g a => mk 0x56#7 g 0#6 a 0#6 0#5 0#5
  | .mscfl g a => mk 0x57#7 g 0#6 a 0#6 0#5 0#5
  | .ctxsv g a b => mk 0x58#7 g 0#6 a b 0#5 0#5
  | .ctxld g a b => mk 0x59#7 g 0#6 a b 0#5 0#5
  | .sstep g a m => mk 0x5a#7 g 0#6 a 0#6 (0#3 ++ m) 0#5
  | .migr g a b => mk 0x5b#7 g 0#6 a b 0#5 0#5
  | .promo g a b => mk 0x5c#7 g 0#6 a b 0#5 0#5
  | .nop => default
  | .hdr _ => default
  | .assay _ _ _ _ _ => default
  | .nmuOperationComplete => default
  | .gangStart => default
  | .copyCommandStart => default
  | .copyCommandComplete => default
  | .engineCommandFault => default
  | .fmapArrival => default
  | .fmodePerform => default
  | .fswapPerform => default
  | .plotReleasePerform => default
  | .reloadStart => default
  | .reloadFault => default
  | .reloadComplete => default
  | .nestStart => default
  | .nestStep => default
  | .collectorApply => default
  | .nestComplete => default
  | .storageViewArrival => default
  | .rowCheck => default
  | .rowRefetchComplete => default
  | .ptcInvalidation => default
  | .collectiveArrival => default
  | .collectiveComplete => default
  | .assayOutcome => default
  | .barrierArrival => default
  | .bankAcquireEffect => default
  | .bankReleaseEffect => default
  | .manifestRead => default
  | .channelEntryAvailable => default
  | .tableWalk => default
  | .remoteLoadLanding => default
  | .remoteAccessPerform => default
  | .invalidationApply => default
  | .inboundInvalidationReceive => default
  | .inboundInvalidationApply => default
  | .alqValueArrival => default
  | .alqFaultCapture => default
  | .monitorReread => default
  | .monitorTimeoutRead => default
  | .forcedYield => default
  | .strandRankAging => default
  | .trapEntry => default
  | .dispatcherTick => default
  | .taskImageArrival => default
  | .shadowBankSwap => default
  | .swapEnd => default
  | .spillComplete => default
  | .reinstatementComplete => default
  | .pipelineDone => default
  | .pipelineKill => default
  | .dspholdRelease => default
  | .barrierTargetWrite => default
  | .bheldWrite => default
  | .bholdWrite => default
  | .hcommitGo => default
  | .hashCommitComplete => default
  | .rtrctlEnable => default
  | .rtrctlDisable => default
  | .redirectActive => default
  | .redirectReleased => default
  | .quarantineClear => default
  | .plotOwnedRelease => default
  | .msigenWrite => default
  | .msixUnmask => default
  | .attestCert => default
  | .attestReport => default
  | .attestComplete => default
  | .registerWrite => default
  | .hostPostedWrite => default
  | .hostRead => default
  | .atsTranslationCompletion => default
  | .atsInvalidationRequest => default
  | .pageRequestReply => default
  | .pageRequestTimeout => default
  | .scrubVisit => default
  | .thermalForecastUpdate => default
  | .slayerFlushComplete => default
  | .slayerCutoff => default
  | .towerFence => default
  | .droopStretch => default
  | .currentPeakStretch => default
  | .powerControlUpdate => default
  | .moduleReset => default
  | .portReset => default
  | .selfHeatingTimeout => default
  | .alctlEnable => default
  | .alctlDisable => default
  | .linkUp => default
  | .linkDown => default
  | .linkFlitReceive => default
  | .sequenceUnitOperation => default
  | .vslBelowRetention => default
  | .railDroopEnd => default
  | .selfHeatingComplete => default

/-- The slot word of fields, with stop bit S, and the byte HX that its header must lend (R235, R237). -/
def pack (stop : Bool) (F : Fields) : BitVec 32 × BitVec 8 :=
  (BitVec.ofBool stop ++ F.g ++ F.op ++ F.d.setWidth 5 ++ F.a.setWidth 5 ++ F.b.setWidth 5 ++ F.f,
   F.d.extractLsb' 5 1 ++ F.a.extractLsb' 5 1 ++ F.b.extractLsb' 5 1 ++ F.x)

/-- The header value that lends hx to position p alone (R237). -/
def lend (p : Pos) (hx : BitVec 8) : Option (BitVec 24) :=
  match p with
  | .x => none
  | .s => some (0#8 ++ 0#8 ++ hx)
  | .v => some (0#8 ++ hx ++ 0#8)
  | .e => some (hx ++ 0#8 ++ 0#8)

/-- The word and the header of an instruction in position p. -/
def encode (p : Pos) (stop : Bool) (i : Instr) : Option (BitVec 24) × BitVec 32 :=
  match i with
  | .nop => (none, BitVec.ofBool stop ++ 0#31)
  | .hdr h => (none, 0#1 ++ h.extractLsb' 20 4 ++ 0x7f#7 ++ h.extractLsb' 0 20)
  | .assay g q nmu seed dig =>
    (some (dig.extractLsb' 8 24), 1#1 ++ g ++ 0x3b#7 ++ q ++ nmu ++ seed ++ dig.extractLsb' 0 8)
  | i =>
    let e := pack stop (encodeFields i)
    (lend p e.2, e.1)

/-- The class in which the table's word is tried, in this order: S, V, E, X (log 9). -/
def decodeTableClass (w : BitVec 32) : Option (Pos × Instr) :=
  match decodeSlot .s none w, decodeSlot .v none w, decodeSlot .e none w, decodeSlot .x none w with
  | some (i, _), _, _, _ => some (.s, i)
  | none, some (i, _), _, _ => some (.v, i)
  | none, none, some (i, _), _ => some (.e, i)
  | none, none, none, some (i, _) => some (.x, i)
  | none, none, none, none => none

/-- The instruction read from a slot word numbered as spec/opcode_table.json numbers it: a slot is one 32-bit word, and the
same word names an instruction in each class, of which the first that takes it is answered (log 9). -/
def decodeTableWord (_nbits w : Nat) : Option Instr :=
  (decodeTableClass (BitVec.ofNat 32 w)).map (·.2)

end Sys2Proof
end

