-- ==== Sys2Proof/Machine/Sparse.lean ====
section
/-! DEFINITION. Sparse tables over Nat keys in one canonical form: keys strictly rising, no entry equal to its default.
Memory and the registers of the MMIO and CSR window are held so. -/

namespace Sys2Proof.Machine

/-- What the table holds at k; an unlisted key holds its default d k. -/
def sparseGet {α : Type} (d : Nat → α) : List (Nat × α) → Nat → α
  | [], k => d k
  | (a, x) :: t, k => if k = a then x else sparseGet d t k

/-- The table with x at k, kept canonical: a default value is not listed. -/
def sparseSet {α : Type} [DecidableEq α] (d : Nat → α) : List (Nat × α) → Nat → α → List (Nat × α)
  | [], k, x => if x = d k then [] else [(k, x)]
  | (a, y) :: t, k, x =>
    if k < a then (if x = d k then (a, y) :: sparseSet d t k x else (k, x) :: (a, y) :: t)
    else if k = a then (if x = d k then sparseSet d t k x else (k, x) :: t)
    else (a, y) :: sparseSet d t k x

/-- Keys rise strictly from lo on, and no entry equals its default. -/
def sparseWfFrom {α : Type} [DecidableEq α] (d : Nat → α) : Nat → List (Nat × α) → Bool
  | _, [] => true
  | lo, (a, x) :: t => decide (lo ≤ a) && decide (x ≠ d a) && sparseWfFrom d (a + 1) t

/-- The canonical form. -/
def sparseWf {α : Type} [DecidableEq α] (d : Nat → α) (l : List (Nat × α)) : Bool := sparseWfFrom d 0 l

/-- A record looked up by its key in a plain list of numbered records. -/
def findKey {α : Type} : List (Nat × α) → Nat → Option α
  | [], _ => none
  | (a, x) :: t, k => if a = k then some x else findKey t k

/-- The list without key k. -/
def eraseKey {α : Type} : List (Nat × α) → Nat → List (Nat × α)
  | [], _ => []
  | (a, x) :: t, k => if a = k then eraseKey t k else (a, x) :: eraseKey t k

/-- The list with x at key k, keys rising. -/
def putKey {α : Type} : List (Nat × α) → Nat → α → List (Nat × α)
  | [], k, x => [(k, x)]
  | (a, y) :: t, k, x => if k < a then (k, x) :: (a, y) :: t else if k = a then (k, x) :: t else (a, y) :: putKey t k x

/-- A sorted set of numbers with n in it. -/
def setIns : List Nat → Nat → List Nat
  | [], n => [n]
  | a :: t, n => if n < a then n :: a :: t else if n = a then a :: t else a :: setIns t n

/-- A sorted set of numbers without n. -/
def setDel : List Nat → Nat → List Nat
  | [], _ => []
  | a :: t, n => if n = a then setDel t n else a :: setDel t n

/-- Membership in a set of numbers. -/
def setHas : List Nat → Nat → Bool
  | [], _ => false
  | a :: t, n => n == a || setHas t n

end Sys2Proof.Machine
end

