-- ==== Sys2Proof/Machine/State.lean ====
section
/-! DEFINITION. The state of the module as plain data, the reasons a step can stop, and the state after reset. -/

namespace Sys2Proof.Machine

/-- Why the machine stops for good. -/
inductive Fault where
  /-- Raised by step alone: bring-up failed and the module stays at its stage, with only the BARs served (R429).
  Safe: nothing runs after it. -/
  | bringUpStopped
  deriving DecidableEq, Repr

/-- Why an instruction has no meaning here. -/
inductive Refusal where
  /-- Raised by an arm of exec whose instruction is not modelled yet. Safe: the model stops. -/
  | notModelled (mnemonic : String)
  deriving DecidableEq, Repr

/-- Memory as a canonical list of cells over locations (Ops.lean gives the location of an address). -/
abbrev Memory := List Host.Cell

/-- One event: its row, and what names it (Syntax.lean says which field means what for each row). -/
structure Ev where
  i : Instr
  x : Nat := 0
  y : Nat := 0
  z : Nat := 0
  v : Word := 0#64
  w : Word := 0#64
  bytes : List Byte := []
  /-- The page request that it sleeps on, and the answer to it (R98). -/
  asks : Word := 0#64
  /-- One more than the number of the context whose register write it finishes, or 0 (R53). -/
  by' : Nat := 0
  deriving DecidableEq, Repr, Inhabited

/-! ## A strand and its context -/

/-- One part of an instruction's result: a scalar, the masked bits of a vector or predicate, a staging or a loop register
(R243, R247, R260). -/
inductive Write where
  | s (d : BitVec 6) (x : Word)
  | v (d : BitVec 6) (x m : Vec)
  | p (d : BitVec 4) (x m : BitVec 32)
  | g (i : BitVec 6) (x : Word)
  | l (k : BitVec 4) (x : Word)
  deriving DecidableEq, Repr, Inhabited

/-- A register as the group rules name it (R241): loop registers by the index of Table 11-2. -/
inductive Reg where
  | s (n : BitVec 6)
  | v (n : BitVec 6)
  | p (n : BitVec 4)
  | l (k : BitVec 4)
  | z (n : BitVec 2)
  | g (i : BitVec 6)
  deriving DecidableEq, Repr, Inhabited

/-- A fixed-latency result that has not landed (R243): left counts the bundles that still see the old value; the operands,
guard mask and random word are those captured at issue (R196, R197). -/
structure Pend where
  left : Nat
  /-- %bc of the bundle that issued it. -/
  bc : Word
  pos : Pos
  i : Instr
  ws : List Write
  a : Vec := 0#1024
  b : Vec := 0#1024
  c : Vec := 0#1024
  gm : BitVec 32 := 0#32
  rbw : Word := 0#64
  /-- A result supplied whole (KIND 3), not to be computed again (R196, R202). -/
  supplied : Bool := false
  /-- Its frame entry holds the result itself: a result of latency 1 is held only behind an earlier one of its register (R243, R254). -/
  value : Bool := false
  deriving DecidableEq, Repr, Inhabited

/-- A remote load, store or reduction that has issued and not performed (R114, R197, R198). -/
structure Access where
  id : Nat
  /-- %bc of the bundle that issued it. -/
  bc : Word
  pos : Pos
  i : Instr
  /-- Module-wide core number at issue: the meaning of own windows (R38, R54). -/
  core : Nat
  /-- Issued at supervisor level. -/
  sup : Bool
  gm : BitVec 32
  /-- The effective address, or one address for each lane (R196). -/
  addrs : List Word
  /-- Store data, or for RBIAS vd as read at issue. -/
  data : Vec := 0#1024
  /-- What its local lanes read at issue (R113, R325). -/
  pre : Vec := 0#1024
  /-- Issued in an earlier group: the group interlock waits for it (R242). -/
  old : Bool := false
  /-- It faulted at the address efa and waits for its completion trap (R191). -/
  flt : Bool := false
  efa : Word := 0#64
  /-- It waits for a page request (R98). -/
  sleep : Bool := false
  /-- The data it met were poisoned (R139). -/
  poi : Bool := false
  /-- It performs only after the strand's accesses of this identity and below: a marker among held stores (R127, R145). -/
  fence : Nat := 0
  /-- Those of this identity and below it does not wait for: what its trap handler issued lies above (R128). -/
  floor : Nat := 0
  /-- Its parts that have not performed, by number (R117), and what the others have read, laid at their byte offsets. -/
  left : List Nat := [0]
  got : Nat := 0
  deriving DecidableEq, Repr, Inhabited

/-- A reserved entry of the ALQ (R120, R199, R286, R380). -/
structure AlqEntry where
  /-- Identity of the operation that fills it. -/
  id : Nat := 0
  valid : Bool := false
  poisoned : Bool := false
  faulted : Bool := false
  /-- The line read failed its CRC and is not poisoned (R137). -/
  crc : Bool := false
  /-- Its atomic has performed in the core's own L1, and the value is on its way (R120). -/
  own : Bool := false
  value : Word := 0#64
  /-- Slot position and instruction of the producer. -/
  pos : Pos := .e
  i : Instr := .nop
  opa : Word := 0#64
  opb : Word := 0#64
  opc : Word := 0#64
  stg : List Word := []
  deriving DecidableEq, Repr, Inhabited

/-- The arrival record of BARA (R294, Table 8-9). -/
structure BarRec where
  /-- Identity of the arrival that fills it. -/
  id : Nat := 0
  waiting : Bool := false
  recorded : Bool := false
  known : Bool := false
  twr : Bool := false
  idx : BitVec 8 := 0#8
  phase : BitVec 8 := 0#8
  deriving DecidableEq, Repr, Inhabited

/-- The kinds of trap (Table 8-1). -/
inductive TrapKind where
  | issue | after | completion | alq | async
  deriving DecidableEq, Repr, Inhabited

/-- What the frame records of a trap (Tables 8-3, 8-4). -/
structure Trap where
  kind : TrapKind
  cause : BitVec 8
  slot : BitVec 2 := 0#2
  faddr : Word := 0#64
  finfo : Word := 0#64
  eng : Bool := false
  eidx : BitVec 4 := 0#4
  skip : Bool := false
  /-- Identity of the access of a completion trap. -/
  acc : Nat := 0
  deriving DecidableEq, Repr, Inhabited

/-- The state that a context image carries (R205, Tables 8-8 and 8-9). -/
structure Regs where
  s : Vector Word 64
  v : Vector Vec 64
  p : Vector (BitVec 32) 16
  /-- lc0–lc3, ls0–ls3, le0–le3 by the index of Table 11-2, lc zero-extended (R257). -/
  l : Vector Word 12
  /-- Active bits of the four loop levels (R257). -/
  lact : BitVec 4
  /-- Staging registers by the index of Table 10-8. -/
  g : Vector Word 64
  pc : Word
  bc : Word
  /-- True at supervisor level. -/
  sup : Bool
  /-- Trap depth 1 (R193). -/
  deep : Bool
  tfb : Word
  spl : Word
  tag : BitVec 8
  ssm : Bool
  ssq : Bool
  pfn : BitVec 4
  rbKey : Word
  rbCtr : BitVec 128
  rbQueue : List (BitVec 32)
  rbRot : BitVec 5
  alq : List AlqEntry
  alqh : BitVec 4
  pend : List Pend
  barw : BarRec
  /-- Stage id, instance and remaining run (DISP, Table 8-9). -/
  stage : BitVec 6
  inst : BitVec 10
  run : BitVec 32
  deriving DecidableEq, Repr

/-- A copy, collective or channel command of a context's engine queue (R208, R301, R399, R406). -/
structure Cmd where
  id : Nat
  i : Instr
  /-- The eight staging words as captured (R400, R406); for a channel transfer those of the CPY that it is. -/
  w : List Word
  /-- Context and core that issued it. -/
  x : Nat
  core : Nat
  sup : Bool
  /-- %bc of the bundle that issued it. -/
  bc : Word := 0#64
  /-- Scoreboard entries held, reads then writes. -/
  sbs : List Nat := []
  /-- Forked in an open segment: its seal is withheld until the close (R144). -/
  seg : Bool := false
  running : Bool := false
  /-- Joined its collective instance (R405). -/
  joined : Bool := false
  /-- The payload is complete and only the seal is left (R403). -/
  sealOnly : Bool := false
  /-- Stopped by a fault; ended by ENGINE (R209). -/
  faulted : Bool := false
  ended : Bool := false
  /-- Bytes completed, in 256 B steps (R209). -/
  prog : Nat := 0
  /-- Remote lines written, whose cached copies its seal covers (R123). -/
  wrote : List Nat := []
  /-- The lines of its seal, which is written and has still to perform at its scope (R399). -/
  sealed : Option (List Nat) := none
  /-- Rows of CPYG whose index has been read, with it (R402). -/
  idx : List (Nat × Nat) := []
  /-- Tower and slot of the pipeline, channel and entry of a channel transfer (R301). -/
  twr : Nat := 0
  pid : Nat := 0
  ch : Nat := 0
  entry : Nat := 0
  slot : BitVec 4 := 0#4
  deriving DecidableEq, Repr, Inhabited

/-- An assay whose outcome has not arrived (R410 to R412): the sector index of its plot, or 32 for the NMU. -/
structure Assay where
  id : Nat
  q : Nat
  seed : Nat
  dig : BitVec 32
  /-- Issued in an open segment. -/
  seg : Bool
  deriving DecidableEq, Repr, Inhabited

/-- A loop nest (R341 to R346). -/
structure Nest where
  id : Nat
  x : Nat
  ft : List Word
  sbs : List Nat
  /-- Steps begun. -/
  step : Nat := 0
  /-- Tag of the strand that forked it (R63). -/
  tag : BitVec 8 := 0#8
  /-- Forked in an open segment. -/
  seg : Bool := false
  /-- Forked in a segment that a swap has closed since: halves that it computes with are still owed their row checks (R145). -/
  away : Bool := false
  /-- It has read a poisoned activation word: every word that it writes is poisoned (R138). -/
  poi : Bool := false
  /-- A-store ranges that its steps write: location and bytes (R138). -/
  outs : List (Nat × Nat) := []
  /-- Rows that a check found in error since it began: macro half and row (R145). -/
  errs : List (Nat × Nat) := []
  deriving DecidableEq, Repr, Inhabited

/-- A store held in a segment (R127, R144), or a marker of a DRAIN. -/
inductive Held where
  | access (a : Access)
  | marker
  deriving DecidableEq, Repr, Inhabited

/-- An open segment (R143 to R149). -/
structure Seg where
  mask : BitVec 32
  aflag : Bool
  rewinds : Nat
  /-- The rewind buffer. -/
  img : Regs
  held : List Held
  /-- Macro halves that its nests computed with, and how many row checks of each the close still awaits (R145). -/
  halves : List (Nat × Nat)
  /-- A row check since a nest began found an error, and the storage-view offset of its row (R140, R145). -/
  bad : Bool := false
  badAt : Word := 0#64
  deriving DecidableEq, Repr

/-- What the memory monitor of a context watches: the location and width of its address, its condition and operand
(R290, R291). -/
structure Monitor where
  loc : Nat
  n : Nat
  c : BitVec 2
  x : Word
  deriving DecidableEq, Repr, Inhabited

/-- What a bundle that has issued leaves for the boundary after it, while issue is held: the wait of RDV for its round, its new segment, and the
segment of SEG once what its own bundle issued has landed (R143, R146). -/
inductive Post where
  | round (twr : BitVec 1) (k : BitVec 6)
  | reopen
  | segment (m : BitVec 32) (aflag : Bool)
  deriving DecidableEq, Repr, Inhabited

/-- How the bundle being executed ended. -/
inductive Phase where
  | normal
  /-- The bundle took no effect: an issue trap or a rewind has been taken instead (R191, R147). -/
  | issueTrap
  /-- A slot has ended the bundle itself (a trap, ERET, EXIT, SEG or RDV). -/
  | done
  /-- The bundle waits on an engine queue and the core switches (R157). -/
  | blocked
  /-- The bundle waits and issue is frozen (R159). -/
  | frozen
  /-- A trap of the bundle waits for the pages of its frame (R98, R102, R193). -/
  | entering
  /-- The strand has left the context. -/
  | left
  deriving DecidableEq, Repr, Inhabited

/-- The states of a strand that a context holds (R177). -/
inductive TaskState where
  | ready | running | blocked | parked
  /-- The context is free. -/
  | stopped
  deriving DecidableEq, Repr, Inhabited

/-- A hardware context and the strand in it. -/
structure Ctx where
  r : Regs
  /-- Where the current bundle transfers control (R255 to R262). -/
  npc : Option Word := none
  phase : Phase := .normal
  /-- Levels that a LOOP of the current bundle started (R259). -/
  lset : BitVec 4 := 0#4
  /-- Registers written by earlier bundles of the open group (R241). -/
  grp : List Reg := []
  flight : List Access := []
  due : List Trap := []
  /-- The SSTEP trap that the frame being written displaces is due (R192). -/
  sspend : Bool := false
  seg : Option Seg := none
  /-- Mask and flag of the last SEG (R146). -/
  segMask : BitVec 32 := 0#32
  segA : Bool := false
  eq : List Cmd := []
  eqHead : Nat := 0
  eqStop : Bool := false
  /-- Field operations, nests and NMU operations that it issued and that are not complete (R166, R186). -/
  ops : List Nat := []
  assays : List Assay := []
  st : TaskState := .running
  /-- A task of a pipeline, and the tower of that pipeline. -/
  task : Bool := false
  home : Nat := 0
  agent : Bool := false
  /-- The strand executed EXIT; its context waits for its loads (R270). -/
  gone : Bool := false
  mark : Bool := false
  /-- Channels that were full when the task was marked (R176). -/
  marked : List Nat := []
  /-- Ranks gained by aging, and the cycle at which it last became ready or gained one (R162). -/
  age : Nat := 0
  since : Word := 0#64
  /-- Its accesses that faulted while it was held outside a context (R203). -/
  late : List Access := []
  /-- Macro halves of a segment closed by a swap, and row checks of each still to come (R145). -/
  owed : List (Nat × Nat) := []
  /-- Banks that a blocked BACQ waits for (R64). -/
  acq : BitVec 32 := 0#32
  /-- Its memory monitor, while armed (R291). -/
  mon : Option Monitor := none
  /-- A drain that the next bundle waits for: bit 0 stores, bit 1 loads, bit 2 the inbound queue (R116, R126). -/
  drn : BitVec 3 := 0#3
  /-- The scope of that drain, from .ctx 0 to .sys 5, and the identities issued before it (R108, R116, R129). -/
  drnScope : Nat := 0
  drnId : Nat := 0
  /-- The drain that a trap interrupted; the return waits for it again (R116). -/
  drnBack : Option (BitVec 3 × Nat × Nat) := none
  /-- What follows that drain, in order, before the next bundle; and what followed the drain that a trap interrupted (R143, R146). -/
  post : List Post := []
  postBack : List Post := []
  /-- A DRAIN of the current bundle closes the batch of held stores after the bundle (R116, R127). -/
  markDue : Bool := false
  /-- The bundle count at which the last write of a predicate register landed (R245). -/
  pland : List (Nat × Word) := []
  /-- Bundles fetched ahead of issue, with the address of each (R69). -/
  ahead : List (Word × BitVec 128) := []
  /-- A yield point is due at the boundary: the declared run of a YIELD, or 0 for PAUSE (R264, R265). -/
  yreq : Option Nat := none
  /-- The dispatcher has answered PLAUNCH: cause 0, or the cause and address of its trap (R171, R297). -/
  launched : Option (BitVec 8 × Word) := none
  /-- The page whose request the bundle sleeps on, with bit 0 set; bit 1 instead once the host has refused it (R98). -/
  asks : Word := 0#64
  /-- The identity last used before the bundle last tried: what is above it that bundle issued (R211). -/
  stepId : Nat := 0
  /-- The identity last used when its trap was taken: later accesses are the handler's (R128). -/
  trapId : Nat := 0
  deriving DecidableEq, Repr

/-! ## A core -/

/-- A z tile with its side registers and its poison bit (R138, R355). -/
structure Tile where
  /-- Row r holds its 64 FP32 elements, column 0 lowest. -/
  rows : Vector (BitVec 2048) 64
  zm : Vector (BitVec 32) 64
  zs : Vector (BitVec 32) 64
  poison : Bool := false
  deriving DecidableEq, Repr

/-- A range that an engine operation holds in local memory (R124). -/
structure SbEntry where
  id : Nat
  lo : Nat
  hi : Nat
  wr : Bool
  /-- Number of the context and identity of the operation. -/
  x : Nat
  op : Nat
  /-- Tag of the strand that issued it (R62, R65). -/
  tag : BitVec 8 := 0#8
  deriving DecidableEq, Repr, Inhabited

/-- An NMU operation that has issued (R356). -/
structure NmuOp where
  id : Nat
  x : Nat
  i : Instr
  ng : List Word
  a : Word := 0#64
  b : Word := 0#64
  sbs : List Nat := []
  /-- Tag of the strand that issued it (R63). -/
  tag : BitVec 8 := 0#8
  /-- Issued in an earlier group of its strand (R242). -/
  old : Bool := false
  /-- A gang product waits until its gang has started. -/
  gang : Bool := false
  /-- Forked in an open segment. -/
  seg : Bool := false
  deriving DecidableEq, Repr, Inhabited

/-- The first write of a segment to a line, with its old bytes and the granules of it that were poisoned (R144, R148). -/
structure Undo where
  x : Nat
  line : Nat
  old : List Byte
  poi : List Nat
  deriving DecidableEq, Repr, Inhabited

/-- A staged task or an outgoing image in the shadow bank (R22, R178, R181). -/
structure Shadow where
  c : Ctx
  /-- Context number that it will take or has left. -/
  x : Nat
  /-- True while the outgoing image spills; false while an incoming image waits. -/
  out : Bool
  urgent : Bool := false
  /-- The swap has begun. -/
  swapping : Bool := false
  /-- The incoming strand while the swap lasts. -/
  next : Option Ctx := none
  /-- Image of the spilled strand that is being reinstated. -/
  src : Option Word := none
  deriving DecidableEq, Repr

/-- State that every strand of a core shares (Table 1-3). -/
structure Core where
  cur : BitVec 2
  z : Vector Tile 4
  sb : List SbEntry := []
  /-- The local ranges of engine operations and nests that have not completed (R64, R65). -/
  rng : List SbEntry := []
  nmuq : List NmuOp := []
  /-- Committed nests that the sequencer has not taken, at most one for each context, oldest first (R346). -/
  commits : List Nest := []
  nest : Option Nest := none
  /-- Results of nest steps that the collector has not applied: first word, overwrite, values, poisoned (R334). -/
  coll : List (Nat × Bool × List (BitVec 32) × List Bool) := []
  shadow : Option Shadow := none
  undo : List Undo := []
  /-- The cycle at which the slice counter reaches zero (R161). -/
  sliceEnd : Word := 0#64
  /-- Stage id last chosen at each rank (R161). -/
  last : List (Nat × Nat) := []
  deriving DecidableEq, Repr

/-! ## Tower and module units -/

/-- The translation caches that hold whole translations (Table 4-5): of a core, a cluster or a tower, by module-wide number. -/
inductive TlbUnit where
  | data (G : Nat)
  | instr (G : Nat)
  | cluster (c : Nat)
  | tower (T : Nat)
  deriving DecidableEq, Repr, Inhabited

/-- A cached translation (R91, R97). -/
structure TlbEntry where
  unit : TlbUnit := .tower 0
  base : Nat
  lg : Nat
  e : Word
  /-- What the host's completion grants a page of KIND 1: bit 0 read, 1 write (R97). -/
  ats : Nat := 3
  deriving DecidableEq, Repr, Inhabited

/-- A table pointer in a tower's walk cache: the table that the walk of addresses with this prefix reads at a level (R91). -/
structure WalkEntry where
  twr : Nat
  lvl : Nat
  tag : Nat
  table : Nat
  deriving DecidableEq, Repr, Inhabited

/-- A position translation that a core holds: its key of descriptor, layer and block, the virtual and physical address of the key/value
page with log2 of its size and of the size of the translation that led to it, and the mask (R105, R390). -/
structure PosEntry where
  core : Nat
  key : Nat
  va : Word
  pa : Nat
  lg : Nat
  leaf : Nat
  mask : Word
  deriving DecidableEq, Repr, Inhabited

/-- An ATS completion that a tower holds until an access uses it (R97). -/
structure AtsEntry where
  twr : Nat
  base : Nat
  lg : Nat
  /-- Bit 0 read, 1 write, 3 untranslated requests only. -/
  grants : Nat
  deriving DecidableEq, Repr, Inhabited

/-- Who asks for a translation: an event of the module, or with the row nop a strand's bundle, by the strand's number and its pc (R97). -/
structure Asker where
  i : Instr
  x : Nat
  y : Nat
  z : Nat
  deriving DecidableEq, Repr, Inhabited

/-- One that waits for the ATS completion of a page of a tower, and whether the completion has come (R97, R98). -/
structure AtsWait where
  twr : Nat
  page : Word
  who : Asker
  come : Bool := false
  deriving DecidableEq, Repr, Inhabited

/-- A page request in the tag table of a tower, or waiting for a tag (R98). -/
structure PageReq where
  twr : Nat
  page : Word
  sent : Bool
  deriving DecidableEq, Repr, Inhabited

/-- What the module sends to the host for translation (R97, R98). -/
inductive HostKind where
  | atsRequest | pageRequest | invalidationCompletion
  deriving DecidableEq, Repr, Inhabited

/-- One such message: tower, address, the PASID that it carries (R57), and the port that it leaves on (R414). -/
structure HostMsg where
  kind : HostKind
  twr : Nat
  va : Word
  pasid : Option (BitVec 20)
  port : Nat
  deriving DecidableEq, Repr, Inhabited

/-- An invalidation sent to a core that holds a copy of a line: accepted or on its way, the bytes of the copy, and the strand whose
store sent it, by its core and tag (R109, R110). -/
structure Inval where
  core : Nat
  line : Nat
  old : List Byte
  acc : Bool
  src : Nat
  deriving DecidableEq, Repr, Inhabited

/-- A line of 256 B in an S-layer slice, with the valid bits of its four sectors (R73). -/
structure SLine where
  granule : Nat
  valid : BitVec 4
  deriving DecidableEq, Repr, Inhabited

/-- A field operation that has issued and not performed, in plot order (R338). The issued state of a plot is its status with
these applied (R327). -/
structure FieldOp where
  id : Nat
  core : Nat
  /-- Trap frame base of the strand that issued it. -/
  tfb : Word := 0#64
  /-- Module-wide plot number, 256 T + P. -/
  plot : Nat
  /-- 0 bind, 1 release, 2 mode, 3 load, 4 swap. -/
  kind : Nat
  h : Nat := 0
  v : Nat := 0
  org : Word := 0#64
  sup : Bool := false
  started : Bool := false
  /-- The 16 B parts of a load's origin image still to read, as ranges of part numbers (R336). -/
  left : List (Nat × Nat) := []
  /-- A part of the image was poisoned, failed its CRC or faulted (R337). -/
  bad : Bool := false
  /-- Cause and address of the fault at the lowest address that the load has met (R337). -/
  flt : Option (BitVec 8 × Word) := none
  deriving DecidableEq, Repr, Inhabited

/-- A gang instance (R364). -/
structure Gang where
  clu : Nat
  gid : Nat
  par : List Word
  z : Bool
  /-- Core, operation and position of each member. -/
  mem : List (Nat × Nat × Nat)
  started : Bool := false
  deriving DecidableEq, Repr, Inhabited

/-- A collective instance (R405). -/
structure Coll where
  id : Nat := 0
  /-- Location of its key; that of a member of this module is translated anew as the instance completes (R96). -/
  key : Nat
  i : Instr
  w0 : Word
  /-- Context number, command identity and rank of each member. -/
  mem : List (Nat × Nat × Nat)
  /-- Rank, source bytes and their poison of each member of another module (R405). -/
  out : List (Nat × List Byte × List Bool) := []
  deriving DecidableEq, Repr, Inhabited

/-- A request to a sequence unit or repair engine (R372, R380). -/
structure SeqReq where
  /-- Identity of the (first) ALQ entry that it fills. -/
  id : Nat
  /-- %bc of the bundle that issued it. -/
  bc : Word := 0#64
  twr : Nat
  x : Nat
  slot : BitVec 4
  i : Instr
  a : Word
  b : Word
  c : Word
  stg : List Word
  sup : Bool
  /-- A cascaded drop of a parent carries no result (R387). -/
  quiet : Bool := false
  deriving DecidableEq, Repr, Inhabited

/-- A stage of a pipeline (Table 7-5) with what the dispatcher counts. -/
structure Stage where
  entry : Word
  image : Word
  maxi : Nat
  mini : Nat
  clus : BitVec 8
  urg : Bool
  rank : Nat
  ybud : Nat
  outm : BitVec 32
  inm : BitVec 32
  homask : BitVec 32
  rbkey : Word
  tfbb : Word
  splb : Word
  created : Nat := 0
  /-- Dispatcher ticks in which it wanted a task and got none (R173). -/
  want : Nat := 0
  deriving DecidableEq, Repr, Inhabited

/-- A channel of a pipeline (Table 7-6, R170). -/
structure Chan where
  desc : Nat
  base : Word
  kind : Bool
  clu : Nat
  esz : Nat
  cap : Nat
  high : Nat
  low : Nat
  head : Nat
  /-- Next entry a CHDEQ claims. -/
  deq : Nat
  /-- Entries below it are available. -/
  avail : Nat
  tail : Nat
  /-- Entries whose bytes have performed, and entries dequeued, out of order. -/
  fin : List Nat := []
  freed : List Nat := []
  closed : Bool := false
  deriving DecidableEq, Repr, Inhabited

/-- An accepted pipeline (R171). -/
structure Pipe where
  twr : Nat
  pid : Nat
  man : Word
  stages : List Stage
  chans : List Chan
  /-- Held by a single step (R210); killed and about to leave its slot (R186). -/
  held : Bool := false
  killed : Bool := false
  deriving DecidableEq, Repr, Inhabited

/-- A CTXSV, CTXLD, MIGR or PROMO whose value is still due (R305, R306). -/
structure Move where
  /-- Identity and ring slot of its ALQ entry. -/
  id : Nat
  slot : BitVec 4
  i : Instr
  /-- Issuing context. -/
  x : Nat
  /-- Target context, or page address. -/
  target : Nat
  /-- Image address, or destination. -/
  va : Word
  /-- Step of a MIGR or PROMO: 0 before its BUSY is set, then 1 while its old home migrates (R100). -/
  phase : Nat := 0
  /-- From then on: the page's old location and size, its entry, and the entry's level and CG bit. -/
  src : Nat := 0
  n : Nat := 0
  ent : Nat := 0
  lvl : Nat := 0
  cg : Bool := false
  deriving DecidableEq, Repr, Inhabited

/-- A pending task: one that the dispatcher has chosen a place for and whose image is being read (R175, R178), or with core 1536 one that has no
place, since its staging was taken over or its victim lost (R177, R179, R182). -/
structure Placing where
  id : Nat
  twr : Nat
  pid : Nat
  stage : Nat
  inst : Nat
  core : Nat
  x : Nat
  /-- It is staged in the shadow bank for a displacement. -/
  shadow : Bool
  urgent : Bool := false
  deriving DecidableEq, Repr, Inhabited

/-- A spilled strand (R181), or one saved by CTXSV to whose image results are still due (R204, R206). -/
structure Spilled where
  core : Nat
  c : Ctx
  /-- Its image in memory. -/
  image : Word
  /-- The image has been written. -/
  written : Bool := false
  /-- Saved by CTXSV: the dispatcher does not reinstate it. -/
  saved : Bool := false
  /-- Read back is in progress into this context of its core, or through the shadow bank for 4 + the victim's context. -/
  back : Option Nat := none
  deriving DecidableEq, Repr

/-- Whose counters count something: a core's, those of every core of a tower, or a tower's (R432). -/
inductive Counted where
  | core (G : Nat)
  | cores (T : Nat)
  | tower (T : Nat)
  deriving DecidableEq, Repr, Inhabited

/-- Something that a step counts: a source of Table 19-7 or 19-8, whose counters count it, the context it belongs to where it belongs to one, and how
often (R432). -/
structure Hit where
  src : Nat
  at' : Counted
  ctx : Option Nat := none
  n : Nat := 1
  deriving DecidableEq, Repr, Inhabited

/-- The whole module. -/
structure State where
  /-- Module-wide number of the core whose turn it is (log 1). -/
  here : Nat
  ctx : Ctx
  /-- The other occupied contexts by module-wide number 4G + X (R27). -/
  ctxs : List (Nat × Ctx)
  core : Core
  /-- The other cores whose state differs from that after reset, by module-wide number. -/
  cores : List (Nat × Core)
  mem : Memory
  poison : List Nat
  /-- Lines whose bytes have changed unseen, with the CRC that each still holds (R132, R136). -/
  badcrc : List (Nat × BitVec 32)
  /-- Records that the hardware writes and that wait for their HBM4 (R81, R140, R213). -/
  records : List (Nat × List Byte)
  /-- Lines modified in an L1 or L2, with the bytes of their home (R304). -/
  dirty : List (Nat × List Byte)
  /-- Dirty sectors of the S-layers, oldest first (R73, R75). -/
  sdirty : List Nat
  /-- Lines whose HBM4 copy is poisoned while an L1 holds them modified (R153). -/
  hpoi : List Nat
  /-- For each dirty sector, and others that were dirty before, the bytes of its HBM4 line as the sector became dirty (R153). -/
  sold : List (Nat × List Byte)
  /-- Lines in the L1 data cache of a core, newest last (R68, R109). -/
  copies : List (Nat × Nat)
  /-- Lines in the instruction cache of a core (R69). -/
  icopies : List (Nat × Nat)
  /-- Lines in the L2 of a tower (R70). -/
  l2 : List (Nat × Nat)
  /-- The core that holds a line exclusive, as the line's directory records (R70, R155). -/
  own : List (Nat × Nat)
  /-- The sets of the S-layers that hold lines, by number (R73). -/
  slayer : List (Nat × List SLine)
  /-- Invalidations not applied (R109, R110). -/
  inval : List Inval
  /-- Inbound invalidations from other modules: identity, line and the bytes held before it (R129). -/
  inbound : List (Nat × Nat × List Byte)
  /-- Commits of the hash masks since a tower's memory was last defined as a whole (R82). -/
  epoch : Vector Nat 8
  since : List Nat
  /-- Active mask set of each tower (R81). -/
  hactive : Vector (Vector Word 8) 8
  /-- The mask set that the commit in progress of each tower installs (R79, R81). -/
  hnext : Vector (Vector Word 8) 8
  csr : List (Nat × Word)
  tlb : List TlbEntry
  /-- The towers' walk caches (R91). -/
  walkc : List WalkEntry
  /-- ATS completions cached, and ATS requests without an answer: tower and page (R97). -/
  ats : List AtsEntry
  atsq : List (Nat × Word)
  /-- Who waits for those completions, and who has still to see that one has come (R97, R98). -/
  atsw : List AtsWait
  /-- What the module has sent to the host for translation (R97, R98). -/
  toHost : List HostMsg
  /-- Position translation caches (R105, R390). -/
  ptc : List PosEntry
  refetch : List (Nat × Nat)
  fops : List FieldOp
  /-- Context that the copy engines of a cluster served last (R399). -/
  served : List (Nat × Nat)
  gangs : List Gang
  colls : List Coll
  sqq : List SeqReq
  pipes : List Pipe
  placing : List Placing
  spilled : List Spilled
  /-- Strands that have left their context with stores or engine commands still to perform (R270), by its number. -/
  past : List (Nat × Ctx)
  /-- PLAUNCH requests that wait for their tower's dispatcher: tower, context, address. -/
  launches : List (Nat × Nat × Word)
  /-- Page requests outstanding or waiting for a tag, oldest first (R98). -/
  pri : List PageReq
  moves : List Move
  /-- BREL and BHELD releases that wait: core, bank and the holder's tag (R65, R66). -/
  brels : List (Nat × Nat × Nat)
  errSeq : Vector (BitVec 16) 8
  fnSeq : Vector (BitVec 16) 8
  /-- Scrub rows with a correction: tower, row, age in visits, 256 of which remove it (R142). -/
  hist : List (Nat × Nat × Nat)
  /-- MSI-X messages sent: port and vector (R414). -/
  msix : List (Nat × Nat)
  msixMask : BitVec 8
  msixPend : BitVec 8
  /-- Answers to the host: bytes and the poisoned mark; without bytes Unsupported Request, or with the mark Completer Abort
  (R137, R413). -/
  hostOut : List (List Byte × Bool)
  fenced : BitVec 8
  /-- Towers whose clock is stretched (R425). -/
  stretch : BitVec 8
  /-- Milliseconds since PEAK last exceeded 100 °C in an emergency, for each tower (R428). -/
  cool : Vector Nat 8
  /-- Towers whose clusters firmware holds closed for their temperature (R427). -/
  hot : BitVec 8
  /-- Towers whose VSL fell below 0.60 V since their emergency was declared (R428). -/
  vslow : BitVec 8
  /-- The macros that FREMAP has replaced, as firmware has recorded them: plot, macro row and column (R354, R429). -/
  remaps : List (Nat × Nat × Nat)
  /-- The NOW of its stack when a pseudo-channel was last trained, by tower and pseudo-channel; at 2048 + 4T + i that of stack i at the first update,
  for those not trained since (R431). -/
  trained : List (Nat × Nat)
  /-- The pseudo-channel that firmware is retraining on each tower (R431). -/
  retrain : Vector (Option Nat) 8
  /-- Flits of each Aeling port that failed in succession (R418). -/
  retries : Vector Nat 24
  /-- Accesses in flight to a line of another module when the ports to it last changed: identity, line and the port that they left on, 24 where it
  went down under them (R419, R420). -/
  sent : List (Nat × Nat × Nat)
  /-- The lines that the access now performing asked for on a port that went down (R420). -/
  cut : List Nat
  /-- The number of the agent image in place, and whether agents run it (R421, R429). -/
  agentNo : Nat
  agentRun : Bool
  /-- How a bring-up in progress ends: 0 well, else its cause; and whether a stack is below −10 °C (R429, R430). -/
  bootEnd : BitVec 8
  cold : Bool
  resets : BitVec 32
  /-- Steps since reset, and those of them in which each tower's clock did not run (R425, log 2). -/
  cyc : Word
  lag : Vector Word 8
  /-- DSPCTL as of the last tick of each tower (R190). -/
  dsp : Vector Word 8
  /-- What the present step has met so far that counters count (R432). -/
  hits : List Hit
  /-- The event being performed. -/
  ev : Ev
  agenda : List Ev
  /-- Choices of what moves next (log 3). -/
  sched : List Nat
  /-- Count of free values taken (log 12). -/
  free : Nat
  /-- Number of the next operation put in flight. -/
  uid : Nat
  deriving DecidableEq, Repr

/-! ## Reset -/

/-- Registers of a context after reset: the spec states no value, and the model takes 0 and supervisor level
(DESIGN CHOICE, log 6 and log 7). -/
def Regs.reset : Regs where
  s := Vector.replicate 64 0#64
  v := Vector.replicate 64 0#1024
  p := Vector.replicate 16 0#32
  l := Vector.replicate 12 0#64
  lact := 0#4
  g := Vector.replicate 64 0#64
  pc := 0#64
  bc := 0#64
  sup := true
  deep := false
  tfb := 0#64
  spl := 0#64
  tag := 0#8
  ssm := false
  ssq := false
  pfn := 0#4
  rbKey := 0#64
  rbCtr := 0#128
  rbQueue := []
  rbRot := 0#5
  alq := []
  alqh := 0#4
  pend := []
  barw := {}
  stage := 0#6
  inst := 0#10
  run := 0#32

/-- A context after reset: it holds no strand (log 7). -/
def Ctx.reset : Ctx := { r := Regs.reset, st := .stopped }

/-- A z tile after reset: every element and every zs +0, every zm −∞ (R355). -/
def Tile.reset : Tile where
  rows := Vector.replicate 64 0#2048
  zm := Vector.replicate 64 0xff800000#32
  zs := Vector.replicate 64 0#32

/-- A core after reset. -/
def Core.reset : Core where
  cur := 0#2
  z := Vector.replicate 4 Tile.reset

/-- The power-on masks (Table 3-8). -/
def powerOnMasks : Vector Word 8 :=
  #v[0x100#64, 0x200#64, 0x400#64, 0x800#64, 0x1000#64, 0x100000#64, 0x200000#64, 0x400000#64]

/-- The machine right after a module reset, before the first bring-up stage (R429): memory and register lists empty, which
says that every register of the window holds its reset value. -/
def State.reset : State where
  here := 0
  ctx := Ctx.reset
  ctxs := []
  core := Core.reset
  cores := []
  mem := []
  poison := []
  badcrc := []
  records := []
  dirty := []
  sdirty := []
  hpoi := []
  sold := []
  copies := []
  icopies := []
  l2 := []
  own := []
  slayer := []
  inval := []
  inbound := []
  epoch := Vector.replicate 8 0
  since := []
  hactive := Vector.replicate 8 powerOnMasks
  hnext := Vector.replicate 8 powerOnMasks
  csr := []
  tlb := []
  walkc := []
  ats := []
  atsq := []
  atsw := []
  toHost := []
  ptc := []
  refetch := []
  fops := []
  served := []
  gangs := []
  colls := []
  sqq := []
  pipes := []
  placing := []
  spilled := []
  past := []
  launches := []
  pri := []
  moves := []
  brels := []
  errSeq := Vector.replicate 8 0#16
  fnSeq := Vector.replicate 8 0#16
  hist := []
  msix := []
  msixMask := 0#8
  msixPend := 0#8
  hostOut := []
  fenced := 0#8
  stretch := 0#8
  cool := Vector.replicate 8 0
  hot := 0#8
  vslow := 0#8
  remaps := []
  trained := []
  retrain := Vector.replicate 8 none
  retries := Vector.replicate 24 0
  sent := []
  cut := []
  agentNo := 0
  agentRun := false
  bootEnd := 0#8
  cold := false
  resets := 0#32
  cyc := 0#64
  lag := Vector.replicate 8 0#64
  dsp := Vector.replicate 8 0x20000014800#64
  hits := []
  ev := { i := .nop }
  agenda := []
  sched := []
  free := 0
  uid := 0

end Sys2Proof.Machine
end

