-- ==== Sys2Proof/Machine/Names.lean ====
section
/-! DEFINITION. What each instruction names, from its encoding alone: the registers, predicates, loop registers and z tiles that it
reads and writes (R241), its privilege (R249), and whether it closes an open segment before it issues (R144). -/

namespace Sys2Proof.Machine

/-- s0 and p0 are exempt from the group rules (R241). -/
def exempt : Reg → Bool
  | .s n => n == 0#6
  | .p n => n == 0#4
  | _ => false

/-- The registers that an instruction reads, its guard among them (R241). -/
def readsOf : Instr → List Reg
  | .br g _ => [.p g]
  | .brl g _ => [.p g]
  | .jr g a => [.p g, .s (a.setWidth 6)]
  | .jrl g _ a => [.p g, .s (a.setWidth 6)]
  | .loop g lv a dist => [.p g, .s (a.setWidth 6)] ++ (if dist = 0#10 then [.l (8#4 + lv.setWidth 4)] else [])
  | .loopi g _ _ _ => [.p g]
  | .lbrk g lv => [.p g, .l (8#4 + lv.setWidth 4)]
  | .mtl g _ a => [.p g, .s (a.setWidth 6)]
  | .mfl g _ k => [.p g, .l k]
  | .yield g _ => [.p g]
  | .seg g a _ => [.p g, .s (a.setWidth 6)]
  | .rdv g _ _ => [.p g]
  | .trap g _ => [.p g]
  | .trapb g _ a _ => [.p g, .s (a.setWidth 6)]
  | .eret g => [.p g]
  | .exit g => [.p g]
  | .pause g => [.p g]
  | .xadd g _ a b => [.p g, .s (a.setWidth 6), .s (b.setWidth 6)]
  | .xaddi g _ a _ => [.p g, .s (a.setWidth 6)]
  | .xmovi g _ _ => [.p g]
  | .xmovhi g d _ => [.p g, .s (d.setWidth 6)]
  | .add g _ a b => [.p g, .s a, .s b]
  | .sub g _ a b => [.p g, .s a, .s b]
  | .addi g _ a _ => [.p g, .s a]
  | .mul g _ a b => [.p g, .s a, .s b]
  | .mulhs g _ a b => [.p g, .s a, .s b]
  | .mulhu g _ a b => [.p g, .s a, .s b]
  | .divs g _ a b => [.p g, .s a, .s b]
  | .divu g _ a b => [.p g, .s a, .s b]
  | .rems g _ a b => [.p g, .s a, .s b]
  | .remu g _ a b => [.p g, .s a, .s b]
  | .and g _ a b => [.p g, .s a, .s b]
  | .or g _ a b => [.p g, .s a, .s b]
  | .xor g _ a b => [.p g, .s a, .s b]
  | .andi g _ a _ => [.p g, .s a]
  | .ori g _ a _ => [.p g, .s a]
  | .xori g _ a _ => [.p g, .s a]
  | .shl g _ a b => [.p g, .s a, .s b]
  | .shr g _ a b => [.p g, .s a, .s b]
  | .sar g _ a b => [.p g, .s a, .s b]
  | .shli g _ a _ => [.p g, .s a]
  | .shri g _ a _ => [.p g, .s a]
  | .sari g _ a _ => [.p g, .s a]
  | .rotr g _ a b => [.p g, .s a, .s b]
  | .clz g _ a => [.p g, .s a]
  | .ctz g _ a => [.p g, .s a]
  | .popc g _ a => [.p g, .s a]
  | .mins g _ a b => [.p g, .s a, .s b]
  | .maxs g _ a b => [.p g, .s a, .s b]
  | .minu g _ a b => [.p g, .s a, .s b]
  | .maxu g _ a b => [.p g, .s a, .s b]
  | .abs g _ a => [.p g, .s a]
  | .bfx g _ a b _ => [.p g, .s a, .s b]
  | .bfi g d a b => [.p g, .s d, .s a, .s b]
  | .mov g _ a => [.p g, .s a]
  | .movi g _ _ => [.p g]
  | .movhi g d _ => [.p g, .s d]
  | .sel g _ a b p => [.p g, .s a, .s b, .p p]
  | .cmpeq g _ a b => [.p g, .s a, .s b]
  | .cmpne g _ a b => [.p g, .s a, .s b]
  | .cmplt g _ a b => [.p g, .s a, .s b]
  | .cmple g _ a b => [.p g, .s a, .s b]
  | .cmpltu g _ a b => [.p g, .s a, .s b]
  | .cmpleu g _ a b => [.p g, .s a, .s b]
  | .cmpeqi g _ a _ => [.p g, .s a]
  | .cmplti g _ a _ => [.p g, .s a]
  | .pand g _ a b => [.p g, .p a, .p b]
  | .por g _ a b => [.p g, .p a, .p b]
  | .pxor g _ a b => [.p g, .p a, .p b]
  | .pnot g _ a => [.p g, .p a]
  | .pmov g _ a => [.p g, .s a]
  | .mfp g _ a => [.p g, .p a]
  | .ldb g _ a _ => [.p g, .s a]
  | .ldbu g _ a _ => [.p g, .s a]
  | .ldh g _ a _ => [.p g, .s a]
  | .ldhu g _ a _ => [.p g, .s a]
  | .ldw g _ a _ => [.p g, .s a]
  | .ldwu g _ a _ => [.p g, .s a]
  | .ldd g _ a _ => [.p g, .s a]
  | .ldq g _ a _ => [.p g, .s a]
  | .stb g d a _ => [.p g, .s d, .s a]
  | .sth g d a _ => [.p g, .s d, .s a]
  | .stw g d a _ => [.p g, .s d, .s a]
  | .std g d a _ => [.p g, .s d, .s a]
  | .stq g d a _ => [.p g, .s d, .s (d + 1#6), .s a]
  | .pft g _ a _ => [.p g, .s a]
  | .aadd g a b _ => [.p g, .s a, .s b]
  | .amin g a b _ => [.p g, .s a, .s b]
  | .amax g a b _ => [.p g, .s a, .s b]
  | .aminu g a b _ => [.p g, .s a, .s b]
  | .amaxu g a b _ => [.p g, .s a, .s b]
  | .aand g a b _ => [.p g, .s a, .s b]
  | .aor g a b _ => [.p g, .s a, .s b]
  | .axor g a b _ => [.p g, .s a, .s b]
  | .axchg g a b _ => [.p g, .s a, .s b]
  | .acas g d a b _ => [.p g, .s d, .s a, .s b]
  | .radd g a b _ => [.p g, .s a, .s b]
  | .rmin g a b _ _ => [.p g, .s a, .s b]
  | .rmax g a b _ _ => [.p g, .s a, .s b]
  | .rand g a b _ => [.p g, .s a, .s b]
  | .ror g a b _ => [.p g, .s a, .s b]
  | .rxor g a b _ => [.p g, .s a, .s b]
  | .popq g _ => [.p g]
  | .rfadd g a b => [.p g, .s a, .s b]
  | .drain g _ _ => [.p g]
  | .waita g a b _ _ => [.p g, .s a, .s b]
  | .mtg g a _ => [.p g, .s a]
  | .mfg g _ _ => [.p g]
  | .mfsr g _ _ => [.p g]
  | .vadd g _ a b _ _ => [.p g, .v a, .v b]
  | .vsub g _ a b _ _ => [.p g, .v a, .v b]
  | .vmul g _ a b _ => [.p g, .v a, .v b]
  | .vmulh g _ a b _ _ => [.p g, .v a, .v b]
  | .vmac g d a b _ => [.p g, .v d, .v a, .v b]
  | .vmins g _ a b _ => [.p g, .v a, .v b]
  | .vmaxs g _ a b _ => [.p g, .v a, .v b]
  | .vminu g _ a b _ => [.p g, .v a, .v b]
  | .vmaxu g _ a b _ => [.p g, .v a, .v b]
  | .vabs g _ a _ => [.p g, .v a]
  | .vand g _ a b => [.p g, .v a, .v b]
  | .vor g _ a b => [.p g, .v a, .v b]
  | .vxor g _ a b => [.p g, .v a, .v b]
  | .vshl g _ a b _ => [.p g, .v a, .v b]
  | .vshr g _ a b _ => [.p g, .v a, .v b]
  | .vsar g _ a b _ => [.p g, .v a, .v b]
  | .vfshl g _ a b _ => [.p g, .v a, .v b]
  | .vfshr g _ a b _ => [.p g, .v a, .v b]
  | .vrot g _ a b _ => [.p g, .v a, .v b]
  | .vpopc g _ a _ => [.p g, .v a]
  | .vclz g _ a _ => [.p g, .v a]
  | .vshi g _ a _ _ _ => [.p g, .v a]
  | .vbcst g _ a _ => [.p g, .s a]
  | .vtern g d a b _ => [.p g, .v d, .v a, .v b]
  | .vfadd g _ a b _ _ => [.p g, .v a, .v b]
  | .vfsub g _ a b _ _ => [.p g, .v a, .v b]
  | .vfmul g _ a b _ _ => [.p g, .v a, .v b]
  | .vfma g d a b _ _ => [.p g, .v d, .v a, .v b]
  | .vfmax g _ a b _ => [.p g, .v a, .v b]
  | .vfmin g _ a b _ => [.p g, .v a, .v b]
  | .vexp2 g _ a => [.p g, .v a]
  | .vrcp g _ a => [.p g, .v a]
  | .vrsq g _ a => [.p g, .v a]
  | .vfcmp g _ a b _ => [.p g, .v a, .v b]
  | .vcvt g _ a _ _ _ _ => [.p g, .v a]
  | .vcvts g _ a _ _ _ => [.p g, .v a]
  | .vmxq g _ a _ _ _ _ => [.p g, .v a]
  | .vmxd g _ a b _ _ => [.p g, .v a, .s b]
  | .vperm g _ a b => [.p g, .v a, .v b]
  | .vslide g _ a b _ => [.p g, .v a, .v b]
  | .vradd g _ a => [.p g, .v a]
  | .vrmax g _ a _ => [.p g, .v a]
  | .vrfadd g _ a => [.p g, .v a]
  | .vrfmax g _ a => [.p g, .v a]
  | .vsel g _ a b p => [.p g, .v a, .v b, .p p]
  | .vmov g _ a => [.p g, .v a]
  | .vext g _ a _ => [.p g, .v a]
  | .vins g _ a _ => [.p g, .s a]
  | .vcmp g _ a b _ _ => [.p g, .v a, .v b]
  | .vmcnt g _ a => [.p g, .v a]
  | .vmfst g _ a => [.p g, .v a]
  | .vld g _ a _ => [.p g, .s a]
  | .vst g d a _ => [.p g, .v d, .s a]
  | .vlds g _ a b => [.p g, .s a, .s b]
  | .vsts g d a b => [.p g, .v d, .s a, .s b]
  | .vldx g _ a b _ => [.p g, .s a, .v b]
  | .vstx g d a b _ => [.p g, .v d, .s a, .v b]
  | .vldb g _ a _ => [.p g, .s a]
  | .mma g d _ => [.p g, .z d]
  | .mmag g d _ => [.p g, .z d]
  | .zclr g d _ _ => [.p g, .z d]
  | .zld g _ a b _ _ => [.p g, .s a, .s b]
  | .zst g d a b _ _ => [.p g, .z d, .s a, .s b]
  | .osm g d a => [.p g, .z d, .z a]
  | .osmf g d => [.p g, .z d]
  | .rbkt g _ a _ => [.p g, .v a]
  | .rbias g d a b _ => [.p g, .v d, .s a, .v b]
  | .cpy g => [.p g]
  | .cpy2 g => [.p g]
  | .cpyg g => [.p g]
  | .cpyf g => [.p g]
  | .fmap g a _ => [.p g, .s a]
  | .fmapRel g a _ => [.p g, .s a]
  | .fmode g a _ _ _ => [.p g, .s a]
  | .fload g d a _ _ _ => [.p g, .s d, .s a]
  | .fswap g a _ => [.p g, .s a]
  | .fgo g => [.p g]
  | .fstat g _ a _ => [.p g, .s a]
  | .fremap g a => [.p g, .s a]
  | .sqnew g a => [.p g, .s a]
  | .sqnewReg g a b => [.p g, .s a, .s b]
  | .sqrsv g a b => [.p g, .s a, .s b]
  | .sqcmt g d a b _ => [.p g, .s d, .s a, .s b]
  | .sqabn g d a b => [.p g, .s d, .s a, .s b]
  | .sqfork g d a b => [.p g, .s d, .s a, .s b]
  | .sqdrop g a => [.p g, .s a]
  | .sqlen g a => [.p g, .s a]
  | .sqpos g d a b _ _ => [.p g, .s d, .s a, .s b]
  | .sqsplc g d a b => [.p g, .s d, .s a, .s b]
  | .rprchk g a => [.p g, .s a]
  | .rprins g a => [.p g, .s a]
  | .rprstat g a _ => [.p g, .s a]
  | .cred g _ => [.p g]
  | .cbcst g => [.p g]
  | .cagth g => [.p g]
  | .ca2a g => [.p g]
  | .rbseed g a b => [.p g, .s a, .s b]
  | .rbctr g a b => [.p g, .s a, .s b]
  | .rbrd g _ => [.p g]
  | .assay g _ _ _ _ => [.p g]
  | .bara g _ _ => [.p g]
  | .barw g _ _ => [.p g]
  | .bacq g a _ _ => [.p g, .s a]
  | .brel g a _ _ => [.p g, .s a]
  | .plaunch g a => [.p g, .s a]
  | .chenq g a _ => [.p g, .s a]
  | .chdeq g a _ => [.p g, .s a]
  | .csrr g _ _ => [.p g]
  | .csrw g a _ => [.p g, .s a]
  | .tlbi g a _ => [.p g, .s a]
  | .tlbsync g => [.p g]
  | .dcfl g a => [.p g, .s a]
  | .dcinv g a => [.p g, .s a]
  | .l2fl g a => [.p g, .s a]
  | .mscfl g a => [.p g, .s a]
  | .ctxsv g a b => [.p g, .s a, .s b]
  | .ctxld g a b => [.p g, .s a, .s b]
  | .sstep g a _ => [.p g, .s a]
  | .migr g a b => [.p g, .s a, .s b]
  | .promo g a b => [.p g, .s a, .s b]
  | _ => []

/-- The registers that an instruction writes; staging registers are none of those that R241 names. -/
def writesOf : Instr → List Reg
  | .brl _ _ => [.s 31#6]
  | .jrl _ d _ => [.s (d.setWidth 6)]
  | .loop _ lv _ _ => [.l (lv.setWidth 4), .l (4#4 + lv.setWidth 4), .l (8#4 + lv.setWidth 4)]
  | .loopi _ lv _ _ => [.l (lv.setWidth 4), .l (4#4 + lv.setWidth 4), .l (8#4 + lv.setWidth 4)]
  | .mtl _ k _ => [.l k]
  | .mfl _ d _ => [.s (d.setWidth 6)]
  | .xadd _ d _ _ => [.s (d.setWidth 6)]
  | .xaddi _ d _ _ => [.s (d.setWidth 6)]
  | .xmovi _ d _ => [.s (d.setWidth 6)]
  | .xmovhi _ d _ => [.s (d.setWidth 6)]
  | .add _ d _ _ => [.s d]
  | .sub _ d _ _ => [.s d]
  | .addi _ d _ _ => [.s d]
  | .mul _ d _ _ => [.s d]
  | .mulhs _ d _ _ => [.s d]
  | .mulhu _ d _ _ => [.s d]
  | .divs _ d _ _ => [.s d]
  | .divu _ d _ _ => [.s d]
  | .rems _ d _ _ => [.s d]
  | .remu _ d _ _ => [.s d]
  | .and _ d _ _ => [.s d]
  | .or _ d _ _ => [.s d]
  | .xor _ d _ _ => [.s d]
  | .andi _ d _ _ => [.s d]
  | .ori _ d _ _ => [.s d]
  | .xori _ d _ _ => [.s d]
  | .shl _ d _ _ => [.s d]
  | .shr _ d _ _ => [.s d]
  | .sar _ d _ _ => [.s d]
  | .shli _ d _ _ => [.s d]
  | .shri _ d _ _ => [.s d]
  | .sari _ d _ _ => [.s d]
  | .rotr _ d _ _ => [.s d]
  | .clz _ d _ => [.s d]
  | .ctz _ d _ => [.s d]
  | .popc _ d _ => [.s d]
  | .mins _ d _ _ => [.s d]
  | .maxs _ d _ _ => [.s d]
  | .minu _ d _ _ => [.s d]
  | .maxu _ d _ _ => [.s d]
  | .abs _ d _ => [.s d]
  | .bfx _ d _ _ _ => [.s d]
  | .bfi _ d _ _ => [.s d]
  | .mov _ d _ => [.s d]
  | .movi _ d _ => [.s d]
  | .movhi _ d _ => [.s d]
  | .sel _ d _ _ _ => [.s d]
  | .cmpeq _ d _ _ => [.p d]
  | .cmpne _ d _ _ => [.p d]
  | .cmplt _ d _ _ => [.p d]
  | .cmple _ d _ _ => [.p d]
  | .cmpltu _ d _ _ => [.p d]
  | .cmpleu _ d _ _ => [.p d]
  | .cmpeqi _ d _ _ => [.p d]
  | .cmplti _ d _ _ => [.p d]
  | .pand _ d _ _ => [.p d]
  | .por _ d _ _ => [.p d]
  | .pxor _ d _ _ => [.p d]
  | .pnot _ d _ => [.p d]
  | .pmov _ d _ => [.p d]
  | .mfp _ d _ => [.s d]
  | .ldb _ d _ _ => [.s d]
  | .ldbu _ d _ _ => [.s d]
  | .ldh _ d _ _ => [.s d]
  | .ldhu _ d _ _ => [.s d]
  | .ldw _ d _ _ => [.s d]
  | .ldwu _ d _ _ => [.s d]
  | .ldd _ d _ _ => [.s d]
  | .ldq _ d _ _ => [.s d, .s (d + 1#6)]
  | .popq _ d => [.s d]
  | .mfg _ d _ => [.s d]
  | .mfsr _ d _ => [.s d]
  | .vadd _ d _ _ _ _ => [.v d]
  | .vsub _ d _ _ _ _ => [.v d]
  | .vmul _ d _ _ _ => [.v d]
  | .vmulh _ d _ _ _ _ => [.v d]
  | .vmac _ d _ _ _ => [.v d]
  | .vmins _ d _ _ _ => [.v d]
  | .vmaxs _ d _ _ _ => [.v d]
  | .vminu _ d _ _ _ => [.v d]
  | .vmaxu _ d _ _ _ => [.v d]
  | .vabs _ d _ _ => [.v d]
  | .vand _ d _ _ => [.v d]
  | .vor _ d _ _ => [.v d]
  | .vxor _ d _ _ => [.v d]
  | .vshl _ d _ _ _ => [.v d]
  | .vshr _ d _ _ _ => [.v d]
  | .vsar _ d _ _ _ => [.v d]
  | .vfshl _ d _ _ _ => [.v d]
  | .vfshr _ d _ _ _ => [.v d]
  | .vrot _ d _ _ _ => [.v d]
  | .vpopc _ d _ _ => [.v d]
  | .vclz _ d _ _ => [.v d]
  | .vshi _ d _ _ _ _ => [.v d]
  | .vbcst _ d _ _ => [.v d]
  | .vtern _ d _ _ _ => [.v d]
  | .vfadd _ d _ _ _ _ => [.v d]
  | .vfsub _ d _ _ _ _ => [.v d]
  | .vfmul _ d _ _ _ _ => [.v d]
  | .vfma _ d _ _ _ _ => [.v d]
  | .vfmax _ d _ _ _ => [.v d]
  | .vfmin _ d _ _ _ => [.v d]
  | .vexp2 _ d _ => [.v d]
  | .vrcp _ d _ => [.v d]
  | .vrsq _ d _ => [.v d]
  | .vfcmp _ d _ _ _ => [.p d]
  | .vcvt _ d _ _ _ _ _ => [.v d]
  | .vcvts _ d _ _ _ _ => [.v d]
  | .vmxq _ d _ b _ _ _ => [.v d, .s b]
  | .vmxd _ d _ _ _ _ => [.v d]
  | .vperm _ d _ _ => [.v d]
  | .vslide _ d _ _ _ => [.v d]
  | .vradd _ d _ => [.v d]
  | .vrmax _ d _ _ => [.v d]
  | .vrfadd _ d _ => [.v d]
  | .vrfmax _ d _ => [.v d]
  | .vsel _ d _ _ _ => [.v d]
  | .vmov _ d _ => [.v d]
  | .vext _ d _ _ => [.s d]
  | .vins _ d _ _ => [.v d]
  | .vcmp _ d _ _ _ _ => [.p d]
  | .vmcnt _ d _ => [.s d]
  | .vmfst _ d _ => [.s d]
  | .vld _ d _ _ => [.v d]
  | .vlds _ d _ _ => [.v d]
  | .vldx _ d _ _ _ => [.v d]
  | .vldb _ d _ _ => [.v d]
  | .mma _ d _ => [.z d]
  | .mmag _ d _ => [.z d]
  | .zclr _ d _ _ => [.z d]
  | .zld _ d _ _ _ _ => [.z d]
  | .osm _ d a => [.z d, .z a]
  | .osmf _ d => [.z d]
  | .rbkt _ d _ _ => [.v d]
  | .rbias _ d _ _ _ => [.v d]
  | .fstat _ d _ _ => [.s d]
  | .rbrd _ d => [.s d]
  | .csrr _ d _ => [.s d]
  | _ => []

/-- Supervisor instructions (R249). -/
def supOnly : Instr → Bool
  | .eret _ => true
  | .fremap _ _ => true
  | .plaunch _ _ => true
  | .csrr _ _ _ => true
  | .csrw _ _ _ => true
  | .tlbi _ _ _ => true
  | .tlbsync _ => true
  | .dcinv _ _ => true
  | .l2fl _ _ => true
  | .mscfl _ _ => true
  | .ctxsv _ _ _ => true
  | .ctxld _ _ _ => true
  | .sstep _ _ _ => true
  | .migr _ _ _ => true
  | .promo _ _ _ => true
  | _ => false

/-- The X slot transfers control whatever the state: its group ends with its bundle (R240). -/
def alwaysLeaves : Instr → Bool
  | .br g _ => g == 0#4
  | .brl g _ => g == 0#4
  | .jr g _ => g == 0#4
  | .jrl g _ _ => g == 0#4
  | .trap g _ => g == 0#4
  | .eret g => g == 0#4
  | .exit g => g == 0#4
  | _ => false

/-- Instructions that close an open segment of a user-level strand before they issue (R144). -/
def closesSeg : Instr → Bool
  | .seg _ _ _ => true
  | .rdv _ _ _ => true
  | .exit _ => true
  | .aadd _ _ _ _ => true
  | .amin _ _ _ _ => true
  | .amax _ _ _ _ => true
  | .aminu _ _ _ _ => true
  | .amaxu _ _ _ _ => true
  | .aand _ _ _ _ => true
  | .aor _ _ _ _ => true
  | .axor _ _ _ _ => true
  | .axchg _ _ _ _ => true
  | .acas _ _ _ _ _ => true
  | .sqnew _ _ => true
  | .sqnewReg _ _ _ => true
  | .sqrsv _ _ _ => true
  | .sqcmt _ _ _ _ _ => true
  | .sqabn _ _ _ _ => true
  | .sqfork _ _ _ _ => true
  | .sqdrop _ _ => true
  | .sqlen _ _ => true
  | .sqpos _ _ _ _ _ _ => true
  | .sqsplc _ _ _ _ => true
  | .rprchk _ _ => true
  | .rprins _ _ => true
  | .rprstat _ _ _ => true
  | .cred _ _ => true
  | .cbcst _ => true
  | .cagth _ => true
  | .ca2a _ => true
  | .bara _ _ _ => true
  | .plaunch _ _ => true
  | .chenq _ _ _ => true
  | .chdeq _ _ _ => true
  | .csrw _ _ _ => true
  | .tlbi _ _ _ => true
  | .migr _ _ _ => true
  | .promo _ _ _ => true
  | _ => false

/-- The reads and writes that the group rules look at. -/
def namesOf (i : Instr) : List Reg × List Reg := ((readsOf i).filter (!exempt ·), (writesOf i).filter (!exempt ·))

end Sys2Proof.Machine
end

