-- ==== Sys2Proof/Machine/Bits.lean ====
section
/-! DEFINITION. Bit and byte helpers: little-endian bytes (R5), bit masks, lanes and elements (R307). -/

namespace Sys2Proof.Machine

/-- The value of bytes, the first lowest (R5). -/
def bytesToNat : List Byte → Nat
  | [] => 0
  | b :: t => b.toNat + 256 * bytesToNat t

/-- n bytes of a number, lowest first (R5). -/
def natToBytes : Nat → Nat → List Byte
  | 0, _ => []
  | n + 1, x => BitVec.ofNat 8 x :: natToBytes n (x / 256)

/-- A word with bits hi..lo set. -/
def field (hi lo : Nat) : Word := BitVec.ofNat 64 ((2 ^ (hi - lo + 1) - 1) * 2 ^ lo)

/-- Bits hi..lo of a word as a number. -/
def bits (x : Word) (hi lo : Nat) : Nat := (x.toNat / 2 ^ lo) % 2 ^ (hi - lo + 1)

/-- The word with bits hi..lo replaced. -/
def setBits (x : Word) (hi lo n : Nat) : Word :=
  (x &&& ~~~(field hi lo)) ||| (BitVec.ofNat 64 (n % 2 ^ (hi - lo + 1)) <<< lo)

/-- Bit k of a number. -/
def bitOf (n k : Nat) : Bool := n.testBit k

/-- 1 for true. -/
def b2n (b : Bool) : Nat := if b then 1 else 0

/-- The number of set bits of the low n bits. -/
def popCount (x : Nat) : Nat → Nat
  | 0 => 0
  | n + 1 => x % 2 + popCount (x / 2) n

/-- The largest k with 2^k ≤ x; 0 for 0. -/
def log2n (x : Nat) : Nat := Nat.log2 x

/-- x is a multiple of n. -/
def aligned (x n : Nat) : Bool := x % n == 0

/-- The signed value of a 64-bit address sum: an address plus a signed immediate, modulo 2^64 (R280). -/
def addImm (b : Word) {n : Nat} (imm : BitVec n) : Word := b + imm.signExtend 64

/-- Lane i of a vector register (R5). -/
def lane (x : Vec) (i : Nat) : BitVec 32 := x.extractLsb' (32 * i) 32

/-- A vector register of a lane function. -/
def ofLanes (f : Nat → BitVec 32) : Vec :=
  (List.range 32).foldl (fun (acc : Vec) i => acc ||| ((f i).setWidth 1024 <<< (32 * i))) 0#1024

/-- The bits of the lanes that a 32-bit guard mask names. -/
def laneMask (gm : BitVec 32) : Vec := ofLanes fun i => if gm.getLsbD i then 0xffffffff#32 else 0#32

/-- Element j of width w bits (R307). -/
def elem (x : Vec) (w j : Nat) : BitVec w := x.extractLsb' (w * j) w

/-- A vector register of an element function at width w (R307). -/
def ofElems (w : Nat) (f : Nat → BitVec w) : Vec :=
  (List.range (1024 / w)).foldl (fun (acc : Vec) j => acc ||| ((f j).setWidth 1024 <<< (w * j))) 0#1024

/-- The guarded lanes, lowest first. -/
def guardedLanes (gm : BitVec 32) : List Nat := (List.range 32).filter fun i => gm.getLsbD i

/-- The numbers lo, lo + 1, … below hi. -/
def rangeFrom (lo hi : Nat) : List Nat := (List.range (hi - lo)).map (· + lo)

/-- The even parity of the set bits common to two numbers, over n bits. -/
def parityAnd (x m : Nat) (n : Nat) : Bool := popCount (x &&& m) n % 2 == 1

end Sys2Proof.Machine
end

