-- ==== Sys2Proof/Machine/Csr.lean ====
section
/-! DEFINITION. The registers of the MMIO and CSR window (R52): their offsets, reset values and the access codes of their
fields (R9, Table 0-1). Side effects of writes stand in Registers.lean. -/

namespace Sys2Proof.Machine

/-- Fields of one register by access code: writable bits, bits that a written 1 clears, bits that read back. A bit in none
of them reads zero and ignores writes (RSV), or performs an action (WO). -/
structure Access3 where
  rw : Word
  w1c : Word
  rd : Word
  deriving DecidableEq, Repr, Inhabited

/-- All 64 bits. -/
def allOnes : Word := BitVec.allOnes 64

/-- A register whose readable fields are all RW. -/
def rwReg (m : Word) : Access3 := ⟨m, 0#64, m⟩

/-- A read-only register. -/
def roReg (m : Word) : Access3 := ⟨0#64, 0#64, m⟩

/-- A register that write-one clears. -/
def w1cReg (m : Word) : Access3 := ⟨0#64, m, m⟩

/-- An offset that no register occupies behaves as RSV (R52). -/
def rsvReg : Access3 := ⟨0#64, 0#64, 0#64⟩

/-- The registers of a tower block at block offset o (Tables 3-3 to 3-11, 6-5 to 6-11, 7-10 to 7-12, 8-2, 8-11, 8-13, 12-5,
14-1, 14-2, 19-2, 19-3, 19-6). -/
def towerReg (o : Nat) : Access3 :=
  if o % 8 ≠ 0 then rsvReg
  else if 0x1000 ≤ o ∧ o < 0x1040 then rwReg (field 37 8)
  else if o = 0x1040 then roReg (field 9 8)
  else if o = 0x1080 then ⟨field 8 0, 0#64, field 16 16 ||| field 8 0⟩
  else if o = 0x1100 then rwReg (field 15 0)
  else if 0x1108 ≤ o ∧ o ≤ 0x1120 then rwReg allOnes
  else if o = 0x1128 then roReg (field 2 0)
  else if 0x2000 ≤ o ∧ o < 0x2800 then rwReg allOnes
  else if o = 0x3000 then rwReg (field 6 0)
  else if o = 0x3008 then w1cReg (field 8 8 ||| field 5 0)
  else if o = 0x3010 then rwReg (field 51 12)
  else if o = 0x3018 then roReg (field 5 0)
  else if o = 0x3020 then rwReg (field 5 0)
  else if 0x3040 ≤ o ∧ o < 0x30c0 then rwReg allOnes
  else if o = 0x3200 then ⟨field 63 32, 0#64, field 63 32 ||| field 10 0⟩
  else if 0x3400 ≤ o ∧ o < 0x3420 then w1cReg allOnes
  else if 0x3420 ≤ o ∧ o < 0x3438 then w1cReg allOnes
  else if o = 0x4000 then rwReg (field 43 24 ||| field 16 16 ||| field 14 8 ||| field 0 0)
  else if o = 0x4008 then roReg (field 55 0)
  else if 0x4020 ≤ o ∧ o < 0x4040 then roReg (field 63 6 ||| field 1 1)
  else if o = 0x4048 then w1cReg (field 3 0)
  else if o = 0x5000 then rwReg (field 63 4)
  else if o = 0x5010 then rwReg (field 51 12)
  else if o = 0x5018 then roReg (field 5 0)
  else if o = 0x5020 then rwReg (field 5 0)
  else if o = 0x5028 then ⟨field 0 0, field 1 1, field 1 0⟩
  else if 0x6000 ≤ o ∧ o < 0x7200 then ⟨field 44 32, 0#64, field 63 56 ||| field 44 32 ||| field 12 0⟩
  else if 0x8000 ≤ o ∧ o < 0xb000 then
    (if o % 0x40 = 0 then rwReg (field 31 0) else if o % 0x40 ≤ 0x20 then rwReg allOnes else rsvReg)
  else if 0xc000 ≤ o ∧ o < 0xc800 then
    ⟨0#64, field 53 53, field 63 48 ||| field 41 30 ||| field 15 15 ||| field 7 0⟩
  else if 0xd000 ≤ o ∧ o < 0xe000 then roReg (field 63 8 ||| field 0 0)
  else if 0x10000 ≤ o ∧ o < 0x10058 then roReg (field 63 16)
  else if o = 0x10080 then rwReg (field 7 0)
  else if o = 0x10100 then ⟨field 63 32, 0#64, field 63 32 ||| field 15 0⟩
  else if 0x18000 ≤ o ∧ o < 0x18100 then rwReg allOnes
  else if 0x18100 ≤ o ∧ o < 0x18200 then rwReg (field 8 8 ||| field 5 0)
  else if 0x20000 ≤ o ∧ o < 0x26000 then
    (if o % 0x80 < 0x40 then rwReg allOnes else rwReg (field 15 12 ||| field 8 8 ||| field 5 0))
  else rsvReg

/-- The registers of the module block at window offset o (Tables 4-3, 4-4, 18-3, 18-4, 18-7, 18-8, 19-5). -/
def moduleReg (o : Nat) : Access3 :=
  if o % 8 ≠ 0 then rsvReg
  else if o = 0x800010 then roReg (field 15 0)
  else if o = 0x800100 then rwReg (field 51 12 ||| field 0 0)
  else if o = 0x800108 then rwReg (field 39 24 ||| field 22 0)
  else if o = 0x800200 then rwReg (field 8 8 ||| field 0 0)
  else if o = 0x800300 then ⟨field 63 6 ||| field 2 2, 0#64, field 63 6 ||| field 2 1⟩
  else if 0x801000 ≤ o ∧ o < 0x8010c0 then ⟨field 0 0, 0#64, field 23 16 ||| field 1 0⟩
  else rsvReg

/-- The access codes of the register at a window offset (R52). -/
def csrAccess (off : Nat) : Access3 := if off < 0x800000 then towerReg (off % 0x100000) else moduleReg off

/-- The value of a register after module reset: the Reset columns (R9); CCNT, TCNT and counters without one read 0
(DESIGN CHOICE, log 6). -/
def csrReset (off : Nat) : Word :=
  if 0x800000 ≤ off then 0#64
  else
    let o := off % 0x100000
    if 0x1000 ≤ o ∧ o < 0x1040 ∧ o % 8 = 0 then powerOnMasks.getD ((o - 0x1000) / 8) 0#64
    else if o = 0x1100 then 0x1000#64
    else if o = 0x3000 then 0x3e#64
    else if o = 0x3200 then 0x0000400000000000#64
    else if o = 0x4000 then 0x0000020000014800#64
    else if o = 0x5028 then 0x1#64
    else if o = 0x10100 then 0x320#64
    else if 0x20000 ≤ o ∧ o < 0x26000 ∧ 0x40 ≤ o % 0x80 ∧ o % 8 = 0 then 0xf000#64
    else 0#64

/-- The stored value of the register at a window offset. -/
def State.reg (s : State) (off : Nat) : Word := sparseGet csrReset s.csr off

/-- The state with a register's stored value replaced, by the hardware's own hand. -/
def State.setReg (s : State) (off : Nat) (x : Word) : State := { s with csr := sparseSet csrReset s.csr off x }

/-- Window offset of tower T's block offset o (R52). -/
def tb (T o : Nat) : Nat := T * 0x100000 + o

/-- What a plain write leaves in a register: its RW fields take the written bits, each written 1 clears a W1C bit, every
other bit stays (Table 0-1). -/
def plainWrite (a : Access3) (old x : Word) : Word := ((old &&& ~~~a.rw) ||| (x &&& a.rw)) &&& ~~~(x &&& a.w1c)

/-! ## Offsets of the registers that the machine itself reads -/

/-- HCOMMIT of tower T (R81). -/
def oHCOMMIT (T : Nat) : Nat := tb T 0x1040
/-- RTRCTL of tower T (R83). -/
def oRTRCTL (T : Nat) : Nat := tb T 0x1080
/-- SDCAP of tower T (R77). -/
def oSDCAP (T : Nat) : Nat := tb T 0x1100
/-- SLHIT. -/
def oSLHIT (T : Nat) : Nat := tb T 0x1108
/-- SLMISS. -/
def oSLMISS (T : Nat) : Nat := tb T 0x1110
/-- SLWB. -/
def oSLWB (T : Nat) : Nat := tb T 0x1118
/-- SLFLUSH of tower T (R77). -/
def oSLFLUSH (T : Nat) : Nat := tb T 0x1120
/-- SLEMST of tower T (R152). -/
def oSLEMST (T : Nat) : Nat := tb T 0x1128
/-- ERRCTL of tower T (R141). -/
def oERRCTL (T : Nat) : Nat := tb T 0x3000
/-- ERRSTAT of tower T. -/
def oERRSTAT (T : Nat) : Nat := tb T 0x3008
/-- ERRBASE of tower T. -/
def oERRBASE (T : Nat) : Nat := tb T 0x3010
/-- ERRHEAD of tower T. -/
def oERRHEAD (T : Nat) : Nat := tb T 0x3018
/-- ERRTAIL of tower T. -/
def oERRTAIL (T : Nat) : Nat := tb T 0x3020
/-- CECNTk of tower T. -/
def oCECNT (T k : Nat) : Nat := tb T (0x3040 + 8 * k)
/-- FQUARL of tower T (R151). -/
def oFQUAR (T L : Nat) : Nat := tb T (0x3400 + 8 * L)
/-- NQUARn of tower T. -/
def oNQUAR (T n : Nat) : Nat := tb T (0x3420 + 8 * n)
/-- DSPCTL of tower T (R190). -/
def oDSPCTL (T : Nat) : Nat := tb T 0x4000
/-- DSPBUSY of tower T. -/
def oDSPBUSY (T : Nat) : Nat := tb T 0x4008
/-- PLCTLi of tower T. -/
def oPLCTL (T i : Nat) : Nat := tb T (0x4020 + 8 * i)
/-- DSPHOLD of tower T (R211). -/
def oDSPHOLD (T : Nat) : Nat := tb T 0x4048
/-- TVEC of tower T (R193). -/
def oTVEC (T : Nat) : Nat := tb T 0x5000
/-- FNBASE of tower T (R213). -/
def oFNBASE (T : Nat) : Nat := tb T 0x5010
/-- FNHEAD of tower T. -/
def oFNHEAD (T : Nat) : Nat := tb T 0x5018
/-- FNTAIL of tower T. -/
def oFNTAIL (T : Nat) : Nat := tb T 0x5020
/-- FNCTL of tower T. -/
def oFNCTL (T : Nat) : Nat := tb T 0x5028
/-- BHELD of tower core c of tower T (R66). -/
def oBHELD (T c : Nat) : Nat := tb T (0x8000 + 0x40 * c)
/-- BHOLDn of tower core c of tower T. -/
def oBHOLD (T c n : Nat) : Nat := tb T (0x8000 + 0x40 * c + 8 + 8 * n)
/-- FPLST of plot P of tower T (R328). -/
def oFPLST (T P : Nat) : Nat := tb T (0xc000 + 8 * P)
/-- FORG of half h of plot P. -/
def oFORG (T P h : Nat) : Nat := tb T (0xd000 + 16 * P + 8 * h)
/-- THFCi of tower T (R426). -/
def oTHFC (T i : Nat) : Nat := tb T (0x10000 + 8 * i)
/-- THCLOSE of tower T (R427). -/
def oTHCLOSE (T : Nat) : Nat := tb T 0x10080
/-- CLKST of tower T (R425). -/
def oCLKST (T : Nat) : Nat := tb T 0x10100
/-- BOOTST (R429). -/
def oBOOTST : Nat := 0x800010
/-- TRROOT (R90). -/
def oTRROOT : Nat := 0x800100
/-- TRCFG (R90). -/
def oTRCFG : Nat := 0x800108
/-- HOSTCTL (R415). -/
def oHOSTCTL : Nat := 0x800200
/-- MSIGEN (R415). -/
def oMSIGEN : Nat := 0x800208
/-- ATTCTL (R422). -/
def oATTCTL : Nat := 0x800300
/-- ALCTLp (Table 18-7). -/
def oALCTL (p : Nat) : Nat := 0x801000 + 8 * p

end Sys2Proof.Machine
end

