-- ==== Sys2Proof/Machine/Mem.lean ====
section
/-! DEFINITION. Memory: the address map and its windows (R33 to R45), locations, bytes, and poison and CRC marks (R136 to R138). -/

namespace Sys2Proof.Machine

/-! ## Windows and locations -/

/-- The memories of the address map (Table 2-2). -/
inductive Win where
  | paged | scratch | astore | bazaar | entrepot | fieldv | mailbox | csr
  deriving DecidableEq, Repr, Inhabited

/-- Size of one region of locations; every region is numbered from a multiple of it. -/
def regionSize : Nat := 2 ^ 68

/-- The region of a location: 0 HBM4, 1 scratchpads, 2 A-stores, 3 bazaars, 4 entrepôts, 5 field storage views, 6 mailboxes,
7 host memory, 8 + M memory of module M. -/
def regionOf (l : Nat) : Nat := l / regionSize

/-- Location of scratchpad offset o of core G (R39). -/
def locScratch (G o : Nat) : Nat := regionSize + G * 0x80000 + o
/-- Location of A-store byte offset o of core G (R40). -/
def locAstore (G o : Nat) : Nat := 2 * regionSize + G * 0x40000 + o
/-- Location of bazaar offset o of cluster c, module-wide (R41). -/
def locBazaar (c o : Nat) : Nat := 3 * regionSize + c * 0x800000 + o
/-- Location of entrepôt offset o of tower T (R42). -/
def locEntrepot (T o : Nat) : Nat := 4 * regionSize + T * 0x8000000 + o
/-- Location of storage-view offset o of tower T (R43). -/
def locField (T o : Nat) : Nat := 5 * regionSize + T * 0x40000000 + o
/-- Location of mailbox offset o, tower T at 0x1000 T (R50). -/
def locMailbox (o : Nat) : Nat := 6 * regionSize + o
/-- Location of host address a (R97). -/
def locHost (a : Nat) : Nat := 7 * regionSize + a
/-- Location of physical address a of module M (R99). -/
def locModule (M a : Nat) : Nat := (8 + M) * regionSize + a

/-- Tower of core G (R27). -/
def twrOf (G : Nat) : Nat := G / 192
/-- Module-wide cluster of core G. -/
def cluOf (G : Nat) : Nat := G / 24
/-- Core number within its tower, 24C + K. -/
def tcoreOf (G : Nat) : Nat := G % 192

/-- First address of the fixed region (R33). -/
def fixedBase : Nat := 0xfffffff000000000

/-- The window that holds address a for a strand of core G, and the byte's location (for the register window, its offset);
nothing where the map has a reserved or unused range (R34, R35, R38, R41, R42, R50, R52). -/
def decodeByte (G a : Nat) : Option (Win × Nat) :=
  if a < fixedBase then some (.paged, a)
  else if a < 0xfffffff200000000 then
    some (.fieldv, locField ((a - fixedBase) / 0x40000000) ((a - fixedBase) % 0x40000000))
  else if a < 0xffffffff80000000 then none
  else if a < 0xffffffffc0000000 then
    let o := a - 0xffffffff80000000
    if o % 0x8000000 < 0x6000000 then some (.entrepot, locEntrepot (o / 0x8000000) (o % 0x8000000)) else none
  else if a < 0xffffffffe0000000 then none
  else if a < 0xfffffffff0000000 then
    let o := a - 0xffffffffe0000000
    if o < 0x600000 then some (.bazaar, locBazaar (cluOf G) o) else none
  else if a < 0xfffffffff0080000 then some (.scratch, locScratch G (a - 0xfffffffff0000000))
  else if a < 0xfffffffff0100000 then none
  else if a < 0xfffffffff0140000 then some (.astore, locAstore G (a - 0xfffffffff0100000))
  else if a < 0xfffffffffe000000 then none
  else if a < 0xffffffffff000000 then
    (if a - 0xfffffffffe000000 < 0x8000 then some (.mailbox, locMailbox (a - 0xfffffffffe000000)) else none)
  else if a < 0x10000000000000000 then
    (if a - 0xffffffffff000000 < 0xc00000 then some (.csr, a - 0xffffffffff000000) else none)
  else none

/-- The tower whose window of the field view or entrepôt a location lies in; other windows count as one. -/
def winPart (w : Win) (l : Nat) : Nat :=
  match w with
  | .fieldv => (l - 5 * regionSize) / 0x40000000
  | .entrepot => (l - 4 * regionSize) / 0x8000000
  | _ => 0

/-- The window of n bytes from address a, all in one window or all in the paged region (R35); nothing is BOUND. -/
def decodeRange (G a n : Nat) : Option (Win × Nat) :=
  match decodeByte G a, decodeByte G (a + (n - 1)) with
  | some (w, l), some (w', l') => if w = w' ∧ winPart w l = winPart w' l' then some (w, l) else none
  | _, _ => none

/-- A row of a remote side lies wholly in the paged region or the used part of one window (R35, R54, Table 2-4). -/
def rowWhole (G : Nat) (a b : Int) : Bool :=
  decide (0 ≤ a ∧ b ≤ 2 ^ 64) && (match decodeRange G a.toNat (b - a).toNat with
    | some (.fieldv, l) => decide ((l - 5 * regionSize) % 0x8000 + (b - a).toNat ≤ 0x4200)
    | some _ => true
    | none => false)

/-- n bytes that a command names lie in a reserved or unused range, or not in one window (R35, R54). -/
def badRange (G : Nat) (a : Word) (n : Nat) : Bool := !rowWhole G a.toNat (a.toNat + n : Nat)

/-- Local memory: the own scratchpad and A-store (R36, R113). -/
def Win.isLocal : Win → Bool
  | .scratch => true
  | .astore => true
  | _ => false

/-! ## Bytes -/

/-- Granule of poison at a location: 8 B in the scratchpads and A-stores, 64 B elsewhere (R138). -/
def granule (l : Nat) : Nat := if regionOf l = 1 ∨ regionOf l = 2 then 8 else 64

/-- The 64 B line of a location. -/
def lineOf (l : Nat) : Nat := l / 64 * 64

/-- The tower of an HBM4 location (R55). -/
def hbmTower (l : Nat) : Nat := l / 0x4000000000

/-- An HBM4 location of this module (R55). -/
def isHbm (l : Nat) : Bool := decide (l < 0x20000000000)

/-- What an unlisted byte of memory reads as: 0 (log 5). -/
def memDefault (_l : Nat) : Byte := 0#8

/-- The canonical form of memory. -/
abbrev Memory.wf (m : Memory) : Prop := sparseWf memDefault m = true

/-- A byte of HBM4 that no write has defined since a commit of the hash masks holds an open value (R82, log 12). -/
def State.undefinedAt (s : State) (l : Nat) : Bool :=
  isHbm l && decide (s.epoch.getD (hbmTower l) 0 ≠ 0) && !setHas s.since l

/-- One byte as its memory holds it. -/
def State.byteAt (s : State) (l : Nat) : Byte :=
  if s.undefinedAt l then Config.freeByte (s.epoch.getD (hbmTower l) 0 * regionSize + l) else sparseGet memDefault s.mem l

/-- n bytes from a location. -/
def State.bytesAt (s : State) (l n : Nat) : List Byte := (List.range n).map fun k => s.byteAt (l + k)

/-- n bytes as a little-endian number (R5). -/
def State.natAt (s : State) (l n : Nat) : Nat := bytesToNat (s.bytesAt l n)

/-- A doubleword (R5). -/
def State.wordAt (s : State) (l : Nat) : Word := BitVec.ofNat 64 (s.natAt l 8)

/-- One byte replaced. -/
def State.putByte (s : State) (l : Nat) (b : Byte) : State :=
  { s with
    mem := sparseSet memDefault s.mem l b
    since := if isHbm l && decide (s.epoch.getD (hbmTower l) 0 ≠ 0) then setIns s.since l else s.since }

/-- Bytes replaced from a location on. -/
def State.putBytes (s : State) (l : Nat) : List Byte → State
  | [] => s
  | b :: t => (s.putByte l b).putBytes (l + 1) t

/-! ## Poison and CRC (R136 to R138) -/

/-- A granule that n bytes from l touch is poisoned. -/
def State.poisonedAt (s : State) (l n : Nat) : Bool :=
  s.poison.any fun g => decide (g < l + n) && decide (l < g + granule g)

/-- A line that n bytes from l touch fails its CRC: the CRC held with it is not that of its bytes (R132, R136). -/
def State.badCrcAt (s : State) (l n : Nat) : Bool :=
  s.badcrc.any fun g => decide (g.1 < l + n) && decide (l < g.1 + 64)

/-- One step of the reflected CRC-32C (R136). -/
def crcBit (c : BitVec 32) : BitVec 32 := if c.getLsbD 0 then (c >>> 1) ^^^ 0x82f63b78#32 else c >>> 1

/-- The CRC-32C of bytes (R136). -/
def crc32c (bs : List Byte) : BitVec 32 :=
  ~~~(bs.foldl (fun (c : BitVec 32) b =>
    (List.range 8).foldl (fun (d : BitVec 32) _ => crcBit d) (c ^^^ b.setWidth 32)) 0xffffffff#32)

/-- The CRC held with the line of a location: that of its bytes, but where an error has changed them unseen (R132, R136). -/
def State.crcOf (s : State) (l : Nat) : BitVec 32 :=
  (findKey s.badcrc (l / 64 * 64)).getD (crc32c (s.bytesAt (l / 64 * 64) 64))

/-- An error that the line's code does not see changes its bytes while its CRC stays (R132, R136). -/
def State.miscorrect (s : State) (l : Nat) (bs : List Byte) : State :=
  let a := l / 64 * 64
  let c := s.crcOf a
  let t := s.putBytes a (bs.take 64)
  { t with badcrc := if crc32c (t.bytesAt a 64) = c then eraseKey t.badcrc a else putKey t.badcrc a c }

/-- The difference between the CRC held with a line and that of its bytes, as SYND records it (R140). -/
def State.crcSynd (s : State) (l : Nat) : Word :=
  (s.crcOf l ^^^ crc32c (s.bytesAt (l / 64 * 64) 64)).setWidth 64

/-- The granule of a location marked poisoned. -/
def State.setPoison (s : State) (l : Nat) : State := { s with poison := setIns s.poison (l / granule l * granule l) }

/-- The granule of a location no longer poisoned. -/
def State.clearPoison (s : State) (l : Nat) : State := { s with poison := setDel s.poison (l / granule l * granule l) }

/-- Every granule that n bytes touch marked poisoned. -/
def State.poisonRange (s : State) (l n : Nat) : State :=
  if n = 0 then s
  else
    let g := granule l
    (rangeFrom (l / g) ((l + n - 1) / g + 1)).foldl (fun (t : State) k => { t with poison := setIns t.poison (k * g) }) s

/-- A write into one granule: a whole one clears poison and makes a new CRC; a part of a poisoned one changes nothing, and a
part of a line whose CRC fails poisons it and is not applied (R136, R138). -/
def State.writeGranule (s : State) (l : Nat) (bs : List Byte) : State :=
  let g := l / granule l * granule l
  if bs.length = granule l then
    { (s.putBytes l bs) with poison := setDel s.poison g, badcrc := eraseKey s.badcrc g }
  else if setHas s.poison g then s
  else if (findKey s.badcrc g).isSome then { s with poison := setIns s.poison g, badcrc := eraseKey s.badcrc g }
  else s.putBytes l bs

/-- A write of bytes, granule by granule (R138). -/
def State.writeMem (s : State) (l : Nat) (bs : List Byte) : Nat → State
  | 0 => s
  | fuel + 1 =>
    match bs with
    | [] => s
    | _ =>
      let k := granule l - l % granule l
      ((s.writeGranule l (bs.take k))).writeMem (l + k) (bs.drop k) fuel

/-- A write of bytes at a location (R109, R138). -/
def State.write (s : State) (l : Nat) (bs : List Byte) : State := s.writeMem l bs (bs.length + 1)

/-! ## Lines and monitors -/

/-- Lines that n bytes from l touch. -/
def linesOf (l n : Nat) : List Nat :=
  if n = 0 then [] else (rangeFrom (l / 64) ((l + n - 1) / 64 + 1)).map (· * 64)

/-- Contexts whose monitor watches a line that is written read it again (R291). -/
def State.wakeMonitors (s : State) (l n : Nat) : State :=
  let hit := fun (m : Option Monitor) => match m with
    | some a => decide (lineOf a.loc ≤ l + n - 1) && decide (l < lineOf a.loc + 64)
    | none => false
  let own := if hit s.ctx.mon then [({ i := .monitorReread, x := 4 * s.here + s.core.cur.toNat } : Ev)] else []
  let more := (s.ctxs.filter fun c => hit c.2.mon).map fun c => ({ i := .monitorReread, x := c.1 } : Ev)
  if own ++ more = [] then s else { s with agenda := s.agenda ++ own ++ more }

end Sys2Proof.Machine
end

