-- ==== Sys2Proof/Machine/Cache.lean ====
section
/-! DEFINITION. What stands between an access and the memory of its home: the S-layer (R73 to R77), the L1, instruction and L2
caches with their directory (R68 to R70, R109, R110, R155, log 11), and requests that have to wait (R81, R152). -/

namespace Sys2Proof.Machine

/-! ## Clocks (R425) -/

/-- The cycles that tower T has counted (R425). -/
def State.cycOf (s : State) (T : Nat) : Word := s.cyc - s.lag.getD T 0#64

/-- The same for the tower of context x. -/
def State.cycAt (s : State) (x : Nat) : Word := s.cycOf (x / 768)

/-! ## What counters count (R432) -/

/-- The step has met something n times. -/
def State.meet (s : State) (src : Nat) (at' : Counted) (ctx : Option Nat) (n : Nat) : State :=
  { s with hits := ⟨src, at', ctx, n⟩ :: s.hits }

/-- The context of core G that the step moves: that of the bundle, or of the event's access. -/
def State.movedCtx (s : State) (G : Nat) : Option Nat :=
  if s.ev.i = .nop then (if G = s.here then some s.core.cur.toNat else none)
  else if s.ev.x / 4 = G then some (s.ev.x % 4) else none

/-- Core G has met something in an access of the context that the step moves. -/
def State.meetCore (s : State) (src G : Nat) : State := s.meet src (.core G) (s.movedCtx G) 1

/-! ## Places -/

/-- Tower and tower-wide plot of a storage-view location (R28, Table 2-3). -/
def plotOf (l : Nat) : Nat × Nat :=
  let o := l - 5 * regionSize
  (o / 0x40000000, o / 0x400000 % 256)

/-- The half of a storage-view location. -/
def halfOf (l : Nat) : Nat := (l - 5 * regionSize) / 0x8000 % 2

/-- A byte lies in the used part of its half's stride: weights and scales (Table 2-4). -/
def fieldUsed (l : Nat) : Bool := decide ((l - 5 * regionSize) % 0x8000 < 0x4200)

/-- The half of a storage-view location is in storage mode with no reload (R46). -/
def State.halfOpen (s : State) (l : Nat) : Bool :=
  let w := s.reg (oFPLST (plotOf l).1 (plotOf l).2)
  bits w (4 * halfOf l + 3) (4 * halfOf l + 2) == 0

/-- The tower whose memory holds a location: HBM4, entrepôt, field view and mailbox can be fenced (R155). -/
def towerOfLoc (l : Nat) : Option Nat :=
  match regionOf l with
  | 0 => some (hbmTower l)
  | 4 => some ((l - 4 * regionSize) / 0x8000000)
  | 5 => some ((l - 5 * regionSize) / 0x40000000)
  | 6 => some ((l - 6 * regionSize) / 0x1000)
  | _ => none

/-- Port p is up and leads to module M (R419). -/
def State.leadsTo (s : State) (M p : Nat) : Bool := (s.reg (oALCTL p)).getLsbD 1 && bits (s.reg (oALCTL p)) 23 16 == M

/-- A port to module M is up (R419). -/
def State.linkTo (s : State) (M : Nat) : Bool := (List.range 24).any (s.leadsTo M)

/-- The port that a request to a line of another module leaves on: of those up to it, in port order, the one that the line's lane chooses (R419). -/
def State.portFor (s : State) (l : Nat) : Option Nat :=
  let ps := (List.range 24).filter (s.leadsTo (regionOf l - 8))
  ps[Config.lane (l / 64) % ps.length]?

/-- The location is memory of another module to which no port is up, or the request for it was on a port that went down (R420). -/
def State.unlinked (s : State) (l : Nat) : Bool :=
  decide (8 ≤ regionOf l) && (!s.linkTo (regionOf l - 8) || s.cut.any (· == lineOf l))

/-- The location belongs to a fenced tower or to a module out of reach: loads find poison and stores are dropped (R155, R420). -/
def State.isFenced (s : State) (l : Nat) : Bool :=
  match towerOfLoc l with
  | some T => s.fenced.getLsbD T
  | none => s.unlinked l

/-- The mailbox words that a device store reaches: MBACK and MBSTAT; the others ignore it (Table 2-5). -/
def mailboxOpen (l : Nat) : Bool :=
  let o := (l - 6 * regionSize) % 0x1000
  decide (o = 0x10 ∨ o = 0x18)

/-- A storage-view store: the origin of the half is forgotten; parity follows the bytes (R48). -/
def State.dropOrigin (s : State) (l : Nat) : State :=
  if regionOf l = 5 then
    let T := (plotOf l).1
    let P := (plotOf l).2
    let h := halfOf l
    let s1 := s.setReg (oFORG T P h) (s.reg (oFORG T P h) &&& ~~~1#64)
    s1.setReg (oFPLST T P) (s1.reg (oFPLST T P) &&& ~~~(1#64 <<< (4 * h)))
  else s

/-! ## Pseudo-channels and the sets of the S-layer (R73, R78) -/

/-- The lowest set bit of a mask. -/
def keyBit (m : Word) : Nat := ((List.range 64).find? fun k => m.getLsbD k).getD 64

/-- The pseudo-channel of an HBM4 location under the active hash (R78). -/
def State.psi (s : State) (l : Nat) : Nat :=
  let ms := s.hactive.getD (hbmTower l) powerOnMasks
  (List.range 8).foldl (fun acc i => acc + b2n (parityAnd (l % 0x4000000000) (ms.getD i 0#64).toNat 38) * 2 ^ i) 0

/-- The set of the S-layer that holds an HBM4 location, numbered by tower, slice and the low nine bits of the granule's index in its
pseudo-channel (R73, R78). DESIGN CHOICE: log 11. -/
def State.sliceSet (s : State) (l : Nat) : Nat :=
  let ks := (s.hactive.getD (hbmTower l) powerOnMasks).toList.map keyBit
  let idx := ((List.range 30).map (· + 8)).filter fun k => !ks.any (· == k)
  (hbmTower l * 256 + s.psi l) * 512 + ((idx.take 9).zipIdx.foldl (fun acc q => acc + b2n (bitOf l q.1) * 2 ^ q.2) 0)

/-! ## Counters of the S-layer (R77) -/

/-- A counter raised by n. -/
def State.countUp (s : State) (o n : Nat) : State := if n = 0 then s else s.setReg o (s.reg o + BitVec.ofNat 64 n)

/-- One sector request counted by its pseudo-channel, or as an access of the entrepôt (R77, R432). -/
def State.countSector (s : State) (l : Nat) : State :=
  if isHbm l then s.countUp (tb (hbmTower l) (0x2000 + 8 * s.psi l)) 1
  else if regionOf l = 4 then s.meet 0x07 (.tower ((l - 4 * regionSize) / 0x8000000)) none 1 else s

/-- n sectors of tower T read or written at its HBM4: 8 or 9 (R432). -/
def State.meetHbm (s : State) (src T n : Nat) : State := s.meet src (.tower T) none n

/-- n dirty sectors of tower T written back by eviction or by the cap (R77, R432). -/
def State.wroteBack (s : State) (T n : Nat) : State := (s.countUp (oSLWB T) n).meetHbm 9 T n

/-! ## Sectors (R73 to R76, Table 6-12) -/

/-- The S-layer of the location's tower takes no new lines: an emergency is in progress (R152). -/
def State.layerClosed (s : State) (l : Nat) : Bool := bits (s.reg (oSLEMST (hbmTower l))) 2 0 != 0

/-- The sector of a location is valid in its slice. -/
def State.sectorValid (s : State) (l : Nat) : Bool :=
  ((findKey s.slayer (s.sliceSet l)).getD []).any fun w => w.granule == l / 256 * 256 && w.valid.getLsbD (l / 64 % 4)

/-- The sector of a location becomes valid; a full set gives up a line, which one the spec leaves open, and writes its dirty
sectors back (R73, R77). -/
def State.allocSector (s : State) (l : Nat) : State :=
  let k := s.sliceSet l
  let g := l / 256 * 256
  let bit := 1#4 <<< (l / 64 % 4)
  let ws := (findKey s.slayer k).getD []
  if ws.any (·.granule == g) then
    { s with slayer := putKey s.slayer k (ws.map fun w => if w.granule == g then { w with valid := w.valid ||| bit } else w) }
  else if ws.length < 16 then { s with slayer := putKey s.slayer k (ws ++ [⟨g, bit⟩]) }
  else
    let v := (ws.getD (Config.freeIndex s.free % 16) default).granule
    let out := fun (a : Nat) => a / 256 * 256 == v
    { (s.wroteBack (hbmTower l) (s.sdirty.filter out).length) with
      slayer := putKey s.slayer k ((ws.filter fun w => w.granule != v) ++ [⟨g, bit⟩])
      sdirty := s.sdirty.filter fun a => !out a
      free := s.free + 1 }

/-- A sector request that reads: it hits or misses, and where keep holds a miss allocates (R73, R77). -/
def State.sectorRead (s : State) (l : Nat) (keep : Bool) : State :=
  if !isHbm l then s.countSector l
  else
    let t := s.countSector l
    if s.layerClosed l then t.meetHbm 8 (hbmTower l) 1
    else if s.sectorValid l then t.countUp (oSLHIT (hbmTower l)) 1
    else
      let u := (t.countUp (oSLMISS (hbmTower l)) 1).meetHbm 8 (hbmTower l) 1
      if keep then u.allocSector l else u

/-- The sector requests of n bytes read. -/
def State.sectorReads (s : State) (l n : Nat) (keep : Bool) : State :=
  (linesOf l n).foldl (fun (t : State) a => t.sectorRead a keep) s

/-- The dirty cap in force (Table 3-6). -/
def State.dirtyCap (s : State) (T : Nat) : Nat := min (bits (s.reg (oSDCAP T)) 15 0) 32768

/-- The list of dirty sectors with the oldest sector of a slice written back when it holds more than cap (R75). -/
def capSectors (f : Nat → Nat) (slice cap : Nat) (l : List Nat) : List Nat :=
  if l.length ≤ cap || decide ((l.filter fun a => f a == slice).length ≤ cap) then l
  else match l.find? fun a => f a == slice with
    | some a => l.erase a
    | none => l

/-- A sector written: it allocates, and the sector is dirty; a cap of SDCAP sectors in a slice writes back the sector that
became dirty first, a rewrite not renewing it, and a cap of 0 writes through, which no counter of Table 3-5 counts (R73, R75, R77); old holds the bytes of its HBM4 line (R153).
DESIGN CHOICE: log 11. -/
def State.sectorDirty (s : State) (l : Nat) (old : List Byte) : State :=
  if !isHbm l then s
  else
    if s.layerClosed l then s.meetHbm 9 (hbmTower l) 1
    else
      let T := hbmTower l
      let a := lineOf l
      let u := s.allocSector l
      if setHas u.sdirty a then u
      else if u.dirtyCap T = 0 then u.meetHbm 9 T 1
      else
        let key := fun b => hbmTower b * 256 + u.psi b
        let d := capSectors key (key a) (u.dirtyCap T) (u.sdirty ++ [a])
        { (u.wroteBack T (u.sdirty.length + 1 - d.length)) with sdirty := d, sold := putKey u.sold a old }

/-- A sector request that writes (R77). -/
def State.sectorOver (s : State) (l : Nat) (old : List Byte) : State := (s.countSector l).sectorDirty l old

/-- The same for a line about to be written at its home. -/
def State.sectorWrite (s : State) (l : Nat) : State := s.sectorOver l (s.bytesAt (lineOf l) 64)

/-- Requests to the HBM4 of the location's tower wait: a commit is in progress or the S-layer is in retention (R81,
R152). -/
def State.stalled (s : State) (l : Nat) : Bool :=
  isHbm l && ((s.reg (tb (hbmTower l) 0x1040)).getLsbD 8 || bits (s.reg (oSLEMST (hbmTower l))) 2 0 == 3)

/-! ## The directory and the caches (R68 to R70, R109, R110, R304) -/

/-- Core G's L1 writes back a line that it holds modified (R432). -/
def State.meetBack (s : State) (G a : Nat) : State :=
  if (s.dirty.any fun d => d.1 == a) && s.own.any (· == (a, G)) && s.copies.any (· == (G, a)) then s.meetCore 0x22 G else s

/-- A modified line written back to its home: its copy stays, clean (R304). -/
def State.cleanLine (s : State) (l : Nat) : State :=
  match s.dirty.find? fun d => d.1 == lineOf l with
  | some d => ({ (((s.own.find? fun c => c.1 == lineOf l).map fun c => s.meetBack c.2 (lineOf l)).getD s) with dirty := eraseKey s.dirty (lineOf l) } : State).sectorOver (lineOf l) d.2
  | none => s

/-- The L1 of core G no longer holds a line; an invalidation of it that the core has not applied has no copy to show. -/
def State.dropL1 (s : State) (G a : Nat) : State :=
  { (s.meetBack G a) with
    copies := s.copies.filter fun c => !(c.1 == G && c.2 == a)
    inval := s.inval.filter fun v => !(v.core == G && v.line == a) }

/-- The L2 of tower T no longer holds a line, nor do the L1s whose tags it keeps; a line that the tower owned, or that no tower holds any more, is
written back (R70). -/
def State.dropL2 (s : State) (T a : Nat) : State :=
  let t := { (s.own.foldl (fun (u : State) c => if c.1 == a && twrOf c.2 == T then u.meetBack c.2 a else u) s) with
    l2 := s.l2.filter fun c => !(c.1 == T && c.2 == a)
    copies := s.copies.filter fun c => !(twrOf c.1 == T && c.2 == a)
    icopies := s.icopies.filter fun c => !(twrOf c.1 == T && c.2 == a)
    inval := s.inval.filter fun v => !(twrOf v.core == T && v.line == a)
    own := s.own.filter fun c => !(c.1 == a && twrOf c.2 == T) }
  if (t.l2.any fun c => c.2 == a) && !s.own.any (fun c => c.1 == a && twrOf c.2 == T) then t else t.cleanLine a

/-- A modified line of an HBM4 that takes no request now: its write-back would have to wait (R81). -/
def State.pinned (s : State) (a : Nat) : Bool := s.stalled a && s.dirty.any fun d => d.1 == a

/-- A line enters the L2 of tower T: 16 ways, by the line's number over 49,152 sets; a full set gives up a line, which one the spec
leaves open, but none that cannot be written back now; where none can go the line is not kept (R70, R81, log 11). -/
def State.takeL2 (s : State) (T a : Nat) : State :=
  if s.l2.any (fun c => c.1 == T && c.2 == a) then s
  else
    let ws := s.l2.filter fun c => c.1 == T && c.2 / 64 % 49152 == a / 64 % 49152
    let out := ws.filter fun c => !s.pinned c.2
    if ws.length < 16 then { s with l2 := s.l2 ++ [(T, a)] }
    else match out with
      | [] => s
      | c :: _ =>
        let t := ({ s with free := s.free + 1 } : State).dropL2 T (out.getD (Config.freeIndex s.free % out.length) c).2
        { t with l2 := t.l2 ++ [(T, a)] }

/-- A line read through the L2 of tower T: by an L1, an instruction cache, a copy engine or a walker (R70). -/
def State.readL2 (s : State) (T a : Nat) : State :=
  if s.l2.any (fun c => c.1 == T && c.2 == a) then s.meet 0x05 (.tower T) none 1
  else ((s.meet 0x06 (.tower T) none 1).sectorRead a true).takeL2 T a

/-- A line enters the L1 of core G: 8 ways, by the line's number over 128 sets (R68, log 11). -/
def State.fillL1 (s : State) (G a : Nat) : State :=
  if s.copies.any (fun c => c.1 == G && c.2 == a) then s.meetCore 0x20 G
  else
    let t := (s.meetCore 0x21 G).readL2 (twrOf G) a
    let ws := t.copies.filter fun c => c.1 == G && c.2 / 64 % 128 == a / 64 % 128
    let u := if ws.length < 8 then t
      else ({ t with free := t.free + 1 } : State).dropL1 G (ws.getD (Config.freeIndex t.free % 8) (0, 0)).2
    { u with copies := u.copies ++ [(G, a)] }

/-- A line enters the instruction cache of core G, which holds 512 (R20, R69, log 11). -/
def State.fillICache (s : State) (G a : Nat) : State :=
  if s.icopies.any (fun c => c.1 == G && c.2 == a) then s
  else
    let t := s.readL2 (twrOf G) a
    let ws := t.icopies.filter fun c => c.1 == G
    let u := if ws.length < 512 then t
      else { t with free := t.free + 1, icopies := t.icopies.filter (· != ws.getD (Config.freeIndex t.free % 512) (0, 0)) }
    { u with icopies := u.icopies ++ [(G, a)] }

/-- The number of the strand with a tag on core G, by which its invalidations are told from others' (R63, R116). -/
def strandOn (G : Nat) (tag : BitVec 8) : Nat := 256 * G + tag.toNat

/-- The number that no strand has: a store that an engine, the module or the host makes. -/
def noStrand : Nat := 256 * 1536

/-- Invalidations of a line sent to cores that hold a copy, for a store of strand src, whose own core sees it at once; one that a core has not
applied yet stands before it (R109, R110). -/
def State.sendInvals (s : State) (src a : Nat) (cores : List Nat) (old : List Byte) : State :=
  { s with
    inval := s.inval.filter (fun v => !(v.line == a && v.core == src / 256)) ++
      cores.map fun c => { core := c, line := a, old := old, acc := false, src := src }
    agenda := s.agenda ++ cores.map fun c => { i := .invalidationApply, x := c, y := a, z := 1 } }

/-- A line of a cacheable page is about to be modified in the L1 of core G by its strand src: its home's bytes are kept (R304), the directory records
the owner, and every other copy is sent an invalidation (R109, R110). -/
def State.cacheWrite (s0 : State) (src G l : Nat) : State :=
  let a := lineOf l
  let s := s0.fillL1 G a
  let old := s.bytesAt a 64
  let others := (s.copies.filter fun c => c.2 == a && c.1 != G).map (·.1)
  ({ s with
    dirty := if s.dirty.any (fun d => d.1 == a) then s.dirty else putKey s.dirty a old
    hpoi := if s.dirty.any (fun d => d.1 == a) then s.hpoi else setDel s.hpoi a
    copies := s.copies.filter fun c => !(c.2 == a && c.1 != G)
    icopies := s.icopies.filter fun c => c.2 != a
    l2 := s.l2.filter fun c => !(c.2 == a && c.1 != twrOf G)
    own := putKey s.own a G }).sendInvals src a others old

/-- Core G still holds a line of which it has not applied an invalidation: its loads hit the old copy (R110). -/
def State.holdsOld (s : State) (G a : Nat) : Bool := s.inval.any fun v => v.core == G && v.line == a

/-- A core takes a shared copy of a line, unless it still holds an old one; an owner that has not modified it is one no longer (R68, R70, R109,
R110). -/
def State.cacheRead (s : State) (G : Nat) (l : Nat) : State :=
  let a := lineOf l
  if s.holdsOld G a then s.meetCore 0x20 G
  else
    let t := s.fillL1 G a
    if t.dirty.any fun d => d.1 == a then t else { t with own := t.own.filter fun c => !(c.1 == a && c.2 != G) }

/-- A line enters the L1 of core G with exclusive ownership: other cores hold it no longer, and nothing that G holds of it is older (R70, R110,
R283). -/
def State.takeExclusive (s : State) (G a : Nat) : State :=
  let t := s.fillL1 G a
  { t with
    inval := t.inval.filter fun v => !(v.core == G && v.line == a)
    copies := t.copies.filter fun c => !(c.2 == a && c.1 != G)
    l2 := t.l2.filter fun c => !(c.2 == a && c.1 != twrOf G)
    own := putKey t.own a G }

/-- Other caches' copies of a line that is written at its home: a modified copy is recalled, each core that holds a shared one
is sent an invalidation for a store of strand src (R109, R110). -/
def State.recallLine (s : State) (src a : Nat) : State :=
  let t := s.cleanLine a
  let held := (t.copies.filter fun c => c.2 == a).map (·.1)
  ({ t with
    copies := t.copies.filter fun c => c.2 != a
    icopies := t.icopies.filter fun c => c.2 != a
    l2 := t.l2.filter fun c => c.2 != a
    own := eraseKey t.own a }).sendInvals src a held (t.bytesAt a 64)

/-- The byte that core G reads: a line whose invalidation it has not applied reads as before the store (R110),
and so does a line whose inbound invalidation the module has queued (R129). -/
def State.byteFor (s : State) (G : Nat) (l : Nat) : Byte :=
  match s.inval.find? fun v => v.core == G && v.line == lineOf l with
  | some v => v.old.getD (l % 64) 0#8
  | none =>
    match s.inbound.find? fun v => v.2.1 == lineOf l with
    | some v => v.2.2.getD (l % 64) 0#8
    | none => s.byteAt l

/-- n bytes as core G reads them. -/
def State.bytesFor (s : State) (G l n : Nat) : List Byte := (List.range n).map fun k => s.byteFor G (l + k)

/-- Core G applies every invalidation it has accepted (R110). -/
def State.applyInval (s : State) (G : Nat) : State := { s with inval := s.inval.filter fun v => !(v.core == G && v.acc) }

/-- Core G reads a line anew from now on: nothing it holds of it is older than the line (R118). -/
def State.refresh (s : State) (G a : Nat) : State :=
  { s with
    inval := s.inval.filter fun v => !(v.core == G && v.line == a)
    inbound := s.inbound.filter fun v => v.2.1 != a }

/-- Core H lies inside a scope around a strand of core G (Table 5-1): .ctx reaches no other core. -/
def inScope (scope G H : Nat) : Bool :=
  match scope with
  | 0 => G == H
  | 1 => G == H
  | 2 => cluOf G == cluOf H
  | 3 => twrOf G == twrOf H
  | _ => true

/-! ## Requests that wait (R81, R109, R152) -/

/-- The location's page migrates: its old home refuses requests for it (R101). -/
def State.migrating (s : State) (l : Nat) : Bool :=
  s.moves.any fun m => m.phase == 1 && decide (m.src ≤ l) && decide (l < m.src + m.n)

/-- An invalidation of the line is on its way to a core, so that its newest value is not yet for another observer than the strand that
wrote it: strand src of core G waits, unless it reads a copy that its core still holds (R109, R118). -/
def State.unsettled (s : State) (src G : Nat) (wr : Bool) (l : Nat) : Bool :=
  s.inval.any (fun v => v.line == lineOf l && !v.acc && v.src != src) &&
  (wr || !s.inval.any fun v => v.core == G && v.line == lineOf l)

/-- A request that no core makes waits: its tower's HBM4 does, its page migrates, or an invalidation of the line is on its way (R81, R101,
R109, R152). -/
def State.waitsAt (s : State) (l n : Nat) : Bool :=
  (linesOf l n).any fun a => s.stalled a || s.migrating a || s.unsettled noStrand 1536 true a

/-! ## Writes at the home (R109, R136, R155) -/

/-- Bytes written at the memory side: modified copies are recalled, other copies invalidated; a fenced tower drops them (R109, R155). -/
def State.rawHome (s : State) (l : Nat) (bs : List Byte) : State :=
  if s.isFenced l then s
  else
    let s1 := (linesOf l bs.length).foldl (fun (t : State) a => (t.recallLine noStrand a).sectorWrite a) s
    ((s1.dropOrigin l).write l bs).wakeMonitors l bs.length

end Sys2Proof.Machine
end

