-- ==== Sys2Proof/Machine/Report.lean ====
section
/-! DEFINITION. Reports to the host (R140, R213, R414), and writes at the memory side that may have to be reported (R136, R137). -/

namespace Sys2Proof.Machine

/-- An MSI-X message on the port that HOSTCTL names: sent, or pending while its vector is masked (R414). -/
def State.sendMsi (s : State) (vec : Nat) : State :=
  let port := b2n ((s.reg oHOSTCTL).getLsbD 0)
  let k := 4 * port + vec
  if s.msixMask.getLsbD k then { s with msixPend := s.msixPend ||| (1#8 <<< k) }
  else { s with msix := s.msix ++ [(port, vec)] }

/-- A 64 B record of eight doublewords written at a physical address, once its HBM4 takes requests (R81). -/
def State.putRecord (s : State) (pa : Nat) (ws : List Word) : State :=
  let bs := ws.flatMap fun w => natToBytes 8 w.toNat
  if s.stalled pa then { s with records := s.records ++ [(pa, bs)] } else s.rawHome pa bs

/-- The records that waited and wait no more are written (R81, R152). -/
def State.writeRecords (s : State) : State :=
  (s.records.filter fun r => !s.stalled r.1).foldl (fun (t : State) r => t.rawHome r.1 r.2)
    { s with records := s.records.filter fun r => s.stalled r.1 }

/-- An event of a severity: counters, ERRSTAT, and where the ring takes it a record and its message (R140, Table 6-3). -/
def State.report (s : State) (T cls sev G X : Nat) (sego : Bool) (rwc : Nat) (addr synd detail : Word) : State :=
  let s0 := s.setReg (oERRSTAT T) (s.reg (oERRSTAT T) ||| (1#64 <<< sev))
  let s1 := if sev = 0 then s0.setReg (oCECNT T cls) (s0.reg (oCECNT T cls) + 1#64) else s0
  let ctl := s1.reg (oERRCTL T)
  if sev = 0 ∧ ¬ ctl.getLsbD 6 then s1
  else
    let head := bits (s1.reg (oERRHEAD T)) 5 0
    let base := bits (s1.reg (oERRBASE T)) 51 12
    if base = 0 ∨ (head + 1) % 64 = bits (s1.reg (oERRTAIL T)) 5 0 then
      s1.setReg (oERRSTAT T) (s1.reg (oERRSTAT T) ||| 0x100#64)
    else
      let seq := s1.errSeq.getD T 0#16
      let c := if G < 1536 then cluOf G % 8 else 0
      let k := if G < 1536 then G % 24 else 0
      let w0 := BitVec.ofNat 64 (cls * 2 ^ 60 + sev * 2 ^ 56 + T * 2 ^ 53 + c * 2 ^ 50 + k * 2 ^ 45 + X * 2 ^ 43 +
        b2n sego * 2 ^ 42 + rwc % 4 * 2 ^ 40 + seq.toNat)
      let s2 := s1.putRecord (base * 4096 + 64 * head) [w0, addr, synd, s1.cycOf T, detail, 0#64, 0#64, 0#64]
      let s3 := { s2 with errSeq := s2.errSeq.setIfInBounds T (seq + 1#16) }
      let s4 := s3.setReg (oERRHEAD T) (BitVec.ofNat 64 ((head + 1) % 64))
      if ctl.getLsbD sev then s4.sendMsi 1 else s4

/-- An event that a storage's own code tells of: the spec does not say what its syndrome is, so that is an open value (R140, log 12). -/
def State.reportCode (s : State) (T cls sev G X : Nat) (sego : Bool) (rwc : Nat) (addr : Word) : State :=
  ({ s with free := s.free + 1 } : State).report T cls sev G X sego rwc addr (Config.freeWord s.free) 0#64

/-- The core or the first core of the cluster that a location's storage belongs to, where it belongs to one (R140). -/
def coreOfLoc (l : Nat) : Nat :=
  match regionOf l with
  | 1 => (l - regionSize) / 0x80000
  | 2 => (l - 2 * regionSize) / 0x40000
  | 3 => 24 * ((l - 3 * regionSize) / 0x800000)
  | _ => 1536

/-- A fault notice in the ring of tower T, and MSI-X vector 2 (R213, Table 8-12). -/
def State.notice (s : State) (T : Nat) (cause : BitVec 8) (x : Nat) (stage : BitVec 6) (tfb pc faddr : Word) : State :=
  let head := bits (s.reg (oFNHEAD T)) 5 0
  let base := bits (s.reg (oFNBASE T)) 51 12
  if base = 0 ∨ (head + 1) % 64 = bits (s.reg (oFNTAIL T)) 5 0 then
    s.setReg (oFNCTL T) (s.reg (oFNCTL T) ||| 2#64)
  else
    let seq := s.fnSeq.getD T 0#16
    let G := x / 4
    let w0 := BitVec.ofNat 64 (cause.toNat * 2 ^ 56 + T * 2 ^ 53 + cluOf G % 8 * 2 ^ 50 + G % 24 * 2 ^ 45 + x % 4 * 2 ^ 43 +
      stage.toNat * 2 ^ 37 + seq.toNat)
    let s2 := s.putRecord (base * 4096 + 64 * head) [w0, tfb, pc, faddr, 0#64, 0#64, 0#64, 0#64]
    let s3 := { s2 with fnSeq := s2.fnSeq.setIfInBounds T (seq + 1#16) }
    let s4 := s3.setReg (oFNHEAD T) (BitVec.ofNat 64 ((head + 1) % 64))
    if (s.reg (oFNCTL T)).getLsbD 0 then s4.sendMsi 2 else s4

/-! ## Writes at the memory side -/

/-- The storage class of a location (Table 6-4). -/
def classOf (l : Nat) : Nat :=
  match regionOf l with
  | 0 => 9
  | 1 => 2
  | 2 => 3
  | 3 => 4
  | 4 => 5
  | 5 => 10
  | 6 => 5
  | _ => 14

/-- The tower whose error ring takes what concerns a location: that of its memory, else tower 0. -/
def ringOf (l : Nat) : Nat := (towerOfLoc l).getD (if coreOfLoc l < 1536 then twrOf (coreOfLoc l) else 0)

/-- A line, written only in part, whose bytes no longer match its CRC: it will be poisoned, and the event has a record of severity 2 and
class 15 (R136). -/
def State.noteMerge (s : State) (l n : Nat) : State :=
  ((linesOf l n).filter fun a => (findKey s.badcrc a).isSome && !setHas s.poison a && !(decide (l ≤ a) && decide (a + 64 ≤ l + n))).foldl
    (fun (t : State) a =>
      t.report (ringOf a) 15 2 1536 0 false 0 (BitVec.ofNat 64 (a % regionSize)) (t.crcSynd a) 0#64) s

/-- A line's CRC carried to another place with its bytes: a line that failed it fails it there (R136). -/
def State.carryCrc (s : State) (a : Nat) (c : BitVec 32) : State :=
  if s.isFenced a || setHas s.poison a || crc32c (s.bytesAt a 64) = c then s else { s with badcrc := putKey s.badcrc a c }

/-- Poison found where n bytes at l leave the end-to-end domain goes to the fault unit: a record with the class of its place (R212, log 51). -/
def State.poisonLeft (s : State) (l n : Nat) : State :=
  if s.poisonedAt l n then s.report (ringOf l) (classOf l) 2 1536 0 false 0 (BitVec.ofNat 64 (l % regionSize)) 0#64 0#64 else s

/-- One piece written by an engine at the memory side; a fenced tower drops it (R109, R136, R155). -/
def State.homePiece (s : State) (l : Nat) (bs : List Byte) : State :=
  if s.isFenced l then s else (s.noteMerge l bs.length).rawHome l bs

/-- Bytes written to resolved pieces at the memory side. -/
def State.homePieces (s : State) : List (Nat × Nat × Bool) → List Byte → State
  | [], _ => s
  | (l, n, _) :: t, bs => (s.homePiece l (bs.take n)).homePieces t (bs.drop n)

end Sys2Proof.Machine
end

