-- ==== Sys2Proof/Machine/Xlat.lean ====
section
/-! DEFINITION. Address translation: the walk, its faults and permission checks, the translation caches, and what is asked of the
host (R85 to R105); the module's own accesses to frames, images and manifests (R54, R193, R445). -/

namespace Sys2Proof.Machine

/-- Trap causes by name (Table 8-3). -/
def cILL : BitVec 8 := 0x01#8
/-- GRP. -/
def cGRP : BitVec 8 := 0x02#8
/-- PRIV. -/
def cPRIV : BitVec 8 := 0x03#8
/-- ALIGN. -/
def cALIGN : BitVec 8 := 0x04#8
/-- PAGE. -/
def cPAGE : BitVec 8 := 0x05#8
/-- PROT. -/
def cPROT : BitVec 8 := 0x06#8
/-- FIELD_BUSY. -/
def cFBUSY : BitVec 8 := 0x07#8
/-- FIELD_OWN. -/
def cFOWN : BitVec 8 := 0x08#8
/-- BANK. -/
def cBANK : BitVec 8 := 0x09#8
/-- SEQ_ORDER. -/
def cSORD : BitVec 8 := 0x0a#8
/-- SEQ_STALE. -/
def cSSTALE : BitVec 8 := 0x0b#8
/-- SEQ_ALIGN. -/
def cSALIGN : BitVec 8 := 0x0c#8
/-- RPR_ORDER. -/
def cRORD : BitVec 8 := 0x0d#8
/-- ASSAY. -/
def cASSAY : BitVec 8 := 0x0e#8
/-- POISON. -/
def cPOISON : BitVec 8 := 0x0f#8
/-- INTEG. -/
def cINTEG : BitVec 8 := 0x10#8
/-- BOUND. -/
def cBOUND : BitVec 8 := 0x11#8
/-- SWTRAP. -/
def cSWTRAP : BitVec 8 := 0x12#8
/-- SSTEP. -/
def cSSTEP : BitVec 8 := 0x13#8
/-- SEGOVF. -/
def cSEGOVF : BitVec 8 := 0x14#8
/-- CHAN. -/
def cCHAN : BitVec 8 := 0x15#8
/-- ENGINE. -/
def cENGINE : BitVec 8 := 0x16#8
/-- MCHK. -/
def cMCHK : BitVec 8 := 0x17#8
/-- KILL. -/
def cKILL : BitVec 8 := 0x18#8

/-- What an access needs of its page (R88). -/
inductive Need where
  | read | write | fetch
  deriving DecidableEq, Repr, Inhabited

/-- The end of a translation: a location (and whether its page is uncached), a fault, or a wait for a BUSY entry, a table or an ATS
completion (R81, R97, R102), or for the host's grant of the page (R98). -/
inductive Xres where
  | ok (loc : Nat) (nc : Bool)
  | fault (cause : BitVec 8)
  | busy
  | ask
  deriving DecidableEq, Repr, Inhabited

/-- Where a miss comes from: a core's strand, a cluster's copy engines, or a tower's units (Table 4-5). -/
inductive Via where
  | core (G : Nat)
  | cluster (c : Nat)
  | tower (T : Nat)
  deriving DecidableEq, Repr, Inhabited

/-- The tower whose last-level TLB, walkers and fault unit serve it. -/
def Via.twr : Via → Nat
  | .core G => twrOf G
  | .cluster c => c / 8
  | .tower T => T

/-- The translation caches that an access goes through, nearest first (Table 4-5). -/
def Via.units (v : Via) (n : Need) : List TlbUnit :=
  match v with
  | .core G => [if n = .fetch then .instr G else .data G, .cluster (cluOf G), .tower (twrOf G)]
  | .cluster c => [.cluster c, .tower (c / 8)]
  | .tower T => [.tower T]

/-- Ways and sets of a translation cache (Table 4-5). -/
def TlbUnit.shape : TlbUnit → Nat × Nat
  | .data _ => (64, 1)
  | .instr _ => (16, 1)
  | .cluster _ => (8, 128)
  | .tower _ => (12, 512)

/-- The set of a translation cache that holds a page: by the low bits of its number (R91, log 10). -/
def TlbUnit.set (u : TlbUnit) (base lg : Nat) : Nat := base / 2 ^ lg % u.shape.2

/-- The fields of a page table entry (Table 4-2). -/
def pteV (e : Word) : Bool := e.getLsbD 0
/-- LEAF. -/
def pteLeaf (e : Word) : Bool := e.getLsbD 1
/-- KIND. -/
def pteKind (e : Word) : Nat := bits e 3 2
/-- W. -/
def pteW (e : Word) : Bool := e.getLsbD 4
/-- U. -/
def pteU (e : Word) : Bool := e.getLsbD 5
/-- X. -/
def pteX (e : Word) : Bool := e.getLsbD 6
/-- NC. -/
def pteNC (e : Word) : Bool := e.getLsbD 7
/-- CG. -/
def pteCG (e : Word) : Bool := e.getLsbD 8
/-- D. -/
def pteD (e : Word) : Bool := e.getLsbD 11
/-- ADDR as a physical address. -/
def pteAddr (e : Word) : Nat := bits e 51 12 * 4096
/-- MOD. -/
def pteMod (e : Word) : Nat := bits e 59 52
/-- BUSY. -/
def pteBusy (e : Word) : Bool := e.getLsbD 62

/-- A must-be-zero field of a table pointer or leaf is set (R87). -/
def pteReserved (e : Word) : Bool :=
  e.getLsbD 63 || bits e 61 60 != 0 ||
  (if pteLeaf e then (pteKind e != 2 && pteMod e != 0) || (pteKind e == 1 && bits e 51 12 != 0)
   else pteBusy e || bits e 59 52 != 0 || bits e 11 2 != 0)

/-- log2 of the page size of a leaf at a level (Table 4-1). -/
def leafLg (lvl : Nat) (cg : Bool) : Nat :=
  match lvl, cg with
  | 0, false => 12
  | 0, true => 16
  | 1, false => 21
  | 1, true => 26
  | _, _ => 30

/-- log2 of the step of one entry at a level. -/
def stepLg (lvl : Nat) : Nat := 12 + 9 * lvl

/-! ## The translation caches (R91, R92) -/

/-- A cached translation covers an address. -/
def TlbEntry.covers (t : TlbEntry) (va : Nat) : Bool := decide (t.base ≤ va) && decide (va < t.base + 2 ^ t.lg)

/-- The cached translation of an address that an access meets first. -/
def State.cached (s : State) (v : Via) (n : Need) (va : Nat) : Option TlbEntry :=
  (v.units n).findSome? fun u => s.tlb.find? fun t => t.unit == u && t.covers va

/-- An entry placed in one translation cache, in place of the one for the same page; a full set gives up an entry, which one the spec
leaves open (R91, log 10). -/
def State.fillUnit (s : State) (t : TlbEntry) (u : TlbUnit) : State :=
  let e := { t with unit := u }
  if s.tlb.any (· == e) then s
  else
    let rest := s.tlb.filter fun w => !(w.unit == u && w.base == t.base && w.lg == t.lg)
    let mine := rest.filter fun w => w.unit == u && u.set w.base w.lg == u.set t.base t.lg
    if mine.length < u.shape.1 then { s with tlb := e :: rest }
    else { s with tlb := e :: rest.erase (mine.getD (Config.freeIndex s.free % u.shape.1) e), free := s.free + 1 }

/-- A translation kept in every cache that the access went through (R92, R93). -/
def State.fill (s : State) (v : Via) (n : Need) (t : TlbEntry) : State := (v.units n).foldl (State.fillUnit · t) s

/-- A table pointer kept in the walk cache of a tower, of 256 entries (Table 4-5). -/
def State.keepPointer (s : State) (T lvl va table : Nat) : State :=
  let e : WalkEntry := ⟨T, lvl, va / 2 ^ stepLg (lvl + 1), table⟩
  let rest := s.walkc.filter fun w => !(w.twr == T && w.lvl == lvl && w.tag == e.tag)
  let mine := rest.filter fun w => w.twr == T
  if mine.length < 256 then { s with walkc := e :: rest }
  else { s with walkc := e :: rest.erase (mine.getD (Config.freeIndex s.free % 256) e), free := s.free + 1 }

/-- Where a walk of tower T begins: the lowest table that the walk cache knows for the address, and its level plus 1; else the root
(R88, R91). -/
def State.walkStart (s : State) (T va : Nat) : Nat × Nat :=
  let known := [0, 1, 2, 3, 4].findSome? fun lvl =>
    (s.walkc.find? fun w => w.twr == T && w.lvl == lvl && w.tag == va / 2 ^ stepLg (lvl + 1)).map fun w => (w.table, lvl + 1)
  known.getD (bits (s.reg oTRROOT) 51 12 * 4096, 6)

/-! ## The walk (R85 to R89) -/

/-- Where a walk ends: at an entry of a level, with a fault, or with a wait for its HBM4 or for an invalidation on its way (R81, R88,
R109). -/
inductive WalkEnd where
  | leaf (addr lvl : Nat) (e : Word)
  | fault (cause : BitVec 8)
  | wait
  deriving DecidableEq, Repr, Inhabited

/-- The walk of tower T from the table at t, level lvl = fuel − 1 downward; each entry is read coherently through the L2 (R88,
R89). -/
def State.walkFrom (s : State) (T va : Nat) : Nat → Nat → State × WalkEnd
  | _, 0 => (s, .fault cPAGE)
  | t, lvl + 1 =>
    let a := t + 8 * ((va / 2 ^ stepLg lvl) % 512)
    if !isHbm a then (s, .fault cPAGE)
    else if s.waitsAt a 8 then (s, .wait)
    else
      let u := s.readL2 T (lineOf a)
      let e := u.wordAt a
      if !pteV e then (u, .fault cPAGE)
      else if pteReserved e then (u, .fault cILL)
      else if pteLeaf e then (u, if lvl > 2 then .fault cPAGE else .leaf a lvl e)
      else if lvl = 0 then (u, .fault cPAGE)
      else (u.keepPointer T (lvl - 1) va (pteAddr e)).walkFrom T va (pteAddr e) lvl

/-- A walk of tower T for an address (R88). -/
def State.walk (s : State) (T va : Nat) : State × WalkEnd :=
  let q := s.walkStart T va
  s.walkFrom T va q.1 q.2

/-- A leaf's own faults: KIND 3, a physical address outside local HBM4, a misaligned ADDR, the own module, and host pages
without ATS (R88, R97, R99). -/
def leafFault (s : State) (lvl : Nat) (e : Word) : Option (BitVec 8) :=
  let cfg := s.reg oTRCFG
  if pteKind e = 3 then some cPAGE
  else if pteKind e = 1 then (if cfg.getLsbD 21 then none else some cPAGE)
  else if pteAddr e % 2 ^ stepLg lvl ≠ 0 then some cPAGE
  else if pteKind e = 0 ∧ ¬ isHbm (pteAddr e) then some cPAGE
  else if pteKind e = 2 ∧ pteMod e = bits cfg 39 32 then some cPAGE
  else none

/-- The permission check of a leaf (R88). -/
def permits (e : Word) (sup : Bool) (n : Need) : Bool :=
  (sup || pteU e) && (match n with
    | .read => true
    | .write => pteW e
    | .fetch => pteX e)

/-- The grants of an ATS completion allow the access; a fetch needs the read grant (R97). -/
def atsPermits (g : Nat) : Need → Bool
  | .read => bitOf g 0
  | .write => bitOf g 1
  | .fetch => bitOf g 0

/-- The location of va through a leaf of the page size 2^lg (R86, R97, R99). -/
def leafLoc (e : Word) (lg va : Nat) : Nat :=
  match pteKind e with
  | 1 => locHost va
  | 2 => locModule (pteMod e) (pteAddr e / 2 ^ lg * 2 ^ lg + va % 2 ^ lg)
  | _ => pteAddr e / 2 ^ lg * 2 ^ lg + va % 2 ^ lg

/-- A, and for a writing access D, set at the entry's home by an atomic OR; the entry's other bits stay (R88, R89). -/
def State.setAD (s : State) (a : Nat) (d : Bool) : State :=
  let b := s.byteAt (a + 1)
  let b' := b ||| (if d then 0x0c#8 else 0x04#8)
  if b' = b then s else s.homePiece (a + 1) [b']

/-! ## The host's translations (R57, R97, R98) -/

/-- The PASID that requests carry (R57, Table 4-4). -/
def State.pasid (s : State) : Option (BitVec 20) :=
  if (s.reg oTRCFG).getLsbD 20 then some ((s.reg oTRCFG).setWidth 20) else none

/-- The port that the module's messages for translation leave on (R414, Table 18-3). -/
def State.atsPort (s : State) : Nat := b2n ((s.reg oHOSTCTL).getLsbD 8)

/-- A message of a tower's translation unit to the host. -/
def State.sendHost (s : State) (k : HostKind) (T : Nat) (va : Word) : State :=
  { (if k = .pageRequest then s.meet 0x0c (.tower T) none 1 else s) with toHost := s.toHost ++ [⟨k, T, va, s.pasid, s.atsPort⟩] }

/-- The 4 KiB page of an address. -/
def pageOf (va : Word) : Word := va &&& ~~~0xfff#64

/-- The ATS completion that a tower holds for an address and no access has used (R97). -/
def State.atsFor (s : State) (T va : Nat) : Option AtsEntry :=
  s.ats.find? fun a => a.twr == T && decide (a.base ≤ va) && decide (va < a.base + 2 ^ a.lg)

/-- Who asks: the event being performed, or the bundle of the running strand (R97). -/
def State.asker (s : State) : Asker :=
  if s.ev.i = .nop then ⟨.nop, strandOn s.here s.ctx.r.tag, s.ctx.r.pc.toNat, 0⟩ else ⟨s.ev.i, s.ev.x, s.ev.y, s.ev.z⟩

/-- An ATS Translation Request, unless one for the page is outstanding; the asker waits for its completion (R97). -/
def State.atsAsk (s : State) (T va : Nat) : State :=
  let pg := pageOf (BitVec.ofNat 64 va)
  let w : AtsWait := ⟨T, pg, s.asker, false⟩
  let t := if s.atsw.any (· == w) then s else { s with atsw := s.atsw ++ [w] }
  if s.atsq.any (· == (T, pg)) then t else ({ t with atsq := t.atsq ++ [(T, pg)] } : State).sendHost .atsRequest T pg

/-- The completion that the asker waited for has come (R97). -/
def State.atsCame (s : State) (T va : Nat) : Bool := s.atsw.any (· == ⟨T, pageOf (BitVec.ofNat 64 va), s.asker, true⟩)

/-- The asker has seen its completion, and one that does not serve it is held no longer: no refusal is cached (R92, R97). -/
def State.atsSeen (s : State) (T va : Nat) (c : Option AtsEntry) : State :=
  { s with
    ats := s.ats.filter fun a => c != some a
    atsw := s.atsw.filter (· != ⟨T, pageOf (BitVec.ofNat 64 va), s.asker, true⟩) }

/-- The mark of a tower's page request where it sleeps: k is 1 while it is asked, 2 once it is refused (R98). -/
def pageMark (T : Nat) (va : Word) (k : Nat) : Word := pageOf va ||| BitVec.ofNat 64 (16 * T + k)

/-- A page request for a page whose grant is missing: one for each page of a tower, sent while its table of 512 tags has room (R98). -/
def State.askHost (s : State) (T : Nat) (va : Word) : State :=
  let pg := pageOf va
  if s.pri.any fun r => r.twr == T && r.page == pg then s
  else if (s.pri.filter fun r => r.twr == T && r.sent).length < 512 then
    ({ s with pri := s.pri ++ [⟨T, pg, true⟩] } : State).sendHost .pageRequest T pg
  else { s with pri := s.pri ++ [⟨T, pg, false⟩] }

/-- The host has refused the page to the event being performed, or to the running strand's bundle, which asks for it again (R98). -/
def State.refusedHere (s : State) (v : Via) (va : Nat) : Bool :=
  let m := pageMark v.twr (BitVec.ofNat 64 va) 2
  s.ev.asks == m || (v == .core s.here && s.ctx.asks == m)

/-! ## One translation (R88 to R98) -/

/-- The block of a page that a completion covers. -/
def meetLg (lg : Nat) (a : Option AtsEntry) : Nat := (a.map fun e => min lg e.lg).getD lg

/-- A completed walk: A, the permission, the host's grant where the page is the host's, D, the filled caches and the location (R88,
R89). A host page waits for its ATS completion; where the one that this access waited for grants too little, the page is asked for, or the access
faults while PRIEN = 0; what another access waited for refuses nothing (R92, R97, R98). g holds the grants that a cached entry gives. -/
def finishWalk (s : State) (v : Via) (va : Nat) (sup : Bool) (n : Need) (g : Option Nat) (a lvl : Nat) (e : Word) : State × Xres :=
  if pteBusy e then (s, .busy)
  else match leafFault s lvl e with
    | some c => (s, .fault c)
    | none =>
      let lg := leafLg lvl (pteCG e)
      let s1 := s.setAD a false
      let wr := decide (n = .write)
      let keep := fun (t : State) (k : Nat) (grants : Nat) =>
        t.fill v n { base := va / 2 ^ k * 2 ^ k, lg := k, e := t.wordAt a, ats := grants }
      if !permits e sup n then (s1, .fault cPROT)
      else if pteKind e = 1 then
        match g with
        | some k => (let t := s1.setAD a wr; (keep t (((s.cached v n va).map (·.lg)).getD 12) k, .ok (locHost va) (pteNC e)))
        | none =>
          if s.refusedHere v va then (s1, .ask)
          else
            let c := s1.atsFor v.twr va
            let s2 := s1.atsSeen v.twr va c
            match c.filter fun k => atsPermits k.grants n with
            | some k => (let t := s2.setAD a wr; (keep t (meetLg lg (some k)) k.grants, .ok (locHost va) (pteNC e)))
            | none =>
              if !s1.atsCame v.twr va then (s2.atsAsk v.twr va, .busy)
              else (s2, if (s.reg oTRCFG).getLsbD 22 then .ask else .fault cPAGE)
      else
        let t := s1.setAD a wr
        (keep t lg 3, .ok (leafLoc e lg va) (pteNC e))

/-- A walk has ended, which a core's TLB miss asked for or another unit's (R432). -/
def State.walked (s : State) (v : Via) : State :=
  let t := s.meet 0x0a (.tower v.twr) none 1
  match v with
  | .core G => t.meetCore 0x27 G
  | _ => t

/-- A miss: the walk and its completion; g as in finishWalk. -/
def State.missWalk (s : State) (v : Via) (va : Nat) (sup : Bool) (n : Need) (g : Option Nat) : State × Xres :=
  match s.walk v.twr va with
  | (t, .fault c) => (t.walked v, .fault c)
  | (t, .wait) => (t, .busy)
  | (t, .leaf a lvl e) => finishWalk (t.walked v) v va sup n g a lvl e

/-- A translation of a paged address: PAGE while translation is off; through a cached entry where it permits the access, the host grants
it and a store finds D set; else by a walk (R88 to R92, Table 4-3). -/
def translated (s : State) (v : Via) (va : Nat) (sup : Bool) (n : Need) : State × Xres :=
  if !(s.reg oTRROOT).getLsbD 0 then (s, .fault cPAGE)
  else match s.cached v n va with
    | none => s.missWalk v va sup n none
    | some t =>
      if !permits t.e sup n then (s, .fault cPROT)
      else if pteKind t.e = 1 && !atsPermits t.ats n then s.missWalk v va sup n none
      else if n = .write && !pteD t.e then s.missWalk v va sup n (if pteKind t.e = 1 then some t.ats else none)
      else (s.fill v n t, .ok (leafLoc t.e t.lg va) (pteNC t.e))

/-- One translation as an access makes it: what it leads to may be an old home that migrates and refuses the access, which then drops its translation of
the address and translates again (R101). -/
def translate (s : State) (v : Via) (va : Nat) (sup : Bool) (n : Need) : State × Xres :=
  match translated s v va sup n with
  | (t, .ok l nc) =>
    if t.migrating l then ({ t with tlb := t.tlb.filter fun w => !((v.units n).any (· == w.unit) && w.covers va) }, .busy) else (t, .ok l nc)
  | r => r

/-! ## Shootdown (R95, R105) -/

/-- A block of 2^k bytes, named by an address in it, and n bytes from va overlap. -/
def meetsBlock (va n a k : Nat) : Bool := decide (a / 2 ^ k * 2 ^ k < va + n) && decide (va < (a / 2 ^ k + 1) * 2 ^ k)

/-- Every cached translation that covers one of n bytes from an address, every table pointer on the path to one, and position translations of
their pages (R95, R97, R100, R105). -/
def State.tlbInvalidateRange (s : State) (va n : Nat) : State :=
  { s with
    tlb := s.tlb.filter fun t => !meetsBlock va n t.base t.lg
    walkc := s.walkc.filter fun w => !meetsBlock va n (w.tag * 2 ^ stepLg (w.lvl + 1)) (stepLg (w.lvl + 1))
    ats := s.ats.filter fun a => !meetsBlock va n a.base a.lg
    atsw := s.atsw.filter fun a => !(a.come && meetsBlock va n a.page.toNat 12)
    ptc := s.ptc.filter fun p => !meetsBlock va n p.va.toNat p.lg && !meetsBlock va n p.va.toNat p.leaf }

/-- TLBI of one address (R95, R105). -/
def State.tlbInvalidate (s : State) (va : Nat) : State := s.tlbInvalidateRange va 1

/-- TLBI.ALL. -/
def State.tlbInvalidateAll (s : State) : State := { s with tlb := [], walkc := [], ats := [], atsw := s.atsw.filter fun a => !a.come, ptc := [] }

/-- A strand whose wait has ended is ready (R158, R162). -/
def Ctx.wake (cyc : Word) (c : Ctx) : Ctx := if c.st = .blocked then { c with st := .ready, since := cyc, age := 0 } else c

/-- A context whose monitor watches a location that a translation gave translates again: it tries its WAITA anew (R95, R96). -/
def Ctx.rewatch (cyc : Word) (c : Ctx) : Ctx :=
  if c.mon.any fun m => decide (regionOf m.loc = 0) || decide (7 ≤ regionOf m.loc) then { (c.wake cyc) with mon := none } else c

/-- No monitor goes on with a location of an old translation (R95, R96). -/
def State.rewatchAll (s : State) : State :=
  { s with ctx := s.ctx.rewatch (s.cycOf (twrOf s.here)), ctxs := s.ctxs.map fun q => (q.1, q.2.rewatch (s.cycAt q.1)) }

/-! ## The module's own accesses (R54, R193, R445) -/

/-- A piece of an access: location, length and uncached mark. -/
abbrev Piece := Nat × Nat × Bool

/-- The outcome: pieces; or a fault with its address; or a wait. -/
inductive Pieces where
  | ok (ps : List Piece)
  | fault (cause : BitVec 8) (va : Word)
  | busy
  | ask (va : Word)
  deriving DecidableEq, Repr, Inhabited

/-- n bytes at va resolved piece by piece at page boundaries, for a level, with the own windows those of core G. -/
def State.resolve (s : State) (v : Via) (G : Nat) (sup : Bool) (need : Need) (va n : Nat) : Nat → State × Pieces
  | 0 => (s, .ok [])
  | fuel + 1 =>
    if n = 0 then (s, .ok [])
    else match decodeByte G va with
      | none => (s, .fault cBOUND (BitVec.ofNat 64 va))
      | some (.paged, _) =>
        let k := min n (4096 - va % 4096)
        (match translate s v va sup need with
          | (t, .fault c) => (t, .fault c (BitVec.ofNat 64 va))
          | (t, .busy) => (t, .busy)
          | (t, .ask) => (t, .ask (BitVec.ofNat 64 va))
          | (t, .ok l nc) =>
            match t.resolve v G sup need (va + k) (n - k) fuel with
            | (u, .ok ps) => (u, .ok ((l, k, nc) :: ps))
            | r => r)
      | some (_, l) => (s, .ok [(l, n, true)])

/-- A resolution: the caches it goes through, the core whose own windows it sees, its level and need, and its bytes. -/
structure Tried where
  via : Via
  core : Nat
  sup : Bool
  need : Need
  va : Nat
  n : Nat
  deriving DecidableEq, Repr, Inhabited

/-- The resolution made. -/
def State.tried (s : State) (q : Tried) : State × Pieces := s.resolve q.via q.core q.sup q.need q.va q.n (q.n / 4096 + 2)

/-- How an operation of a unit ends early: with a fault, with a wait that leaves it for another try, or with a wait for the host's grant of
a page; t is the resolution that it ended with. -/
inductive Stop where
  | fault (cause : BitVec 8) (va : Word) (wr : Bool := false) (t : Option Tried := none)
  | wait (t : Option Tried := none)
  | ask (va : Word) (t : Option Tried := none)
  deriving DecidableEq, Repr, Inhabited

/-- What a try that has failed leaves behind: the translations that it made, with the bits that they set in entries, what they asked of the host
and the completions that they used up (R88, R97, R98). -/
def State.kept (s : State) (t : Option Tried) : State :=
  match t with
  | none => s
  | some q => (s.tried q).1

/-- What a stop leaves of its try. -/
def State.after' (s : State) : Stop → State
  | .fault _ _ _ t => s.kept t
  | .wait t => s.kept t
  | .ask _ t => s.kept t

/-- The event being performed sleeps on a page request of tower T, and its mark says so; where the host has refused the page, deny
follows (R98). -/
def State.sleepOn (s : State) (T : Nat) (va : Word) (deny : State → State) : State :=
  if s.ev.asks == pageMark T va 2 then deny { s with ev := { s.ev with asks := 0#64 } }
  else { (s.askHost T va) with agenda := (s.askHost T va).agenda ++ [{ s.ev with asks := pageMark T va 1 }] }

/-- The resolution of an address for the module's own hand: supervisor level (R445). -/
def handTry (v : Via) (G : Nat) (va : Word) (n : Need) : Tried := ⟨v, G, true, n, va.toNat, 1⟩

/-- The location of a paged or fixed address for the module's own hand (frames, images, manifests): supervisor level
through the current translation, with the checks of the storage view (R35, R46, R54, R445). -/
def State.reach (s : State) (v : Via) (G : Nat) (va : Word) (n : Need) : Except Stop (Nat × State) :=
  let q := some (handTry v G va n)
  match decodeByte G va.toNat with
  | none => .error (.fault cBOUND va)
  | some (.paged, a) =>
    (match translate s v a true n with
      | (t, .ok l _) => if t.waitsAt l 1 then .error (.wait q) else .ok (l, t)
      | (_, .fault c) => .error (.fault c va (decide (n = .write)) q)
      | (_, .busy) => .error (.wait q)
      | (_, .ask) => .error (.ask va q))
  | some (.csr, _) => .error (.fault cPROT va)
  | some (.fieldv, l) =>
    if !fieldUsed l then .error (.fault cBOUND va) else if !s.halfOpen l then .error (.fault cFBUSY va) else .ok (l, s)
  | some (_, l) => .ok (l, s)

/-- Bytes written at a device virtual address at supervisor level, within one line; poison and a failed CRC are faults (R193, R445).
Mailbox words that a device store does not reach keep their values (R50). The core's own later reads find them. -/
def State.putVA (s : State) (v : Via) (G : Nat) (va : Word) (bs : List Byte) : Except Stop State := do
  let (l, t) ← s.reach v G va .write
  if t.poisonedAt l bs.length then throw (.fault cPOISON va true (some (handTry v G va .write)))
  if t.badCrcAt l bs.length then throw (.fault cINTEG va true (some (handTry v G va .write)))
  if regionOf l = 6 && !mailboxOpen l then return t
  return (linesOf l bs.length).foldl (fun (u : State) a => u.refresh G a) (t.homePiece l bs)

/-- Doublewords written from a device virtual address on. -/
def State.putWordsVA (s : State) (v : Via) (G : Nat) (va : Word) : List Word → Except Stop State
  | [] => .ok s
  | w :: t => do
    let u ← s.putVA v G va (natToBytes 8 w.toNat)
    u.putWordsVA v G (va + 8#64) t

/-- Doublewords read at supervisor level from a device virtual address on; poison and a failed CRC are faults (R193, R445). -/
def State.getWordsVA (s : State) (v : Via) (G : Nat) (va : Word) : Nat → Except Stop (List Word × State)
  | 0 => .ok ([], s)
  | n + 1 => do
    let (l, t) ← s.reach v G va .read
    if t.poisonedAt l 8 || t.isFenced l then throw (.fault cPOISON va false (some (handTry v G va .read)))
    if t.badCrcAt l 8 then throw (.fault cINTEG va false (some (handTry v G va .read)))
    let (ws, u) ← (if isHbm l then t.readL2 v.twr (lineOf l) else t).getWordsVA v G (va + 8#64) n
    return (t.wordAt l :: ws, u)

end Sys2Proof.Machine
end

