-- ==== Sys2Proof/Machine/Ops.lean ====
section
/-! DEFINITION. The named operations: registers and their landing (R243, R246), the end of a bundle (R259), contexts and
cores (R156), bank ownership (R62 to R66), the end of a strand (R186, R194, R270), and taking an exception (R191 to R199). -/

namespace Sys2Proof.Machine

/-! ## Kinds of instruction -/

/-- The instructions whose access in flight is a load (R197). -/
def isLoadInstr : Instr → Bool
  | .ldb _ _ _ _ | .ldbu _ _ _ _ | .ldh _ _ _ _ | .ldhu _ _ _ _ | .ldw _ _ _ _ | .ldwu _ _ _ _ | .ldd _ _ _ _
  | .ldq _ _ _ _ | .vld _ _ _ _ | .vlds _ _ _ _ | .vldx _ _ _ _ _ | .vldb _ _ _ _ | .rbias _ _ _ _ _ => true
  | _ => false

/-- The value-returning atomics (R120, Table 12-2). -/
def isAtomicInstr : Instr → Bool
  | .aadd _ _ _ _ | .amin _ _ _ _ | .amax _ _ _ _ | .aminu _ _ _ _ | .amaxu _ _ _ _ | .aand _ _ _ _ | .aor _ _ _ _
  | .axor _ _ _ _ | .axchg _ _ _ _ | .acas _ _ _ _ _ => true
  | _ => false

/-- Width in bytes of one element of an access. -/
def accessWidth : Instr → Nat
  | .ldb _ _ _ _ => 1
  | .ldbu _ _ _ _ => 1
  | .ldh _ _ _ _ => 2
  | .ldhu _ _ _ _ => 2
  | .ldw _ _ _ _ => 4
  | .ldwu _ _ _ _ => 4
  | .ldq _ _ _ _ => 16
  | .stb _ _ _ _ => 1
  | .sth _ _ _ _ => 2
  | .stw _ _ _ _ => 4
  | .stq _ _ _ _ => 16
  | .vld _ _ _ _ => 128
  | .vst _ _ _ _ => 128
  | .vlds _ _ _ _ => 4
  | .vsts _ _ _ _ => 4
  | .vldx _ _ _ _ _ => 4
  | .vstx _ _ _ _ _ => 4
  | .vldb _ _ _ _ => 4
  | .rbias _ _ _ _ _ => 2
  | .rfadd _ _ _ => 4
  | .dcfl _ _ => 1
  | .dcinv _ _ => 1
  | .aadd _ _ _ w => if w = 1#1 then 8 else 4
  | .amin _ _ _ w => if w = 1#1 then 8 else 4
  | .amax _ _ _ w => if w = 1#1 then 8 else 4
  | .aminu _ _ _ w => if w = 1#1 then 8 else 4
  | .amaxu _ _ _ w => if w = 1#1 then 8 else 4
  | .aand _ _ _ w => if w = 1#1 then 8 else 4
  | .aor _ _ _ w => if w = 1#1 then 8 else 4
  | .axor _ _ _ w => if w = 1#1 then 8 else 4
  | .axchg _ _ _ w => if w = 1#1 then 8 else 4
  | .acas _ _ _ _ w => if w = 1#1 then 8 else 4
  | .radd _ _ _ w => if w = 1#1 then 8 else 4
  | .rmin _ _ _ _ w => if w = 1#1 then 8 else 4
  | .rmax _ _ _ _ w => if w = 1#1 then 8 else 4
  | .rand _ _ _ w => if w = 1#1 then 8 else 4
  | .ror _ _ _ w => if w = 1#1 then 8 else 4
  | .rxor _ _ _ w => if w = 1#1 then 8 else 4
  | _ => 8

/-! ## Registers (R246, R247) -/

/-- s[n]; s0 reads 0. -/
def Regs.sreg (r : Regs) (n : BitVec 6) : Word := if n = 0#6 then 0#64 else r.s.getD n.toNat 0#64
/-- v[n]. -/
def Regs.vreg (r : Regs) (n : BitVec 6) : Vec := r.v.getD n.toNat 0#1024
/-- p[n]; p0 reads all ones. -/
def Regs.preg (r : Regs) (n : BitVec 4) : BitVec 32 := if n = 0#4 then 0xffffffff#32 else r.p.getD n.toNat 0#32
/-- Staging register i. -/
def Regs.greg (r : Regs) (i : BitVec 6) : Word := r.g.getD i.toNat 0#64
/-- Loop register k (Table 11-2). -/
def Regs.lreg (r : Regs) (k : Nat) : Word := r.l.getD k 0#64

/-- A write into the registers: s0 and p0 discard it, lc keeps 32 bits, ls and le read zero in [3:0] (R246, R257). -/
def Regs.put (r : Regs) : Write → Regs
  | .s d x => if d = 0#6 then r else { r with s := r.s.setIfInBounds d.toNat x }
  | .v d x m => { r with v := r.v.setIfInBounds d.toNat ((r.v.getD d.toNat 0#1024 &&& ~~~m) ||| (x &&& m)) }
  | .p d x m =>
    if d = 0#4 then r else { r with p := r.p.setIfInBounds d.toNat ((r.p.getD d.toNat 0#32 &&& ~~~m) ||| (x &&& m)) }
  | .g i x => { r with g := r.g.setIfInBounds i.toNat x }
  | .l k x =>
    { r with l := r.l.setIfInBounds k.toNat (if k.toNat < 4 then x &&& 0xffffffff#64 else x &&& ~~~0xf#64) }

/-- Several writes in order. -/
def Regs.puts (r : Regs) (ws : List Write) : Regs := ws.foldl Regs.put r

/-- The register that a write names (R241). -/
def Write.reg : Write → Reg
  | .s d _ => .s d
  | .v d _ _ => .v d
  | .p d _ _ => .p d
  | .g i _ => .g i
  | .l k _ => .l k

/-- s[n] of the current strand. -/
def State.sr (s : State) (n : BitVec 6) : Word := s.ctx.r.sreg n
/-- v[n] of the current strand. -/
def State.vr (s : State) (n : BitVec 6) : Vec := s.ctx.r.vreg n
/-- p[n] of the current strand. -/
def State.pr (s : State) (n : BitVec 4) : BitVec 32 := s.ctx.r.preg n
/-- Staging register i of the current strand. -/
def State.gr (s : State) (i : Nat) : Word := s.ctx.r.greg (BitVec.ofNat 6 i)
/-- s[n] of the X slot, which reaches s0–s31 (R239). -/
def State.xr (s : State) (n : BitVec 5) : Word := s.ctx.r.sreg (n.setWidth 6)

/-- The state with the current context changed. -/
def State.withCtx (s : State) (f : Ctx → Ctx) : State := { s with ctx := f s.ctx }
/-- The state with the current strand's registers changed. -/
def State.withRegs (s : State) (f : Regs → Regs) : State := { s with ctx := { s.ctx with r := f s.ctx.r } }
/-- The state with the current core changed. -/
def State.withCore (s : State) (f : Core → Core) : State := { s with core := f s.core }
/-- The state with one more event due. -/
def State.queue (s : State) (e : Ev) : State := { s with agenda := s.agenda ++ [e] }

/-! ## Landing (R243) -/

/-- The number of a slot position. -/
def posNum : Pos → Nat
  | .x => 0
  | .s => 1
  | .v => 2
  | .e => 3

/-- A pending result writes a register that one of the given writes names. -/
def Pend.clash (q : Pend) (ws : List Write) : Bool := q.ws.any fun a => ws.any fun b => a.reg == b.reg

/-- The pending results with one more, in issue order, the higher slot position of a bundle later; a result ready before an
earlier one of the same register is held until that one lands (R243). -/
def addPend (l : List Pend) (e : Pend) : List Pend :=
  let after := fun (q : Pend) => q.bc == e.bc && decide (posNum e.pos < posNum q.pos)
  let before := l.filter fun q => !after q
  let later := l.filter after
  let left := (before.filter fun q => q.clash e.ws).foldl (fun m q => max m q.left) e.left
  before ++ [{ e with left := left }] ++ later.map fun q => if q.clash e.ws then { q with left := max q.left left } else q

/-- The results of an instruction that land together: both registers of LDQ (R282), and else each destination on its own (R243). -/
def landParts (i : Instr) (ws : List Write) : List (List Write) :=
  match i with
  | .ldq _ _ _ _ => [ws]
  | _ => ws.map fun w => [w]

/-- A result of latency lat issued by the current bundle (R243, R282, Table 10-5). -/
def State.land (s : State) (lat : Nat) (pos : Pos) (i : Instr) (ws : List Write) (a b c : Vec) (gm : BitVec 32) (rbw : Word) :
    State :=
  s.withRegs fun r => { r with
    pend := (landParts i ws).foldl
      (fun (l : List Pend) p => addPend l ⟨lat, r.bc, pos, i, p, a, b, c, gm, rbw, false, lat == 1⟩) r.pend }

/-- A scalar as an operand field of a replay entry (R196). -/
def opd (x : Word) : Vec := x.setWidth 1024

/-- The results of distance 0 land, in order, but for those held behind a remote load that was issued before them (R243). -/
def Regs.landNow (held : Pend → Bool) (r : Regs) : Regs :=
  { (r.puts ((r.pend.filter fun q => q.left == 0 && !held q).flatMap (·.ws))) with pend := r.pend.filter fun q => q.left != 0 || held q }

/-- The results due in the next bundle land, in order, and the others come one bundle nearer, while some are held (R243). -/
def tickHeld (held : Pend → Bool) (r : Regs) : Regs :=
  ({ r with pend := r.pend.map fun q => { q with left := q.left - 1 } } : Regs).landNow held

/-- The same where no remote load holds any (R243). -/
def tickPend (r : Regs) : Regs := tickHeld (fun _ => false) r

/-- A remote load of the strand that was issued before a result, and that has not landed, names a register of it: the result is held (R243). -/
def Ctx.holds (c : Ctx) (q : Pend) : Bool :=
  c.flight.any fun a => isLoadInstr a.i &&
    (decide (a.bc.toInt < q.bc.toInt) || (a.bc == q.bc && decide (posNum a.pos < posNum q.pos))) &&
    q.ws.any fun w => (writesOf a.i).any fun r => r == w.reg

/-- An instruction that stands for a supplied result of a register (R196, log 22). -/
def standIn : Write → Pos × Instr
  | .s d _ => (.s, .mov 0#4 d 0#6)
  | .v d _ _ => (.v, .vmov 0#4 d 0#6)
  | .p d _ _ => (.s, .pmov 0#4 d 0#6)
  | _ => (.s, .nop)

/-- The operand of a supplied result (R196). -/
def Write.operand : Write → Vec
  | .s _ x => opd x
  | .v _ x _ => x
  | .p _ x _ => x.setWidth 1024
  | _ => 0#1024

/-- The lanes of a vector that bits of a mask touch. -/
def lanesOfMask (m : Vec) : BitVec 32 :=
  (List.range 32).foldl (fun (acc : BitVec 32) i =>
    if m.extractLsb' (32 * i) 32 = 0#32 then acc else acc ||| (1#32 <<< i)) 0#32

/-- The lanes of a vector result, or the bits of a predicate result, that are written (Table 8-5). -/
def Write.lanes : Write → BitVec 32
  | .v _ _ m => lanesOfMask m
  | .p _ _ m => m
  | _ => 0#32

/-- A supplied result (KIND 3) of a write, left bundles from its landing (R196, R202). -/
def suppliedPend (left : Nat) (bc : Word) (w : Write) : Pend :=
  { left := left, bc := bc, pos := (standIn w).1, i := (standIn w).2, ws := [w], a := w.operand, gm := w.lanes, supplied := true }

/-- The results of a load issued at bundle bc arrive, both of an LDQ together: they land at once, but behind the unlanded results of earlier
bundles to one of their destinations; what was held behind the load lands after them (R242, R243, R282, log 49). -/
def Regs.arrive (r : Regs) (bc : Word) (ws : List Write) : Regs :=
  let before := r.pend.filter fun e => e.clash ws && decide (e.bc.toInt < bc.toInt)
  let waits := fun (e : Pend) => e.left == 0 && e.clash ws
  let held := r.pend.filter waits
  let rest := r.pend.filter fun e => !waits e
  if before.isEmpty then { (r.puts (ws ++ held.flatMap (·.ws))) with pend := rest }
  else
    let k := before.foldl (fun m e => max m e.left) 0
    { r with pend := rest ++ ws.map (suppliedPend k bc) ++ held.map fun e => { e with left := k } }

/-- Loop registers written by MTL take their values before a trap frame or an image records them (R193, R205, log 14). -/
def Regs.settle (r : Regs) : Regs :=
  let loop := fun (q : Pend) => q.ws.any fun w => match w with
    | .l _ _ => true
    | _ => false
  { (r.puts ((r.pend.filter loop).flatMap (·.ws))) with pend := r.pend.filter fun q => !loop q }

/-! ## The end of a bundle (R258 to R260) -/

/-- The end decision of the levels from k down, on the loop registers that the bundle's own slots read: the next PC if a
level returns, and the level's new count or its end (R259). lset names levels that a LOOP of this bundle started: the decision
sets the next PC and leaves the new level as LOOP made it. -/
def loopDecide (old : Regs) (lset : BitVec 4) : Nat → Regs → Regs × Option Word
  | 0, r => (r, none)
  | k + 1, r =>
    if old.lact.getLsbD k && old.lreg (8 + k) == old.pc then
      let c := old.lreg k
      if c.toNat ≤ 1 then
        loopDecide old lset k (if lset.getLsbD k then r else { r with lact := r.lact &&& ~~~(1#4 <<< k) })
      else
        (if lset.getLsbD k then r else r.put (.l (BitVec.ofNat 4 k) (c - 1#64)), some (old.lreg (4 + k)))
    else loopDecide old lset k r

/-- Module-wide number of the running context. -/
def State.me (s : State) : Nat := 4 * s.here + s.core.cur.toNat

/-- The number by which the running strand's stores are told from others' (R116). -/
def State.strand (s : State) : Nat := strandOn s.here s.ctx.r.tag

/-- An operation of context x was issued by the strand with a tag, and that is the running strand (R63, R207). -/
def State.ownOp (s : State) (x : Nat) (tag : BitVec 8) : Bool := x == s.me && tag == s.ctx.r.tag

/-- The end of a group: accesses, tile operations and register writes so far belong to an earlier group (R240 to R242). -/
def State.endGroup (s : State) : State :=
  { s with
    ctx := { s.ctx with grp := [], flight := s.ctx.flight.map fun a => { a with old := true } }
    core := { s.core with nmuq := s.core.nmuq.map fun q => if s.ownOp q.x q.tag then { q with old := true } else q } }

/-- The predicate registers whose results land as the results come one bundle nearer, while some are held (R243, R245). -/
def landingPreds (held : Pend → Bool) (l : List Pend) : List Nat :=
  (l.filter fun q => decide (q.left ≤ 1) && !held q).flatMap fun q => q.ws.filterMap fun w => match w with
    | .p d _ _ => some d.toNat
    | _ => none

/-- The boundary after a bundle that issued or was skipped: the loop end decision unless the bundle transfers control, the
next PC, the bundle count, and the landings (R12, R240, R243, R259). old is the strand before the bundle. -/
def finishBundle (old : Regs) (s : State) : State :=
  let r := s.ctx.r
  let d := match s.ctx.npc with
    | some _ => (r, none)
    | none => loopDecide old s.ctx.lset 4 r
  let dest := match s.ctx.npc with
    | some a => some a
    | none => d.2
  let r1 := { d.1 with pc := dest.getD (r.pc + 16#64), bc := r.bc + 1#64 }
  let pl := (landingPreds s.ctx.holds r.pend).foldl (fun (l : List (Nat × Word)) d => putKey l d r1.bc) s.ctx.pland
  let s1 := { s with ctx := { s.ctx with r := tickHeld s.ctx.holds r1, npc := none, lset := 0#4, pland := pl } }
  let s2 := if dest.isSome then s1.withCtx fun c => { c with ahead := [] } else s1
  if dest.any fun a => a != r.pc + 16#64 then s2.endGroup else s2

/-! ## Contexts and cores (R20 to R22, R27, R156) -/

/-- The context with a module-wide number, if it holds a strand. -/
def State.ctxAt (s : State) (x : Nat) : Option Ctx :=
  if x = s.me then (if s.ctx.st = .stopped then none else some s.ctx) else findKey s.ctxs x

/-- The state with the strand of a context replaced. -/
def State.putCtx (s : State) (x : Nat) (c : Ctx) : State :=
  if x = s.me then { s with ctx := c } else { s with ctxs := putKey s.ctxs x c }

/-- The state with a context changed, where it holds a strand. -/
def State.onCtx (s : State) (x : Nat) (f : Ctx → Ctx) : State :=
  match s.ctxAt x with
  | some c => s.putCtx x (f c)
  | none => s

/-- The state with a context free (R177). -/
def State.freeCtx (s : State) (x : Nat) : State :=
  if x = s.me then { s with ctx := { Ctx.reset with phase := .left } } else { s with ctxs := eraseKey s.ctxs x }

/-- The core with a module-wide number. -/
def State.coreAt (s : State) (G : Nat) : Core := if G = s.here then s.core else (findKey s.cores G).getD Core.reset

/-- The state with a core changed. -/
def State.onCore (s : State) (G : Nat) (f : Core → Core) : State :=
  if G = s.here then { s with core := f s.core }
  else { s with cores := putKey s.cores G (f ((findKey s.cores G).getD Core.reset)) }

/-- The state with the running context put away among the others. -/
def State.stow (s : State) : State :=
  { s with
    ctxs := if s.ctx.st = .stopped then s.ctxs else putKey s.ctxs s.me s.ctx
    cores := putKey s.cores s.here s.core }

/-- The strand that satisfies p, wherever it is held: its context number, or context 0 of its core where it has none; whether it is displaced;
and its context (R203, R213). -/
def State.findCtx (s : State) (p : Ctx → Bool) : Option (Nat × Bool × Ctx) :=
  if p s.ctx then some (s.me, false, s.ctx)
  else match s.ctxs.find? fun c => p c.2 with
    | some (x, c) => some (x, false, c)
    | none =>
      let shadow := fun (G : Nat) (co : Core) => match co.shadow with
        | some h => if p h.c then some (4 * G, true, h.c) else none
        | none => none
      match shadow s.here s.core with
      | some r => some r
      | none =>
        match s.cores.findSome? fun q => shadow q.1 q.2 with
        | some r => some r
        | none =>
          match s.spilled.find? fun q => p q.c with
          | some q => some (4 * q.core, true, q.c)
          | none => (s.past.find? fun q => p q.2).map fun q => (q.1, false, q.2)

/-- A strand that has exited still has an access, an engine command or a remote, field or NMU operation to perform (R166, R186, R270). -/
def Ctx.hasLeft (c : Ctx) : Bool := !c.flight.isEmpty || !c.eq.isEmpty || !c.ops.isEmpty || c.r.alq.any fun e => !e.valid

/-- The strand that satisfies p changed, wherever it is held. -/
def State.mapCtx (s : State) (p : Ctx → Bool) (f : Ctx → Ctx) : State :=
  let g := fun (c : Ctx) => if p c then f c else c
  let k := fun (co : Core) => { co with shadow := co.shadow.map fun h => { h with c := g h.c, next := h.next.map g } }
  { s with
    ctx := g s.ctx
    ctxs := s.ctxs.map fun c => (c.1, g c.2)
    core := k s.core
    cores := s.cores.map fun c => (c.1, k c.2)
    spilled := s.spilled.map fun q => { q with c := g q.c }
    past := (s.past.map fun q => (q.1, g q.2)).filter fun q => q.2.hasLeft }

/-- The strand issued a field, nest or NMU operation. -/
def State.opIssued (s : State) (id : Nat) : State := s.withCtx fun c => { c with ops := c.ops ++ [id] }

/-- The operation of the strand that issued it. -/
def Ctx.hasOp (id : Nat) (c : Ctx) : Bool := c.ops.any (· == id)

/-- A field, nest or NMU operation is complete. -/
def State.opEnded (s : State) (id : Nat) : State := s.mapCtx (Ctx.hasOp id) fun c => { c with ops := c.ops.filter (· != id) }

/-- The strand with a tag on core G changed, wherever it is held (R63). -/
def State.onStrand (s : State) (G : Nat) (tag : BitVec 8) (f : Ctx → Ctx) : State :=
  let g := fun (c : Ctx) => if c.r.tag == tag then f c else c
  let k := fun (co : Core) => { co with shadow := co.shadow.map fun h => { h with c := g h.c } }
  { s with
    ctx := if s.here = G then g s.ctx else s.ctx
    ctxs := s.ctxs.map fun c => if c.1 / 4 = G then (c.1, g c.2) else c
    core := if s.here = G then k s.core else s.core
    cores := s.cores.map fun c => if c.1 = G then (c.1, k c.2) else c
    spilled := s.spilled.map fun q => if q.core = G then { q with c := g q.c } else q }

/-- The strand has an access in flight. -/
def Ctx.hasAccess (id : Nat) (c : Ctx) : Bool := c.flight.any fun a => a.id == id

/-- The strand has a reserved ALQ entry. -/
def Ctx.hasEntry (id : Nat) (c : Ctx) : Bool := c.r.alq.any fun e => e.id == id

/-- Core G and its context X in the current place, nothing else changed. -/
def State.bring (s : State) (G : Nat) (X : BitVec 2) : State :=
  let t := s.stow
  let co := (findKey t.cores G).getD Core.reset
  { t with
    here := G
    core := { co with cur := X }
    cores := eraseKey t.cores G
    ctx := (findKey t.ctxs (4 * G + X.toNat)).getD Ctx.reset
    ctxs := eraseKey t.ctxs (4 * G + X.toNat) }

/-- Core G has its turn, with its context X holding issue (R156, log 1). -/
def State.turnTo (s : State) (G : Nat) (X : BitVec 2) : State :=
  (s.bring G X).withCtx fun c => if c.st = .stopped then c else { c with st := .running, age := 0 }

/-- A change made to the strand of context x as if it were the current one. -/
def State.asCtx (s : State) (x : Nat) (f : State → State) : State :=
  if x = s.me then f s
  else (f (s.bring (x / 4) (BitVec.ofNat 2 (x % 4)))).bring s.here s.core.cur

/-- A strand that can be given issue: ready, or blocked and due to try its bundle again (R158). -/
def Ctx.canRun (c : Ctx) : Bool :=
  !c.gone && (match c.st with
    | .ready => true
    | .running => true
    | .blocked => true
    | _ => false)

/-- The next context in the rotation X + 1, X + 2, X + 3 that can run; none if the core idles (R158). -/
def State.nextCtx (s : State) : Option (BitVec 2) :=
  [1#2, 2#2, 3#2].map (fun k => s.core.cur + k) |>.find? fun X =>
    match findKey s.ctxs (4 * s.here + X.toNat) with
    | some c => c.canRun
    | none => false

/-- The switch of a blocked or ended context: the next context in rotation takes issue (R158). -/
def State.switch (s : State) : State :=
  match s.nextCtx with
  | some X => s.turnTo s.here X
  | none => s

/-! ## Bank ownership (R62 to R66) -/

/-- The bank's ownership bit. -/
def State.bankHeld (s : State) (G b : Nat) : Bool := (s.reg (oBHELD (twrOf G) (tcoreOf G))).getLsbD b
/-- The bank's tag field. -/
def State.bankTag (s : State) (G b : Nat) : BitVec 8 :=
  (s.reg (oBHOLD (twrOf G) (tcoreOf G) (b / 8))).extractLsb' (8 * (b % 8)) 8
/-- Bank b held under a tag. -/
def State.holdBank (s : State) (G b : Nat) (tag : BitVec 8) : State :=
  let oh := oBHELD (twrOf G) (tcoreOf G)
  let ot := oBHOLD (twrOf G) (tcoreOf G) (b / 8)
  let s1 := s.setReg ot (setBits (s.reg ot) (8 * (b % 8) + 7) (8 * (b % 8)) tag.toNat)
  s1.setReg oh (s1.reg oh ||| (1#64 <<< b))
/-- Bank b free: no release of it is due any more. -/
def State.dropBank (s : State) (G b : Nat) : State :=
  let oh := oBHELD (twrOf G) (tcoreOf G)
  let t := s.setReg oh (s.reg oh &&& ~~~(1#64 <<< b))
  { t with brels := t.brels.filter fun q => !(q.1 == G && q.2.1 == b) }

/-- Banks of a scratchpad that n bytes at a scratchpad location touch (R39). -/
def banksOf (l n : Nat) : List Nat :=
  let o := (l - regionSize) % 0x80000
  if n = 0 then [] else (rangeFrom (o / 0x4000) ((o + n - 1) / 0x4000 + 1)).filter (· < 32)

/-- A bank of the list is held by another strand than the holder of tag (Table 3-2). -/
def State.bankRefuses (s : State) (G : Nat) (tag : BitVec 8) (bs : List Nat) : Bool :=
  bs.any fun b => s.bankHeld G b && s.bankTag G b != tag

/-- An engine operation or nest that has not completed has a range in bank b of core G; who limits it to those of the strand with a tag (R64, R65). -/
def State.bankBusy (s : State) (G b : Nat) (who : Option (BitVec 8)) : Bool :=
  (s.coreAt G).rng.any fun e => regionOf e.lo == 1 && (banksOf e.lo (e.hi - e.lo)).any (· == b) &&
    (match who with
      | none => true
      | some t => e.tag == t)

/-- A bank is released: it becomes free once the engine operations in it of the strand with the bank's tag have completed, wherever that
strand is held (R65, R66). -/
def State.releaseBank (s : State) (G b : Nat) (tag : BitVec 8) : State :=
  if !s.bankBusy G b (some tag) then s.dropBank G b
  else if s.brels.any (· == (G, b, tag.toNat)) then s
  else
    { s with brels := s.brels ++ [(G, b, tag.toNat)]
             agenda := s.agenda ++ [{ i := .bankReleaseEffect, x := G, y := b, z := tag.toNat }] }

/-- Every bank that a tag holds on a core is released (R65, R270). -/
def State.releaseAll (s : State) (G : Nat) (tag : BitVec 8) : State :=
  (List.range 32).foldl (fun (t : State) b => if t.bankHeld G b && t.bankTag G b == tag then t.releaseBank G b tag else t) s

/-- A tag of core G is in use: by a context, the shadow bank with the strand that a swap brings in, a spilled image, or a held bank; an
image that CTXSV wrote is none of these, and a free bank's field keeps nothing (R63). DESIGN CHOICE: log 47. -/
def State.tagUsed (s : State) (G : Nat) (tag : BitVec 8) : Bool :=
  ([0, 1, 2, 3].any fun X => match s.ctxAt (4 * G + X) with
    | some c => c.r.tag == tag
    | none => false) ||
  (match (s.coreAt G).shadow with
    | some h => h.c.r.tag == tag || h.next.any fun c => c.r.tag == tag
    | none => false) ||
  (s.spilled.any fun q => q.core == G && !q.saved && q.c.r.tag == tag) ||
  ((List.range 32).any fun b => s.bankHeld G b && s.bankTag G b == tag)

/-- The lowest free tag of a core (R63). -/
def State.freeTag (s : State) (G : Nat) : Option (BitVec 8) :=
  ((List.range 255).map fun n => BitVec.ofNat 8 (n + 1)).find? fun t => !s.tagUsed G t

/-! ## Reports about the current strand (R140) -/

/-- A report about the current strand. -/
def State.reportHere (s : State) (cls sev : Nat) (addr synd detail : Word) : State :=
  s.report (twrOf s.here) cls sev s.here s.core.cur.toNat s.ctx.seg.isSome ((s.ctx.seg.map (·.rewinds)).getD 0) addr synd detail

/-! ## Ending a strand (R186, R194, R270) -/

/-- Commands of a strand that are complete but for a seal that its segment withheld write it: no segment holds them back any more (R145 step 3,
R186). -/
def State.sealsOut (s : State) (x : Nat) (c : Ctx) : State :=
  (c.eq.filter (·.sealOnly)).foldl (fun (t : State) q => t.queue { i := .copyCommandComplete, x := x, y := q.id }) s

/-- A strand that has ended leaves its context once no load of it is outstanding; what else it issued performs in its own time
(R270). -/
def State.reap (s : State) (x : Nat) : State :=
  match s.ctxAt x with
  | none => s
  | some c =>
    if c.gone && !c.flight.any (fun a => isLoadInstr a.i) then
      ({ s with past := if c.hasLeft then s.past ++ [(x / 4 * 4, c)] else s.past }).freeCtx x
    else s

/-- The strand of context x ends: unlanded results are discarded and accesses that faulted never perform, its banks are released, and it
issues nothing more (R186, R194, R270). -/
def State.endStrand (s : State) (x : Nat) : State :=
  match s.ctxAt x with
  | none => s
  | some c =>
    let s1 := s.releaseAll (x / 4) c.r.tag
    let d : Ctx := { c with
      gone := true, due := [], seg := none, mon := none, acq := 0#32, yreq := none, phase := .left
      eq := c.eq.map fun q => { q with seg := false }
      flight := c.flight.filter fun a => !a.flt
      late := [], drn := 0#3, drnBack := none, post := [], postBack := []
      r := { c.r with pend := [], barw := {} } }
    ((s1.putCtx x d).sealsOut x c).reap x

/-- A double trap or other machine check at an address: a record of severity 4, of the class of the storage in error and class 0 where there is
none (log 61), a notice with MCHK, and the kill (R131, R148, R194, R213, R445). -/
def State.machineCheck (s : State) (x : Nat) (addr : Word) (cls : Nat := 0) (synd : Word := 0#64) : State :=
  match s.ctxAt x with
  | none => s
  | some c =>
    let T := twrOf (x / 4)
    let s1 := s.report T cls 4 (x / 4) (x % 4) c.seg.isSome ((c.seg.map (·.rewinds)).getD 0) addr synd 0#64
    let s2 := s1.notice T cMCHK x c.r.stage c.r.tfb c.r.pc addr
    s2.endStrand x

/-- A transfer of a strand's state outside its context fails at an address: the strand is killed as by a double trap and its image is
discarded; what it has sent goes on without it (R213, R270, R445). -/
def State.killDisplaced (s : State) (p : Ctx → Bool) (addr : Word) : State :=
  match s.findCtx p with
  | none => s
  | some (x, away, c) =>
    if !away then s.machineCheck x addr
    else
      let G := x / 4
      let s1 := (s.report (twrOf G) 0 4 G 0 false 0 addr 0#64 0#64).notice (twrOf G) cMCHK (4 * G) c.r.stage c.r.tfb c.r.pc addr
      let k := fun (co : Core) => { co with shadow := match co.shadow with
        | some h => if !p h.c then some h
          else if h.swapping then some { h with c := { Ctx.reset with gone := true, st := .stopped } }
          else none
        | none => none }
      let s2 := ({ s1 with core := k s1.core, cores := s1.cores.map fun (q : Nat × Core) => (q.1, k q.2),
                           spilled := s1.spilled.filter fun q => !p q.c } : State).releaseAll G c.r.tag
      let d : Ctx := { c with
        gone := true, due := [], seg := none, late := []
        eq := c.eq.map fun q => { q with seg := false }
        flight := c.flight.filter fun a => !a.flt
        r := { c.r with pend := [], barw := {} } }
      if d.hasLeft then { s2 with past := s2.past ++ [(x / 4 * 4, d)] } else s2

/-! ## The trap frame (R195 to R199) -/

/-- A slot word and its header bits as a frame records an instruction (word 0x000 of Table 8-5): lent bits are 0 where the slot word
says the instruction alone (log 13). -/
def insWord (p : Pos) (i : Instr) : Word :=
  let e := pack false (encodeFields i)
  let alone := (decodeSlot p none e.1).map (·.1) == some i
  BitVec.ofNat 64 (posNum p * 2 ^ 40 + (if alone then 0 else e.2.toNat) * 2 ^ 32 + e.1.toNat)

/-- The sixteen doublewords of a 128-byte field. -/
def vecWords (x : Vec) : List Word := (List.range 16).map fun k => x.extractLsb' (64 * k) 64

/-- A vector of lane addresses or of one address: the OPA and OPB fields of a KIND 1 entry (R196). -/
def addrFields (a : Access) : List Word :=
  match a.addrs with
  | [ea] => [ea] ++ List.replicate 15 0#64 ++ vecWords (if a.pos = .s then a.data else 0#1024)
  | l => (l ++ List.replicate 32 0#64).take 32

/-- The nibbles of a lane that hold bits of a mask. -/
def nibbles (x : Nat) : Nat := (List.range 8).foldl (fun acc k => if x / 16 ^ k % 16 = 0 then acc else acc + 2 ^ k) 0

/-- NM of a supplied result: the written nibbles of its lanes, all of them for a scalar or predicate (Table 8-5). -/
def nibbleMask (ws : List Write) : Nat :=
  match ws.head? with
  | some (.v _ _ m) =>
    (match (List.range 32).find? fun i => m.extractLsb' (32 * i) 32 != 0#32 with
      | some i => nibbles (m.extractLsb' (32 * i) 32).toNat
      | none => 0)
  | _ => 0xff

/-- A result as its replay entry has it: that of KIND 3 names an instruction that stands for it where nothing else was captured (R196). -/
def Pend.entry (q : Pend) : Pend :=
  match q.value, q.ws with
  | true, [w] => suppliedPend q.left q.bc w
  | _, _ => q

/-- A KIND 0 or KIND 3 replay entry of 512 bytes (Table 8-5). -/
def pendEntry (q0 : Pend) : List Word :=
  let q := q0.entry
  [insWord q.pos q.i,
   BitVec.ofNat 64 ((if q.supplied then 3 else 0) * 2 ^ 8 + q.left % 16), 0#64, q.rbw, q.gm.setWidth 64,
   (if q.supplied then BitVec.ofNat 64 (nibbleMask q.ws) else 0#64)] ++ List.replicate 10 0#64 ++ vecWords q.a ++ vecWords q.b ++ vecWords q.c

/-- A KIND 1 replay entry (Table 8-5, R196). -/
def accessEntry (a : Access) : List Word :=
  [insWord a.pos a.i, BitVec.ofNat 64 (b2n a.flt * 2 ^ 11 + b2n a.poi * 2 ^ 10 + 2 ^ 8), (if a.flt then a.efa else 0#64), 0#64,
   a.gm.setWidth 64, 0#64] ++ List.replicate 10 0#64 ++ addrFields a ++ vecWords (if a.pos = .s then 0#1024 else a.data)

/-- An entry of the replay queue before it is laid out. -/
inductive Replay where
  | pend (q : Pend)
  | access (a : Access)
  deriving DecidableEq, Repr, Inhabited

/-- Issue order of a replay entry: bundle, then slot position. -/
def Replay.key : Replay → Int
  | .pend q => 4 * q.bc.toInt + posNum q.pos
  | .access a => 4 * a.bc.toInt + posNum a.pos

/-- Insertion by issue order, after entries of the same place. -/
def insReplay (e : Replay) : List Replay → List Replay
  | [] => [e]
  | a :: t => if e.key < a.key then e :: a :: t else a :: insReplay e t

/-- An access that a trap takes into the replay queue: a load, or a store or reduction whose page is not yet translated
(R197), or an access that faulted. Field, bazaar and entrepôt stores need no translation and stay in flight, and atomics never
enter. -/
def Access.replays (a : Access) : Bool :=
  !isAtomicInstr a.i && (a.flt || isLoadInstr a.i || a.addrs.any fun v => decide (v.toNat < fixedBase))

/-- Two results of one instruction that its replay computes again (R196). -/
def Pend.mate (a e : Pend) : Bool :=
  a.bc == e.bc && a.pos == e.pos && a.i == e.i && !e.supplied && !a.supplied && !a.value && !e.value

/-- The results of one instruction that land together in one entry (R196). -/
def joinPend (e : Pend) : List Pend → List Pend
  | [] => [e]
  | a :: t => if a.mate e then { a with ws := a.ws ++ e.ws } :: t else a :: joinPend e t

/-- The unlanded results as entries: KIND 0 where the instruction, computed again, lands them all in one bundle, and else each result by itself,
as it is (R196, R197, R243, R254). -/
def pendEntries (l : List Pend) : List Pend :=
  let apart := fun (q : Pend) => !q.supplied && (q.value || q.left == 0 || l.any fun e => q.mate e && e.left != q.left)
  (l.flatMap fun q => if apart q then q.ws.map fun w => { q with ws := [w], value := true } else [q]).foldl
    (fun acc e => joinPend e acc) []

/-- The replay queue of a strand in issue order (R196, R197). -/
def replayQueue (c : Ctx) : List Replay :=
  let l := (pendEntries c.r.pend).map Replay.pend
  (c.flight.filter (·.replays)).foldl (fun acc a => insReplay (.access a) acc)
    (l.foldl (fun acc q => insReplay q acc) [])

/-- Word 0 of the frame (Table 8-4). -/
def frameWord (c : Ctx) (t : Trap) (rqn : Nat) : Word :=
  BitVec.ofNat 64 (
    (if t.kind = .alq then c.r.alqh.toNat * 2 ^ 36 else 0) + t.eidx.toNat * 2 ^ 32 + rqn * 2 ^ 26 + b2n c.r.ssq * 2 ^ 25 +
    b2n c.r.ssm * 2 ^ 24 + c.r.lact.toNat * 2 ^ 20 + b2n c.sspend * 2 ^ 18 + b2n t.skip * 2 ^ 15 + b2n t.eng * 2 ^ 14 +
    (if t.kind = .issue ∨ t.kind = .alq then 2 ^ 13 else 0) + b2n c.r.sup * 2 ^ 12 + t.slot.toNat * 2 ^ 10 + t.cause.toNat)

/-- The frame's first 256 bytes; q holds the capture words of an ALQ-delivered trap (R195, R199). -/
def frameHead (c : Ctx) (t : Trap) (rqn : Nat) (q : List Word) : List Word :=
  [frameWord c t rqn, c.r.pc, c.r.bc, t.faddr, t.finfo, 0#64] ++ (List.range 12).map (fun k => c.r.lreg k) ++
  [q.getD 0 0#64, q.getD 1 0#64, q.getD 2 0#64, 0#64, q.getD 3 0#64, 0#64] ++
  (List.range 8).map (fun k => c.r.sreg (BitVec.ofNat 6 (56 + k)))

/-- The replay entries written from offset 0x100 on (R195, R196). -/
def State.putReplays (s : State) (G : Nat) (va : Word) : List Replay → Except Stop State
  | [] => .ok s
  | e :: t => do
    let u ← s.putWordsVA (.core G) G va (match e with
      | .pend q => pendEntry q
      | .access a => accessEntry a)
    u.putReplays G (va + 0x200#64) t

/-- Offset of the capture record of an ALQ ring slot in the frame (R199). -/
def captureAt (tfb : Word) (slot : BitVec 4) : Word := tfb + 0x7300#64 + BitVec.ofNat 64 (0x80 * slot.toNat)

/-- The frame of a trap, written at TFB, or what stops a store of it (R193 step 2). For an ALQ-delivered trap the
producer's words, cause and address are those of its capture record (R199). -/
def State.putFrame (s : State) (t : Trap) : Except Stop State := do
  let c := s.ctx
  let rq := replayQueue c
  let (t', q, s1) ← if t.kind = .alq then do
      let (l, u) ← s.getWordsVA (.core s.here) s.here (captureAt c.r.tfb c.r.alqh) 12
      pure ({ t with cause := (l.getD 10 0#64).setWidth 8, faddr := l.getD 11 0#64 }, l.take 4, u)
    else pure (t, [], s)
  let s2 ← s1.putWordsVA (.core s.here) s.here c.r.tfb (frameHead c t' rq.length q)
  s2.putReplays s.here (c.r.tfb + 0x100#64) rq

/-- The state that a trap leaves once its frame is written (R193 step 3): the replay queue has left the context, depth and level rise, every loop
level and SSM go inactive, a drain that it interrupts is kept for the return, its group has ended, and the handler's first bundle is
next. A completion trap whose access is in the frame is no longer due (R192). -/
def State.enterHandler (s : State) (vec : Word) : State :=
  (s.withCtx fun c => { c with
    r := { c.r with pc := vec, sup := true, deep := true, lact := 0#4, ssm := false, pend := [] }
    npc := none
    lset := 0#4
    sspend := false
    drn := 0#3
    drnBack := if c.drn = 0#3 then c.drnBack else some (c.drn, c.drnScope, c.drnId)
    post := []
    postBack := c.post
    markDue := false
    ahead := []
    trapId := s.uid
    flight := c.flight.filter fun a => !a.replays
    due := c.due.filter fun d => !(d.kind == .completion) }).endGroup

/-- The current strand waits for the host's grant of a page, asked for once; where the host has refused it, deny follows (R98). -/
def State.sleepHere (s : State) (va : Word) (deny : State → State) (wait : State → State) : State :=
  let T := twrOf s.here
  if s.ctx.asks == pageMark T va 2 then (deny s).withCtx fun c => { c with asks := 0#64 }
  else wait ((s.askHost T va).withCtx fun c => { c with asks := pageMark T va 1 })

/-- TAKING A TRAP (R193): a double trap at depth 1 or without a handler, or where a store of the frame faults or meets poison (R194); else
the frame is written and the handler is entered. While a page of the frame is BUSY or asked of the host, the trap waits (R98, R102). -/
def takeTrap (t : Trap) (s0 : State) : State :=
  let s := s0.withRegs Regs.settle
  let vec := s.reg (oTVEC (twrOf s.here))
  let waits := fun (u : State) => u.withCtx fun c => { c with phase := .entering }
  if s.ctx.r.deep || vec == 0#64 then s.machineCheck s.me t.faddr
  else match s.putFrame t with
    | .ok s1 => s1.enterHandler vec
    | .error (.fault _ va _ u) => (s.kept u).machineCheck s.me va
    | .error (.wait u) => waits (s0.kept u)
    | .error (.ask va u) => (s0.kept u).sleepHere va (fun k => k.machineCheck k.me va) waits

/-- The traps due at this boundary in the order of R192: completion traps by the age of their access, asynchronous traps, the
SSTEP trap, after-issue traps. In a handler only completion traps are taken. -/
def Ctx.firstDue (c : Ctx) : Option Trap :=
  let of := fun (k : TrapKind) => c.due.find? fun t => t.kind == k
  let done := match (c.flight.filter (·.flt)).findSome? fun a => c.due.find? fun t => t.kind == .completion && t.acc == a.id with
    | some t => some t
    | none => of .completion
  match done with
  | some t => some t
  | none =>
    if c.r.deep then none
    else match (if c.r.sup then none else of .async) with
      | some t => some t
      | none =>
        match c.due.find? fun t => t.kind == .after && t.cause == cSSTEP with
        | some t => some t
        | none => of .after

/-- The first trap due is taken; an SSTEP trap that it displaces goes into the frame (R192, R200). While its frame has to wait it stays
due. -/
def State.takeDue (s : State) : State :=
  match s.ctx.firstDue with
  | none => s
  | some t =>
    let step := fun (d : Trap) => d.kind == .after && d.cause == cSSTEP
    let rest := (s.ctx.due.erase t).filter fun d => !step d
    let u := takeTrap t (s.withCtx fun c => { c with due := rest, sspend := (c.due.erase t).any step })
    if u.ctx.phase = .entering then u.withCtx fun c => { c with due := s.ctx.due, sspend := s.ctx.sspend } else u

/-- The SSTEP trap of a bundle that advanced %bc (R210). -/
def State.stepDue (s : State) (skip : Bool) : State :=
  if s.ctx.r.ssm && !s.ctx.r.sup then
    s.withCtx fun c => { c with due := c.due ++ [{ kind := .after, cause := cSSTEP, slot := 0#2, skip := skip }] }
  else s

/-- An issue trap of the current bundle: the bundle has no effect and the trap is taken (R191). -/
def issueTrap (t : Trap) (s : State) : State :=
  (takeTrap t s).withCtx fun c => { c with phase := if c.phase = .entering then .entering else .issueTrap }

/-- The current bundle blocks on an engine queue (R157, Table 7-1, switch). -/
def State.block (s : State) : State := s.withCtx fun c => { c with phase := .blocked }

/-- The current bundle freezes issue (Table 7-1, freeze). -/
def State.freeze (s : State) : State := s.withCtx fun c => { c with phase := .frozen }

end Sys2Proof.Machine
end

