-- ==== Sys2Proof/Machine/Operands.lean ====
section
/-! DEFINITION. Operand forms: guards (R244, R254), results by latency (R243, Table 10-5), immediates (R274), and the issue
traps that a slot raises on its operands. -/

namespace Sys2Proof.Machine

/-- The answer of a meaning. -/
abbrev Out := Host.Outcome State Fault Refusal

/-- The guard of an X, S or E slot is true: bit 0 of p[g] (R244). -/
def State.on (s : State) (g : BitVec 4) : Bool := (s.pr g).getLsbD 0

/-- The slot has its effect when its guard is true and none otherwise (R244, R254). -/
def whenOn (g : BitVec 4) (s : State) (f : State → State) : Out := .next (if s.on g then f s else s)

/-- A supervisor instruction: PRIV at user level whatever its guard, else as its guard says (R244, R249). -/
def whenSup (p : Pos) (g : BitVec 4) (s : State) (f : State → State) : Out :=
  if s.ctx.r.sup then whenOn g s f
  else .next (issueTrap { kind := .issue, cause := cPRIV, slot := BitVec.ofNat 2 (posNum p) } s)

/-- A V slot acts lane by lane under its 32-bit guard mask (R244). -/
def whenLanes (g : BitVec 4) (s : State) (f : BitVec 32 → State → State) : Out :=
  .next (if s.pr g = 0#32 then s else f (s.pr g) s)

/-- An issue trap of the slot at position p (R191). -/
def State.trapAt (s : State) (p : Pos) (cause : BitVec 8) (faddr finfo : Word) : State :=
  issueTrap { kind := .issue, cause := cause, slot := BitVec.ofNat 2 (posNum p), faddr := faddr, finfo := finfo } s

/-- A result of latency 1 at position p. -/
def State.ret1 (s : State) (p : Pos) (i : Instr) (ws : List Write) : State := s.land 1 p i ws 0#1024 0#1024 0#1024 0#32 0#64

/-- A scalar result of latency 1 of the S slot. -/
def State.retS (s : State) (i : Instr) (d : BitVec 6) (x : Word) : State := s.ret1 .s i [.s d x]

/-- A scalar result of latency 1 of the X slot. -/
def State.retX (s : State) (i : Instr) (d : BitVec 5) (x : Word) : State := s.ret1 .x i [.s (d.setWidth 6) x]

/-- A predicate result of the S slot, all 32 bits. -/
def State.retP (s : State) (i : Instr) (d : BitVec 4) (x : BitVec 32) : State := s.ret1 .s i [.p d x 0xffffffff#32]

/-- FINFO of an access: its kind and log2 of its width (Table 8-4). -/
def finfo (kind n : Nat) : Word := BitVec.ofNat 64 (log2n n * 16 + kind)

end Sys2Proof.Machine
end

