-- ==== Sys2Proof/Machine/Parts.lean ====
section
/-! DEFINITION. The parts of a remote access: its elements, the units that perform on their own (R117, R325), their order (R112, R114,
R115, R325), and putting an access in flight (R198). -/

namespace Sys2Proof.Machine

/-! ## Elements and units (R117, R322, R325) -/

/-- One element of an access: its address, its byte offset in the access's data, and its bytes. -/
abbrev Part := Word × Nat × Nat

/-- A non-returning reduction (R121, R288). -/
def isReduction : Instr → Bool
  | .radd _ _ _ _ | .rmin _ _ _ _ _ | .rmax _ _ _ _ _ | .rand _ _ _ _ | .ror _ _ _ _ | .rxor _ _ _ _ | .rfadd _ _ _ => true
  | _ => false

/-- A cache maintenance operation on the line of an address (R303, R304). -/
def isMaint : Instr → Bool
  | .dcfl _ _ | .dcinv _ _ => true
  | _ => false

/-- The FINFO access kind of an access: load, store or atomic; the reductions are among the atomics, and cache maintenance
translates as a load (Table 8-4, R284, R304). -/
def accessKind (i : Instr) : Nat :=
  if isLoadInstr i || isMaint i then 0 else if isAtomicInstr i || isReduction i then 2 else 1

/-- The element addresses of an access with their byte offsets in its data: one element, or one for each guarded lane. A VLD
or VST reaches each guarded lane's 4 B (R322). -/
def accessParts (a : Access) : List Part :=
  let row := (guardedLanes a.gm).map fun i => (a.addrs.headD 0#64 + BitVec.ofNat 64 (4 * i), 4 * i, 4)
  let lanes := fun (n : Nat) => (guardedLanes a.gm).map fun i => (a.addrs.getD i 0#64, 4 * i, n)
  match a.i with
  | .vld _ _ _ _ => row
  | .vst _ _ _ _ => row
  | .vlds _ _ _ _ => lanes 4
  | .vsts _ _ _ _ => lanes 4
  | .vldx _ _ _ _ _ => lanes 4
  | .vstx _ _ _ _ _ => lanes 4
  | .rbias _ _ _ _ _ => lanes 2
  | _ => [(a.addrs.headD 0#64, 0, accessWidth a.i)]

/-- The parts that lie in remote memory; local lanes have performed at issue (R113). -/
def remoteParts (a : Access) : List Part :=
  (accessParts a).filter fun p => match decodeByte a.core p.1.toNat with
    | some (w, _) => !w.isLocal
    | none => true

/-- The lanes of a VLD or VST in the units that perform whole: four lanes that make up an aligned 16 B, else one lane (R325). -/
def rowUnits (ps : List Part) : List (List Part) :=
  let same := fun (p : Part) => ps.filter fun q => q.1.toNat / 16 == p.1.toNat / 16
  ps.filterMap fun p =>
    if (same p).length < 4 then some [p]
    else if p.1.toNat % 16 = 0 then some (same p)
    else none

/-- An element that is not naturally aligned performs as independent bytes (R117). -/
def elementUnits (p : Part) : List (List Part) :=
  if aligned p.1.toNat p.2.2 then [[p]]
  else (List.range p.2.2).map fun k => [(p.1 + BitVec.ofNat 64 k, p.2.1 + k, 1)]

/-- The units of an access, each of which performs whole and on its own (R117, R325). -/
def unitsOf (a : Access) : List (List Part) :=
  match a.i with
  | .vld _ _ _ _ => rowUnits (remoteParts a)
  | .vst _ _ _ _ => rowUnits (remoteParts a)
  | i => if isAtomicInstr i || isReduction i || isMaint i then [remoteParts a] else (remoteParts a).flatMap elementUnits

/-- The parts of unit k. -/
def unitParts (a : Access) (k : Nat) : List Part := (unitsOf a).getD k []

/-- The parts that have not performed, in lane order. -/
def leftParts (a : Access) : List Part := a.left.flatMap (unitParts a)

/-- The first guarded lane's address, for a fault that names no other. -/
def Access.addr (a : Access) : Word := ((remoteParts a).headD (a.addrs.headD 0#64, 0, 0)).1

/-! ## Accesses in flight -/

/-- An access in flight replaced by a change of itself. -/
def Ctx.onAccess (c : Ctx) (id : Nat) (f : Access → Access) : Ctx :=
  { c with flight := c.flight.map fun a => if a.id == id then f a else a }

/-- The access leaves flight. -/
def Ctx.dropAccess (c : Ctx) (id : Nat) : Ctx := { c with flight := c.flight.filter fun a => a.id != id }

/-- The event by which a unit of a remote access performs (R47, R109, R242). -/
def accessEvent (x : Nat) (a : Access) (k : Nat) : Ev :=
  let fieldv := (unitParts a k).any fun p => match decodeByte a.core p.1.toNat with
    | some (.fieldv, _) => true
    | _ => false
  { i := if fieldv then .storageViewArrival else if isLoadInstr a.i then .remoteLoadLanding else .remoteAccessPerform,
    x := x, y := a.id, z := k }

/-- An access put in flight for context x, all its units to perform. -/
def State.launch (s : State) (x : Nat) (a : Access) : State :=
  let left := List.range (max 1 (unitsOf a).length)
  let t := s.onCtx x fun c => { c with flight := c.flight ++ [{ a with left := left, got := 0 }] }
  { t with agenda := t.agenda ++ left.map (accessEvent x a) }

/-- A store that a segment has held put in flight in its place by issue: later accesses of the strand to its lines come after it (R114, R127). -/
def State.launchHeld (s : State) (x : Nat) (a : Access) : State :=
  let left := List.range (max 1 (unitsOf a).length)
  let b := { a with left := left, got := 0 }
  let t := s.onCtx x fun c => { c with
    flight := (c.flight.takeWhile fun q => decide (q.id < a.id)) ++ [b] ++ c.flight.dropWhile fun q => decide (q.id < a.id) }
  { t with agenda := t.agenda ++ left.map (accessEvent x a) }

/-- The remote accesses of a context that count towards its 28 (R198). -/
def Ctx.outstanding (c : Ctx) : Nat := (c.flight.filter fun a => !isAtomicInstr a.i).length

/-! ## Order (R112, R114, R115, R325) -/

/-- The line of an address as far as it is known: its location's line in the fixed region and where the page translates now; and its
offset in its page, by which it is compared where it does not (log 4). -/
structure LineKey where
  loc : Option Nat
  off : Nat
  deriving DecidableEq, Repr, Inhabited

/-- The lines of n bytes at an address. -/
def State.lineKeys (s : State) (a : Access) (p : Part) : List LineKey :=
  let one := fun (v : Nat) =>
    let loc := match decodeByte a.core v with
      | some (.paged, _) =>
        (match (translate s (.core a.core) v a.sup .read).2 with
          | .ok l _ => some (lineOf l)
          | _ => none)
      | some (_, l) => some (lineOf l)
      | none => none
    (⟨loc, v % 4096 / 64⟩ : LineKey)
  let lo := p.1.toNat
  let hi := lo + p.2.2 - 1
  if lo / 64 = hi / 64 then [one lo] else [one lo, one hi]

/-- Two lines may be one. -/
def LineKey.meets (a b : LineKey) : Bool :=
  match a.loc, b.loc with
  | some x, some y => x == y
  | _, _ => a.off == b.off

/-- The parts of an access that have not performed may touch a line that given parts touch. -/
def State.sharesLine (s : State) (b : Access) (a : Access) (ps : List Part) : Bool :=
  let mine := ps.flatMap (s.lineKeys a)
  ((leftParts b).flatMap (s.lineKeys b)).any fun k => mine.any k.meets

/-- An access of the same bundle that reads before this one writes (R112). -/
def readsFirst (b a : Access) : Bool :=
  b.bc == a.bc && (isLoadInstr b.i || isAtomicInstr b.i) && !isLoadInstr a.i && !(isAtomicInstr a.i && isAtomicInstr b.i)

/-- Two lanes of a scatter name overlapping bytes (R325). -/
def overlaps (p q : Part) : Bool :=
  let x := p.1.toNat % 4096
  let y := q.1.toNat % 4096
  decide (x < y + q.2.2) && decide (y < x + p.2.2)

/-- Unit k of an access of the strand c may perform: the access does not sleep on a page request; what its strand issued before it on the
lines of the unit has performed, and so have the loads of its own bundle where it stores, the stores that it follows in its segment or in a
trap handler, at .mod, and earlier lanes of a scatter on its bytes (R98, R112, R114, R127, R128, R145, R325). -/
def State.unitTurn (s : State) (c : Ctx) (a : Access) (k : Nat) : Bool :=
  let ps := unitParts a k
  !a.sleep &&
  !(c.flight.takeWhile fun b => b.id != a.id).any (fun b => s.sharesLine b a ps) &&
  !c.flight.any (fun b => b.id != a.id && readsFirst b a) &&
  !c.flight.any (fun b => decide (a.floor < b.id) && decide (b.id ≤ a.fence) && !isLoadInstr b.i) &&
  !(a.fence != 0 && s.inval.any fun v => v.src == strandOn a.core c.r.tag && !v.acc) &&
  (isLoadInstr a.i || !(a.left.takeWhile (· != k)).any fun j => (unitParts a j).any fun q => ps.any (overlaps q))

/-- The strands whose accesses leave core G's memory port: those in its contexts, in its shadow bank, and those that have left. -/
def State.onPort (s : State) (G : Nat) : List Ctx :=
  let shadow := match (s.coreAt G).shadow with
    | some h => [h.c]
    | none => []
  (if s.here = G then [s.ctx] else []) ++ (s.ctxs.filter fun q => q.1 / 4 == G).map (·.2) ++ shadow ++
    (s.spilled.filter fun q => q.core == G).map (·.c) ++ (s.past.filter fun q => q.1 / 4 == G).map (·.2)

/-- What the other strands of the core issued before an access on the lines of its unit has performed: one source's requests to one line
keep their order (R115). An access that sleeps on a page request or has faulted has left the port. -/
def State.portTurn (s : State) (a : Access) (k : Nat) : Bool :=
  let ps := unitParts a k
  !(s.onPort a.core).any fun c => !c.hasAccess a.id &&
    c.flight.any fun b => decide (b.id < a.id) && !b.flt && !b.sleep && s.sharesLine b a ps

end Sys2Proof.Machine
end

