-- ==== Sys2Proof/Machine/Segment.lean ====
section
/-! DEFINITION. Segments: the undo log, held stores, rewinding and closing (R127, R139, R143 to R149). -/

namespace Sys2Proof.Machine

/-- The strand of the current context has an open segment and runs at user level (R139, R144). -/
def State.inSeg (s : State) : Bool := s.ctx.seg.isSome && !s.ctx.r.sup

/-- The scoreboard of a core without the entries of some operations. -/
def Core.release (c : Core) (ids : List Nat) : Core := { c with sb := c.sb.filter fun e => !setHas ids e.id }

/-- A core on which the operations with some scoreboard entries have completed: their ranges hold back no bank any more (R64, R65). -/
def Core.finish (c : Core) (ids : List Nat) : Core := { (c.release ids) with rng := c.rng.filter fun e => !setHas ids e.id }

/-- Number of segment store buffer entries that an access needs: one for each naturally aligned 16 B part that it writes, or one for
each guarded lane of a scatter that lies in remote memory (R144, R324). -/
def heldParts (a : Access) : Nat :=
  match a.addrs with
  | [ea] =>
    (match a.i with
      | .vst _ _ _ _ => ((guardedLanes a.gm).map fun i => (ea.toNat + 4 * i) / 16).eraseDups.length
      | _ => (ea.toNat + accessWidth a.i - 1) / 16 - ea.toNat / 16 + 1)
  | _ => (remoteParts a).length

/-- Entries in use of the segment store buffer of the current core; its four contexts share it (R144). -/
def State.heldCount (s : State) : Nat :=
  let one := fun (c : Ctx) => match c.seg with
    | some g => g.held.foldl (fun n h => match h with
        | .access a => n + heldParts a
        | .marker => n) 0
    | none => 0
  one s.ctx + (s.ctxs.filter fun c => c.1 / 4 == s.here).foldl (fun n c => n + one c.2) 0

/-- A location lies in a named bank of a segment, or in the A-store when its flag is set (R144). -/
def Seg.names (g : Seg) (l : Nat) : Bool :=
  if regionOf l = 1 then (banksOf l 1).any fun b => g.mask.getLsbD b else g.aflag && decide (regionOf l = 2)

/-- The old contents of each line that a local write of context x touches first in its segment, logged; nothing when the
1,024 lines of the undo buffer are full (R144, R149). -/
def State.logLines (s : State) (G x : Nat) (g : Seg) : List Nat → Option State
  | [] => some s
  | a :: t =>
    if !g.names a || (s.coreAt G).undo.any (fun u => u.x == x && u.line == a) then s.logLines G x g t
    else if 1024 ≤ (s.coreAt G).undo.length then none
    else
      let poi := (List.range 8).filterMap fun k => if s.poisonedAt (a + 8 * k) 1 then some (a + 8 * k) else none
      (s.onCore G fun c => { c with undo := ⟨x, a, s.bytesAt a 64, poi⟩ :: c.undo }).logLines G x g t

/-- The segment of a context, if it is open. -/
def State.segOf (s : State) (x : Nat) : Option Seg := (s.ctxAt x).bind (·.seg)

/-- A logged line written back whole, with the poison that it had (R147 step 4, R148). -/
def State.undoLine (s : State) (u : Undo) : State :=
  u.poi.foldl State.setPoison
    { (s.putBytes u.line u.old) with poison := s.poison.filter fun g => !(decide (u.line ≤ g) && decide (g < u.line + 64)) }

/-- Rewinding the segment of the current context: its engine operations are cancelled, held stores dropped, logged lines
written back and the image restored; what it issued before the segment goes on, with the traps that are due for it (R147 steps 2 to 5). -/
def State.unwind (s : State) (g : Seg) : State :=
  let x := s.me
  let mine := s.core.undo.filter fun u => u.x == x
  let s1 := mine.foldl State.undoLine s
  let ops := ((s1.ctx.eq.filter (·.seg)).flatMap (·.sbs)) ++
    ((s1.core.nmuq.filter fun q => q.x == x && q.seg).flatMap (·.sbs)) ++
    (match s1.core.nest with
      | some n => if n.x == x && n.seg then n.sbs else []
      | none => []) ++
    ((s1.core.commits.filter fun n => n.x == x && n.seg).flatMap (·.sbs))
  let ids := (((s1.core.nest.toList ++ s1.core.commits).filter fun n => n.x == x && n.seg).map (·.id)) ++
    ((s1.core.nmuq.filter fun q => q.x == x && q.seg).map (·.id))
  let keep := fun (n : Option Nest) => match n with
    | some m => if m.x == x && m.seg then none else n
    | none => none
  let stays := fun (a : Access) => !isLoadInstr a.i || decide (a.bc.toInt < g.img.bc.toInt)
  { s1 with
    core := { (s1.core.finish ops) with
      undo := s1.core.undo.filter fun u => u.x != x
      nmuq := s1.core.nmuq.filter fun q => !(q.x == x && q.seg)
      coll := if (keep s1.core.nest).isNone then [] else s1.core.coll
      commits := s1.core.commits.filter fun n => !(n.x == x && n.seg)
      nest := keep s1.core.nest }
    ctx := { s1.ctx with
      r := g.img
      npc := none
      lset := 0#4
      grp := []
      ahead := []
      markDue := false
      phase := .issueTrap
      eq := s1.ctx.eq.filter fun c => !c.seg
      ops := s1.ctx.ops.filter fun i => !setHas ids i
      assays := s1.ctx.assays.filter fun a => !a.seg
      flight := s1.ctx.flight.filter stays
      due := s1.ctx.due.filter fun d => match d.kind with
        | .completion => s1.ctx.flight.any fun a => a.id == d.acc && stays a
        | .async => s1.ctx.eq.any fun c => c.faulted && !c.seg
        | _ => false } }

/-- A rewind that raises the count: the first resumes the strand after the opening bundle, the second kills it (R147, R148). cls
is the storage class of the error and addr its address. -/
def State.rewind (s : State) (cls : Nat) (addr : Word) (synd : Word := 0#64) : State :=
  match s.ctx.seg with
  | none => s
  | some g =>
    let n := g.rewinds + 1
    let s1 := s.unwind g
    let s2 := s1.withCtx fun c => { c with seg := some { g with rewinds := n, held := [], bad := false, halves := [] } }
    let s3 := s2.reportHere cls 3 addr synd 0#64
    if n < 2 then s3 else (s3.machineCheck s3.me addr cls synd).withCtx fun c => { c with phase := .left }

/-- A write that finds a buffer full: the segment is unwound without raising its count, with the record of a rewind, of the class of the segment
structures (R147 step 6, R149, log 61), closed, and SEGOVF is taken at its entry. -/
def State.overflowSeg (s : State) (p : Pos) : State :=
  match s.ctx.seg with
  | none => s
  | some g => (((s.unwind g).reportHere 12 3 0#64 0#64 0#64).withCtx fun c => { c with seg := none }).trapAt p cSEGOVF 0#64 0#64

/-- An uncorrectable error in what the current strand reads of its own: its segment rewinds at user level, and otherwise it is killed
(R131, R139, R144, R147). -/
def State.localError (s : State) (cls : Nat) (addr : Word) (synd : Word := 0#64) : State :=
  if s.inSeg then s.rewind cls addr synd else (s.machineCheck s.me addr cls synd).withCtx fun c => { c with phase := .left }

/-- A trap of the current bundle with a record of severity 3, written once the trap is taken (Table 6-3). -/
def State.loggedTrap (s : State) (p : Pos) (cls : Nat) (cause : BitVec 8) (va info synd : Word) : State :=
  let u := s.trapAt p cause va info
  if u.ctx.phase = .entering then u else (s.reportHere cls 3 va synd 0#64).trapAt p cause va info

/-- The current bundle consumes poison at issue: the open segment rewinds, a strand at supervisor level with an open segment is
killed, and otherwise the trap is taken with a record of severity 3 (R139, R144, Table 6-3). -/
def State.consume (s : State) (p : Pos) (cls : Nat) (va info : Word) : State :=
  if s.ctx.seg.isSome then s.localError cls va else s.loggedTrap p cls cPOISON va info 0#64

/-- The current bundle meets a line that fails its CRC at issue: INTEG, in a segment too, but that a strand at supervisor level with an
open segment is killed (R137, R144). The record names class 15 and the difference (R140, log 48). -/
def State.failCrc (s : State) (p : Pos) (va info synd : Word) : State :=
  if s.ctx.seg.isSome && s.ctx.r.sup then s.localError 15 va synd else s.loggedTrap p 15 cINTEG va info synd

/-- What a drain waits for has happened, as far as the accesses that counts names are concerned: bit 0, the strand's stores, reductions and atomics
have performed at the scope, every copy held inside it having accepted its invalidation; bit 1, its loads and atomics have performed; bit 2,
the inbound invalidations queued before the drain are applied (R108, R109, Table 5-2, R129). -/
def State.drainedOf (s : State) (counts : Access → Bool) (d : BitVec 3) (sc : Nat) : Bool :=
  !(d.getLsbD 0 && (s.ctx.flight.any (fun a => counts a && !isLoadInstr a.i) ||
    s.inval.any fun v => v.src == s.strand && !v.acc && inScope sc s.here v.core)) &&
  !(d.getLsbD 1 && s.ctx.flight.any fun a => counts a && (isLoadInstr a.i || isAtomicInstr a.i)) &&
  !(d.getLsbD 2 && s.inbound.any fun v => decide (v.1 ≤ s.ctx.drnId))

/-- What a drain waits for has happened, for every access of the strand. -/
def State.drained (s : State) (d : BitVec 3) (sc : Nat) : Bool := s.drainedOf (fun _ => true) d sc

/-- The held stores up to the first marker. -/
def firstBatch : List Held → List Access × List Held
  | [] => ([], [])
  | .marker :: t => ([], t)
  | .access a :: t =>
    let q := firstBatch t
    (a :: q.1, q.2)

/-- Commands that are complete but for a withheld seal write it once the segment is closed (R145 step 3). -/
def State.releaseSeals (s : State) : State :=
  (s.ctx.eq.filter (·.sealOnly)).foldl (fun (t : State) c => t.queue { i := .copyCommandComplete, x := s.me, y := c.id }) s

/-- The next row check that a close awaits; a sweep visits each of the 264 rows once (R134, R145 step 1). -/
def State.rowEvents (s : State) (g : Seg) : List Ev :=
  match g.halves.find? fun h => h.2 != 0 with
  | none => []
  | some (h, n) =>
    if s.agenda.any fun (e : Ev) => e.i == Instr.rowCheck && e.x == h && e.y == 264 - n then []
    else [{ i := .rowCheck, x := h, y := 264 - n }]

/-- One stage of closing the current strand's segment (R145): a batch of held stores performs at .mod before the next begins (R127); at most 28 accesses are outstanding at a time (R198). True when it is closed;
otherwise issue is frozen. -/
def State.closeSeg (s : State) : State × Bool :=
  match s.ctx.seg with
  | none => (s, true)
  | some g =>
    if g.bad then (s.rewind 10 g.badAt, false)
    else if (g.halves.any fun h => h.2 != 0) || (s.core.nest.any fun n => n.x == s.me && n.seg) ||
        (s.core.commits.any fun n => n.x == s.me && n.seg) then
      (({ s with agenda := s.agenda ++ s.rowEvents g }).freeze, false)
    else if !s.drained 1#3 4 then (s.freeze, false)
    else if g.held.isEmpty then
      let s1 := s.withCtx fun c => { c with seg := none, eq := c.eq.map fun q => { q with seg := false } }
      let s2 := s1.withCore fun c => { c with
        undo := c.undo.filter fun u => u.x != s.me
        nmuq := c.nmuq.map fun q => if q.x == s.me then { q with seg := false } else q }
      (s2.releaseSeals, true)
    else
      let b := firstBatch g.held
      let n := 28 - s.ctx.outstanding
      let rest := (b.1.drop n).map Held.access
      let s1 := s.withCtx fun c => { c with seg := some { g with
        held := if rest.isEmpty then b.2 else rest ++ (if b.2.isEmpty then [] else .marker :: b.2) } }
      (((b.1.take n).foldl (fun (t : State) a => t.launchHeld s.me a) s1).freeze, false)

/-- The instructions that close an open segment before they issue run their meaning only then (R144). -/
def afterClose (s : State) (f : State → State) : State :=
  match s.closeSeg with
  | (t, true) => f t
  | (t, false) => t

end Sys2Proof.Machine
end

