-- ==== Sys2Proof/Machine/Image.lean ====
section
/-! DEFINITION. The context image (R205, Tables 8-8 and 8-9): what a swap spills, CTXSV writes and CTXLD reads. -/

namespace Sys2Proof.Machine

/-- The bits of the lanes and nibbles that a pending header names. -/
def maskOf (lanes : BitVec 32) (nb : Nat) : Vec :=
  ofLanes fun i => if lanes.getLsbD i then
    (List.range 8).foldl (fun (acc : BitVec 32) k => if bitOf nb k then acc ||| (0xf#32 <<< (4 * k)) else acc) 0#32 else 0#32

/-- One pending result with its landing distance. -/
abbrev PendWrite := Nat × Write

/-- The pending results of a context in issue order (R202). -/
def pendWrites (r : Regs) : List PendWrite := r.pend.flatMap fun q => q.ws.map fun w => (q.left, w)

/-- Header, scalar and vector value words of pending results (Table 8-8): the numbers of scalar and vector values so far. -/
def packPend : List PendWrite → Nat → Nat → List Word × List Word × List Vec
  | [], _, _ => ([], [], [])
  | (d, w) :: t, n, m =>
    let head := fun (lanes vi nb cls reg : Nat) =>
      BitVec.ofNat 64 (lanes * 2 ^ 32 + 2 ^ 31 + d % 16 * 2 ^ 24 + vi * 2 ^ 16 + nb * 2 ^ 8 + cls * 2 ^ 6 + reg)
    match w with
    | .s r x => let q := packPend t (n + 1) m; (head 0 n 0xff 0 r.toNat :: q.1, x :: q.2.1, q.2.2)
    | .p r x k => let q := packPend t (n + 1) m; (head k.toNat n 0xff 2 r.toNat :: q.1, x.setWidth 64 :: q.2.1, q.2.2)
    | .v r x k =>
      let q := packPend t n (m + 1)
      let ls := lanesOfMask k
      let nb := nibbles ((guardedLanes ls).headD 0 |> fun i => (lane k i).toNat)
      (head ls.toNat m nb 1 r.toNat :: q.1, q.2.1, x :: q.2.2)
    | _ => packPend t n m

/-- A list of words cut or filled with zeros to a length. -/
def fitWords (n : Nat) (l : List Word) : List Word := (l ++ List.replicate n 0#64).take n

/-- ALQ entry flags of Table 8-9. -/
def alqBits (l : List AlqEntry) (f : AlqEntry → Bool) : Nat :=
  (l.zipIdx.foldl (fun acc q => if f q.1 then acc + 2 ^ q.2 else acc) 0)

/-- The control block (Table 8-9). -/
def controlBlock (r : Regs) : List Word :=
  [r.pc, r.bc,
   BitVec.ofNat 64 (r.tag.toNat * 2 ^ 16 + r.pfn.toNat * 2 ^ 12 + r.lact.toNat * 2 ^ 8 + b2n r.ssq * 16 + b2n r.ssm * 8 +
     b2n r.sup),
   BitVec.ofNat 64 (alqBits r.alq (·.faulted) * 2 ^ 48 + alqBits r.alq (·.poisoned) * 2 ^ 32 + alqBits r.alq (·.valid) * 2 ^ 16 +
     r.alqh.toNat * 32 + r.alq.length),
   r.tfb, r.spl, r.rbKey, r.rbCtr.extractLsb' 0 64, r.rbCtr.extractLsb' 64 64,
   BitVec.ofNat 64 (r.rbRot.toNat * 32 + r.rbQueue.length),
   BitVec.ofNat 64 (r.run.toNat * 2 ^ 32 + r.inst.toNat * 2 ^ 16 + r.stage.toNat),
   BitVec.ofNat 64 (b2n r.barw.waiting * 2 ^ 63 + b2n r.barw.recorded * 2 ^ 62 + b2n r.barw.known * 2 ^ 61 +
     b2n r.barw.twr * 2 ^ 16 + r.barw.idx.toNat * 2 ^ 8 + r.barw.phase.toNat),
   0#64, 0#64, 0#64, 0#64]

/-- Pairs of 32-bit words as doublewords. -/
def pairWords : List (BitVec 32) → List Word
  | a :: b :: t => ((b ++ a : BitVec 64)) :: pairWords t
  | [a] => [a.setWidth 64]
  | [] => []

/-- The image as 1,408 doublewords (Table 8-8). -/
def toImage (r0 : Regs) : List Word :=
  let r := r0.settle
  let q := packPend (pendWrites r) 0 0
  r.s.toList ++ r.v.toList.flatMap vecWords ++ pairWords r.p.toList ++ r.l.toList ++ r.g.toList ++ controlBlock r ++
  fitWords 8 (pairWords r.rbQueue) ++ fitWords 16 (r.alq.map (·.value)) ++ fitWords 28 q.1 ++ fitWords 20 q.2.1 ++
  fitWords 112 (q.2.2.flatMap vecWords) ++ List.replicate 36 0#64

/-- Sixteen doublewords from index k as a vector. -/
def vecAt (l : List Word) (k : Nat) : Vec :=
  (List.range 16).foldl (fun (acc : Vec) j => acc ||| ((l.getD (k + j) 0#64).setWidth 1024 <<< (64 * j))) 0#1024

/-- The 32-bit half k of a list of doublewords. -/
def halfAt (l : List Word) (k : Nat) : BitVec 32 := (l.getD (k / 2) 0#64).extractLsb' (32 * (k % 2)) 32

/-- A pending result read from its header (Table 8-8); place gives it a bundle count that keeps the headers' order (R196). -/
def unpackPend (l : List Word) (place : Word) (h : Word) : Option Pend :=
  if !h.getLsbD 31 then none
  else
    let vi := bits h 20 16
    let reg := bits h 5 0
    some (suppliedPend (bits h 27 24) place (match bits h 7 6 with
      | 1 => .v (BitVec.ofNat 6 reg) (vecAt l (1260 + 16 * vi)) (maskOf (BitVec.ofNat 32 (bits h 63 32)) (bits h 15 8))
      | 2 => .p (BitVec.ofNat 4 reg) ((l.getD (1240 + vi) 0#64).setWidth 32) (BitVec.ofNat 32 (bits h 63 32))
      | _ => .s (BitVec.ofNat 6 reg) (l.getD (1240 + vi) 0#64)))

/-- The registers that an image holds, the loop registers with the bits that they have (R257); pending results of distance 0 are among its
pending results. -/
def fromImage (l : List Word) : Regs :=
  let cb := fun k => l.getD (1172 + k) 0#64
  let st := cb 2
  let aq := cb 3
  let n := min (bits aq 4 0) 16
  let pend := ((l.drop 1212).take 28).zipIdx.filterMap fun q => unpackPend l (cb 1 - 28#64 + BitVec.ofNat 64 q.2) q.1
  let r : Regs := { Regs.reset with
    s := Vector.ofFn fun (i : Fin 64) => l.getD i.val 0#64
    v := Vector.ofFn fun (i : Fin 64) => vecAt l (64 + 16 * i.val)
    p := Vector.ofFn fun (i : Fin 16) => halfAt (l.drop 1088) i.val
    lact := BitVec.ofNat 4 (bits st 11 8)
    g := Vector.ofFn fun (i : Fin 64) => l.getD (1108 + i.val) 0#64
    pc := cb 0
    bc := cb 1
    sup := st.getLsbD 0
    tfb := cb 4
    spl := cb 5
    tag := BitVec.ofNat 8 (bits st 23 16)
    ssm := st.getLsbD 3
    ssq := st.getLsbD 4
    pfn := BitVec.ofNat 4 (bits st 15 12)
    rbKey := cb 6
    rbCtr := (cb 8 ++ cb 7 : BitVec 128)
    rbQueue := (List.range (min (bits (cb 9) 4 0) 16)).map fun k => halfAt (l.drop 1188) k
    rbRot := BitVec.ofNat 5 (bits (cb 9) 9 5)
    alq := (List.range n).map fun k =>
      { valid := aq.getLsbD (16 + k), poisoned := aq.getLsbD (32 + k), faulted := aq.getLsbD (48 + k),
        value := l.getD (1196 + k) 0#64 }
    alqh := BitVec.ofNat 4 (bits aq 8 5)
    barw :=
      { waiting := (cb 11).getLsbD 63, recorded := (cb 11).getLsbD 62, known := (cb 11).getLsbD 61,
        twr := (cb 11).getLsbD 16, idx := BitVec.ofNat 8 (bits (cb 11) 15 8), phase := BitVec.ofNat 8 (bits (cb 11) 7 0) }
    stage := BitVec.ofNat 6 (bits (cb 10) 5 0)
    inst := BitVec.ofNat 10 (bits (cb 10) 25 16)
    run := BitVec.ofNat 32 (bits (cb 10) 63 32) }
  let loops := (List.range 12).map fun k => Write.l (BitVec.ofNat 4 k) (l.getD (1096 + k) 0#64)
  { (r.puts loops) with pend := pend }

/-- An image written at an address, or what stops a store of it (R445). -/
def State.writeImage (s : State) (v : Via) (G : Nat) (va : Word) (r : Regs) : Except Stop State := s.putWordsVA v G va (toImage r)

/-- An image read from an address, or what stops a load of it (R445). -/
def State.readImage (s : State) (v : Via) (G : Nat) (va : Word) : Except Stop (Regs × State) :=
  (s.getWordsVA v G va 1408).map fun q => (fromImage q.1, q.2)

/-- The registers of the strand that satisfies p changed where they lie: in a context or shadow bank, or in the image of a
spilled or saved strand (R203, R445). -/
def State.onRegsOf (s : State) (p : Ctx → Bool) (f : Regs → Regs) : Except Stop State :=
  match s.spilled.find? fun q => p q.c && q.written with
  | some q => do
    let (r, t) ← s.readImage (.core q.core) q.core q.image
    let u ← t.writeImage (.core q.core) q.core q.image (f r)
    return u.mapCtx p fun c => { c with r := f c.r }
  | none => .ok (s.mapCtx p fun c => { c with r := f c.r })

/-- An operation on a displaced strand's memory, whose failure kills the strand; where it has to wait, the event being performed stays due
(R98, R102, R445). -/
def State.orKill (s : State) (p : Ctx → Bool) (T : Nat) : Except Stop State → State
  | .ok t => t
  | .error (.fault _ va _ u) => (s.kept u).killDisplaced p va
  | .error (.wait u) => (s.kept u).queue s.ev
  | .error (.ask va u) => (s.kept u).sleepOn T va fun k => k.killDisplaced p va

/-- The tower of the strand that satisfies p. -/
def State.towerOf (s : State) (p : Ctx → Bool) : Nat := ((s.findCtx p).map fun q => twrOf (q.1 / 4)).getD 0

/-- onRegsOf with the event that it belongs to, then what follows. -/
def State.withRegsOf (s : State) (p : Ctx → Bool) (f : Regs → Regs) (k : State → State) : State :=
  s.orKill p (s.towerOf p) ((s.onRegsOf p f).map k)

end Sys2Proof.Machine
end

