-- ==== Sys2Proof/Machine/Fp.lean ====
section
/-! DEFINITION. Number formats and arithmetic (R214 to R232): exact dyadic values, rounding, the vector unit's operations,
MX blocks, window sums and the special functions. -/

namespace Sys2Proof.Machine

/-! ## Formats (R215) -/

/-- The floating-point formats of Table 9-1. -/
inductive Fmt where
  | f32 | bf16 | e4m3 | e5m2 | e2m1
  deriving DecidableEq, Repr, Inhabited

/-- Fraction width. -/
def Fmt.mant : Fmt → Nat
  | .f32 => 23
  | .bf16 => 7
  | .e4m3 => 3
  | .e5m2 => 2
  | .e2m1 => 1

/-- Exponent width. -/
def Fmt.expo : Fmt → Nat
  | .f32 => 8
  | .bf16 => 8
  | .e4m3 => 4
  | .e5m2 => 5
  | .e2m1 => 2

/-- Exponent bias. -/
def Fmt.bias : Fmt → Nat
  | .f32 => 127
  | .bf16 => 127
  | .e4m3 => 7
  | .e5m2 => 15
  | .e2m1 => 1

/-- Bits of an encoding without its sign. -/
def Fmt.width (F : Fmt) : Nat := F.mant + F.expo

/-- The encoding of the largest finite magnitude. -/
def Fmt.top : Fmt → Nat
  | .f32 => 0x7f7fffff
  | .bf16 => 0x7f7f
  | .e4m3 => 0x7e
  | .e5m2 => 0x7b
  | .e2m1 => 0x7

/-- The encoding of +∞ in the formats that have it. -/
def Fmt.infCode : Fmt → Option Nat
  | .f32 => some 0x7f800000
  | .bf16 => some 0x7f80
  | .e5m2 => some 0x7c
  | _ => none

/-- The canonical NaN; a NaN converted to E2M1 gives +0 (R219, Table 9-6). -/
def Fmt.nanCode : Fmt → Nat
  | .f32 => 0x7fc00000
  | .bf16 => 0x7fc0
  | .e4m3 => 0x7f
  | .e5m2 => 0x7f
  | .e2m1 => 0

/-- Largest element exponent of Table 9-2. -/
def Fmt.emax : Fmt → Int
  | .f32 => 127
  | .bf16 => 127
  | .e4m3 => 8
  | .e5m2 => 15
  | .e2m1 => 2

/-- A value: NaN, an infinity, or sign × m × 2^e. -/
inductive Fv where
  | nan
  | inf (neg : Bool)
  | fin (neg : Bool) (m : Nat) (e : Int)
  deriving DecidableEq, Repr, Inhabited

/-- The value of an encoding (R215). -/
def Fmt.val (F : Fmt) (x : Nat) : Fv :=
  let mag := x % 2 ^ F.width
  let neg := bitOf x F.width
  let ef := mag / 2 ^ F.mant
  let fr := mag % 2 ^ F.mant
  if mag ≤ F.top then
    (if ef = 0 then .fin neg fr (1 - (F.bias : Int) - F.mant)
     else .fin neg (2 ^ F.mant + fr) ((ef : Int) - F.bias - F.mant))
  else if F.infCode = some mag then .inf neg
  else .nan

/-- The value of an FP32 lane. -/
def valF (x : BitVec 32) : Fv := Fmt.f32.val x.toNat

/-! ## Rounding (R219) -/

/-- The rounding modes. -/
inductive Rm where
  | rne | rtz | sr
  deriving DecidableEq, Repr, Inhabited

/-- The integer that m × 2^e rounds to in units of 2^ue, under a mode and a random word (R219). -/
def roundTo (m : Nat) (e ue : Int) (md : Rm) (w : Nat) : Nat :=
  if ue ≤ e then m * 2 ^ (e - ue).toNat
  else
    let d := 2 ^ (ue - e).toNat
    let n := m / d
    let r := m % d
    match md with
    | .rtz => n
    | .rne => if 2 * r > d ∨ (2 * r = d ∧ n % 2 = 1) then n + 1 else n
    | .sr => if r * 2 ^ 32 / d + w ≥ 2 ^ 32 then n + 1 else n

/-- The encoding of a sign and magnitude. -/
def Fmt.signed (F : Fmt) (neg : Bool) (mag : Nat) : Nat := b2n neg * 2 ^ F.width + mag

/-- Overflow (R219). -/
def Fmt.overflow (F : Fmt) (neg : Bool) (md : Rm) : Nat :=
  match F, md with
  | .f32, .rtz => F.signed neg F.top
  | .bf16, .rtz => F.signed neg F.top
  | .f32, _ => F.signed neg 0x7f800000
  | .bf16, _ => F.signed neg 0x7f80
  | _, _ => F.signed neg F.top

/-- round(x, F, mode, w) as an encoding, with the infinity and NaN rules of R219. -/
def Fmt.round (F : Fmt) (x : Fv) (md : Rm) (w : Nat) : Nat :=
  match x with
  | .nan => F.nanCode
  | .inf neg =>
    (match F.infCode with
      | some c => F.signed neg c
      | none => F.signed neg F.top)
  | .fin neg m e =>
    if m = 0 then F.signed neg 0
    else
      let ue := max ((log2n m : Int) + e) (1 - (F.bias : Int)) - F.mant
      let q := roundTo m e ue md w
      let code := (((ue + F.mant + F.bias) * 2 ^ F.mant + q - 2 ^ F.mant : Int)).toNat
      if code > F.top then F.overflow neg md else F.signed neg code

/-- An FP32 result rounded to nearest even. -/
def toF32 (x : Fv) : BitVec 32 := BitVec.ofNat 32 (Fmt.f32.round x .rne 0)

/-! ## Exact arithmetic -/

/-- The signed integer of a finite value in units of 2^e, for e not above its exponent. -/
def scaledInt (neg : Bool) (m : Nat) (e ue : Int) : Int :=
  let n : Nat := m * 2 ^ (e - ue).toNat
  if neg then -(n : Int) else (n : Int)

/-- The exact sum; an exact zero sum of opposite signs is +0 (R218). -/
def Fv.add : Fv → Fv → Fv
  | .nan, _ => .nan
  | _, .nan => .nan
  | .inf a, .inf b => if a = b then .inf a else .nan
  | .inf a, _ => .inf a
  | _, .inf b => .inf b
  | .fin s m e, .fin s' m' e' =>
    let ue := min e e'
    let t := scaledInt s m e ue + scaledInt s' m' e' ue
    if t = 0 then .fin (s && s') 0 0 else .fin (decide (t < 0)) t.natAbs ue

/-- The exact product. -/
def Fv.mul : Fv → Fv → Fv
  | .nan, _ => .nan
  | _, .nan => .nan
  | .inf a, .inf b => .inf (a != b)
  | .inf a, .fin s m _ => if m = 0 then .nan else .inf (a != s)
  | .fin s m _, .inf a => if m = 0 then .nan else .inf (a != s)
  | .fin s m e, .fin s' m' e' => .fin (s != s') (m * m') (e + e')

/-- The value with the other sign. -/
def Fv.neg : Fv → Fv
  | .nan => .nan
  | .inf a => .inf (!a)
  | .fin s m e => .fin (!s) m e

/-- The magnitude. -/
def Fv.abs : Fv → Fv
  | .nan => .nan
  | .inf _ => .inf false
  | .fin _ m e => .fin false m e

/-- The value times 2^k. -/
def Fv.scale : Fv → Int → Fv
  | .fin s m e, k => .fin s m (e + k)
  | x, _ => x

/-- An integer as a value. -/
def Fv.ofInt (n : Int) : Fv := .fin (decide (n < 0)) n.natAbs 0

/-- NaN. -/
def Fv.isNan : Fv → Bool
  | .nan => true
  | _ => false

/-- x ≤ y for finite or infinite values, zeros equal. -/
def Fv.le : Fv → Fv → Bool
  | .nan, _ => false
  | _, .nan => false
  | .inf a, .inf b => a || !b
  | .inf a, _ => a
  | _, .inf b => !b
  | .fin s m e, .fin s' m' e' =>
    let ue := min e e'
    decide (scaledInt s m e ue ≤ scaledInt s' m' e' ue)

/-- x < y. -/
def Fv.lt (x y : Fv) : Bool := x.le y && !y.le x

/-- fma(a, b, c) in FP32 (Table 9-6). -/
def fmaF (a b c : BitVec 32) : BitVec 32 := toF32 (((valF a).mul (valF b)).add (valF c))

/-- a + b rounded once to FP32 (R218). -/
def addF (a b : BitVec 32) : BitVec 32 := toF32 ((valF a).add (valF b))

/-- Sign-magnitude order of an encoding, −0 below +0 (R218). -/
def Fmt.key (F : Fmt) (x : Nat) : Int :=
  let mag := x % 2 ^ F.width
  if bitOf x F.width then -(mag : Int) - 1 else (mag : Int)

/-- VFMAX and VFMIN: the other operand when one is NaN, −0 below +0 (R218). -/
def Fmt.pick (F : Fmt) (big : Bool) (x y : Nat) : Nat :=
  if (F.val x).isNan then (if (F.val y).isNan then F.nanCode else y)
  else if (F.val y).isNan then x
  else if decide (F.key x ≤ F.key y) = big then y else x

/-! ## Division and roots -/

/-- Number of bits of a number. -/
def bitLen (n : Nat) : Nat := if n = 0 then 0 else log2n n + 1

/-- A quotient of magnitudes with enough bits and a sticky last bit to round once. -/
def quotient (m : Nat) (e : Int) (m' : Nat) (e' : Int) : Nat × Int :=
  let k := 64 + bitLen m'
  let n := m * 2 ^ k
  (2 * (n / m') + b2n (n % m' != 0), e - e' - k - 1)

/-- The correctly rounded quotient's exact argument: IEEE division (R228). -/
def Fv.div : Fv → Fv → Fv
  | .nan, _ => .nan
  | _, .nan => .nan
  | .inf _, .inf _ => .nan
  | .inf a, .fin s _ _ => .inf (a != s)
  | .fin s _ _, .inf a => .fin (s != a) 0 0
  | .fin s m e, .fin s' m' e' =>
    if m' = 0 then (if m = 0 then .nan else .inf (s != s'))
    else if m = 0 then .fin (s != s') 0 0
    else
      let q := quotient m e m' e'
      .fin (s != s') q.1 q.2

/-- The integer square root, bit by bit from bit n − 1. -/
def isqrt (x : Nat) : Nat → Nat → Nat
  | 0, r => r
  | n + 1, r => isqrt x n (if (r + 2 ^ n) * (r + 2 ^ n) ≤ x then r + 2 ^ n else r)

/-- rcp_f32 (R230). -/
def rcpF (x : BitVec 32) : BitVec 32 := toF32 ((Fv.fin false 1 0).div (valF x))

/-- rsq_f32 (R230, Table 9-4). -/
def rsqF (x : BitVec 32) : BitVec 32 :=
  match valF x with
  | .nan => 0x7fc00000#32
  | .inf neg => if neg then 0x7fc00000#32 else 0#32
  | .fin neg m e =>
    if m = 0 then (if neg then 0xff800000#32 else 0x7f800000#32)
    else if neg then 0x7fc00000#32
    else
      let odd := e % 2 != 0
      let m1 := if odd then 2 * m else m
      let e1 := if odd then e - 1 else e
      let k := 40 + bitLen m1
      let n := 2 ^ (2 * k)
      let r := isqrt (n / m1) (k + 1) 0
      toF32 (.fin false (2 * r + b2n (r * r * m1 != n)) (-(e1 / 2) - k - 1))

/-! ## exp2 (R229) -/

/-- T[k] = round(2^(k/64), FP32, RNE, 0) for k = 0 to 63 (R229). -/
def exp2Table : List Nat :=
  [0x3f800000, 0x3f8164d2, 0x3f82cd87, 0x3f843a29, 0x3f85aac3, 0x3f871f62, 0x3f88980f, 0x3f8a14d5] ++
  [0x3f8b95c2, 0x3f8d1adf, 0x3f8ea43a, 0x3f9031dc, 0x3f91c3d3, 0x3f935a2b, 0x3f94f4f0, 0x3f96942d] ++
  [0x3f9837f0, 0x3f99e046, 0x3f9b8d3a, 0x3f9d3eda, 0x3f9ef532, 0x3fa0b051, 0x3fa27043, 0x3fa43516] ++
  [0x3fa5fed7, 0x3fa7cd94, 0x3fa9a15b, 0x3fab7a3a, 0x3fad583f, 0x3faf3b79, 0x3fb123f6, 0x3fb311c4] ++
  [0x3fb504f3, 0x3fb6fd92, 0x3fb8fbaf, 0x3fbaff5b, 0x3fbd08a4, 0x3fbf179a, 0x3fc12c4d, 0x3fc346cd] ++
  [0x3fc5672a, 0x3fc78d75, 0x3fc9b9be, 0x3fcbec15, 0x3fce248c, 0x3fd06334, 0x3fd2a81e, 0x3fd4f35b] ++
  [0x3fd744fd, 0x3fd99d16, 0x3fdbfbb8, 0x3fde60f5, 0x3fe0ccdf, 0x3fe33f89, 0x3fe5b907, 0x3fe8396a] ++
  [0x3feac0c7, 0x3fed4f30, 0x3fefe4ba, 0x3ff28177, 0x3ff5257d, 0x3ff7d0df, 0x3ffa83b3, 0x3ffd3e0c]

/-- T[k]. -/
def exp2T (k : Nat) : BitVec 32 := BitVec.ofNat 32 (exp2Table.getD k 0)

/-- The nearest integer of sign × m × 2^e, ties to even. -/
def nearestInt (neg : Bool) (m : Nat) (e : Int) : Int :=
  let n := (roundTo m e 0 .rne 0 : Int)
  if neg then -n else n

/-- exp2_f32 (R229). -/
def exp2F (x : BitVec 32) : BitVec 32 :=
  match valF x with
  | .nan => 0x7fc00000#32
  | .inf neg => if neg then 0#32 else 0x7f800000#32
  | .fin neg m e =>
    if (Fv.fin false 128 0).le (.fin neg m e) then 0x7f800000#32
    else if (Fv.fin neg m e).lt (.fin true 150 0) then 0#32
    else
      let n := nearestInt neg m (e + 6)
      let k := (n % 64).toNat
      let s := (n - k) / 64
      let f := toF32 ((Fv.fin neg m e).add (.fin (decide (0 ≤ n)) n.natAbs (-6)))
      let p := fmaF f 0x3e75fdf0#32 0x3f317218#32
      let q := toF32 ((valF p).mul (valF f))
      let y := fmaF (exp2T k) q (exp2T k)
      toF32 ((valF y).scale s)

/-! ## Integers and conversions (R214, R231) -/

/-- x clamped to n signed bits. -/
def satS (x : Int) (n : Nat) : Int := max (-(2 ^ (n - 1) : Int)) (min x (2 ^ (n - 1) - 1 : Int))
/-- x clamped to n unsigned bits. -/
def satU (x : Int) (n : Nat) : Int := max 0 (min x (2 ^ n - 1 : Int))

/-- round(x, INT, mode, w) of a finite value. -/
def roundInt (neg : Bool) (m : Nat) (e : Int) (md : Rm) (w : Nat) : Int :=
  let n := (roundTo m e 0 md w : Int)
  if neg then -n else n

/-- A value converted to an n-bit integer, saturated; NaN gives 0 (R231). -/
def toIntSat (x : Fv) (n : Nat) (signed : Bool) (md : Rm) (w : Nat) : Int :=
  match x with
  | .nan => 0
  | .inf neg => if signed then (if neg then -(2 ^ (n - 1) : Int) else (2 ^ (n - 1) - 1 : Int))
      else (if neg then 0 else (2 ^ n - 1 : Int))
  | .fin neg m e => let r := roundInt neg m e md w; if signed then satS r n else satU r n

/-! ## MX blocks (R217, R223, R224) -/

/-- Element formats of MX blocks. -/
inductive Mx where
  | int8 | e4m3 | e5m2 | e2m1
  deriving DecidableEq, Repr, Inhabited

/-- Element bits. -/
def Mx.bits : Mx → Nat
  | .e2m1 => 4
  | _ => 8

/-- The value of an element, with the exponent of Table 9-3 (R217, R225). -/
def Mx.val : Mx → Nat → Fv
  | .int8, q => (Fv.ofInt (BitVec.ofNat 8 q).toInt).scale (-6)
  | .e4m3, x => Fmt.e4m3.val x
  | .e5m2, x => Fmt.e5m2.val x
  | .e2m1, x => match Fmt.e2m1.val x with
    | .fin s m e => .fin s (m * 2 ^ (e + 1).toNat) (-1)
    | y => y

/-- The largest of a list of magnitudes. -/
def maxMag (l : List Fv) : Fv := l.foldl (fun a x => if a.le x.abs then x.abs else a) (.fin false 0 0)

/-- mx_quant (R223): the scale code and the 32 elements. -/
def mxQuant (v : List Fv) (F : Mx) (md : Rm) (w : Nat → Nat) : Nat × List Nat :=
  let bad := v.any fun x => match x with
    | .fin _ _ _ => false
    | _ => true
  if bad then (0xff, v.map fun _ => 0)
  else
    match maxMag v with
    | .fin _ m e =>
      if m = 0 then (0, v.map fun _ => 0)
      else
        let em : Int := match F with
          | .int8 => 0
          | .e4m3 => 8
          | .e5m2 => 15
          | .e2m1 => 2
        let X := min (max ((log2n m : Int) + e - em) (-127)) 127
        let el := v.zipIdx.map fun (x, i) =>
          let wi := match md with
            | .sr => w i
            | _ => 0
          match F with
          | .int8 =>
            let r := toIntSat (x.scale (6 - X)) 8 true md wi
            (BitVec.ofInt 8 (if r = -128 then -127 else r)).toNat
          | .e4m3 => Fmt.e4m3.round (x.scale (-X)) md wi
          | .e5m2 => Fmt.e5m2.round (x.scale (-X)) md wi
          | .e2m1 => Fmt.e2m1.round (x.scale (-X)) md wi
        ((X + 127).toNat, el)
    | _ => (0xff, v.map fun _ => 0)

/-- mx_value: the element under its scale code; code 0xFF is NaN (R216, R217, R224). -/
def mxValue (F : Mx) (scale el : Nat) : Fv := if scale = 0xff then .nan else (F.val el).scale ((scale : Int) - 127)

/-! ## Window sums (R225, R226) -/

/-- A term of an exact sum. -/
inductive Term where
  | nan
  | inf (neg : Bool)
  | num (S : Int) (E : Int)
  deriving DecidableEq, Repr, Inhabited

/-- A value as a term. -/
def Fv.term : Fv → Term
  | .nan => .nan
  | .inf a => .inf a
  | .fin s m e => .num (if s then -(m : Int) else m) e

/-- The anchor: the largest exponent of a term that is not zero (R226 step 3). -/
def anchor (l : List Term) : Option Int :=
  l.foldl (fun a t => match t with
    | .num S E => if S = 0 then a else (match a with
        | none => some E
        | some b => some (max b E))
    | _ => a) none

/-- A term in units of the window's lowest weight, rounded to odd (R226 step 4). -/
def toOdd (S E low : Int) : Int :=
  if low ≤ E then S * 2 ^ (E - low).toNat
  else
    let d := 2 ^ (low - E).toNat
    let q := S.natAbs / d
    let q' := if S.natAbs % d = 0 then q else q ||| 1
    if S < 0 then -(q' : Int) else (q' : Int)

/-- window_sum (R226): one rounding to FP32. -/
def windowSum (l : List Term) : BitVec 32 :=
  let isNan := l.any fun t => t == .nan
  let pos := l.any fun t => t == .inf false
  let neg := l.any fun t => t == .inf true
  if isNan || (pos && neg) then 0x7fc00000#32
  else if pos then 0x7f800000#32
  else if neg then 0xff800000#32
  else match anchor l with
    | none => 0#32
    | some A =>
      let low := A - 101
      let sum := l.foldl (fun (acc : Int) t => match t with
        | .num S E => acc + toOdd S E low
        | _ => acc) 0
      if sum = 0 then 0#32 else toF32 (.fin (decide (sum < 0)) sum.natAbs low)

end Sys2Proof.Machine
end

