-- ==== Sys2Proof/Machine/Rng.lean ====
section
/-! DEFINITION. The random-bit generator of a context (R221, R222). -/

namespace Sys2Proof.Machine

/-- The four words and two key words of a Philox round. -/
structure PhiloxState where
  x0 : BitVec 32
  x1 : BitVec 32
  x2 : BitVec 32
  x3 : BitVec 32
  k0 : BitVec 32
  k1 : BitVec 32
  deriving DecidableEq, Repr, Inhabited

/-- One round without the key step (R221). -/
def philoxMix (q : PhiloxState) : PhiloxState :=
  let p0 := 0xd2511f53 * q.x0.toNat
  let p1 := 0xcd9e8d57 * q.x2.toNat
  { q with
    x0 := BitVec.ofNat 32 (p1 / 2 ^ 32) ^^^ q.x1 ^^^ q.k0
    x1 := BitVec.ofNat 32 p1
    x2 := BitVec.ofNat 32 (p0 / 2 ^ 32) ^^^ q.x3 ^^^ q.k1
    x3 := BitVec.ofNat 32 p0 }

/-- n further rounds, each after a key step. -/
def philoxRounds : Nat → PhiloxState → PhiloxState
  | 0, q => q
  | n + 1, q => philoxRounds n (philoxMix { q with k0 := q.k0 + 0x9e3779b9#32, k1 := q.k1 + 0xbb67ae85#32 })

/-- philox(c, key): ten rounds (R221). -/
def philox (c : BitVec 128) (key : Word) : List (BitVec 32) :=
  let q := philoxRounds 9 (philoxMix
    ⟨c.extractLsb' 0 32, c.extractLsb' 32 32, c.extractLsb' 64 32, c.extractLsb' 96 32,
      key.extractLsb' 0 32, key.extractLsb' 32 32⟩)
  [q.x0, q.x1, q.x2, q.x3]

/-- The block at the counter appended (R222). -/
def Regs.rbAppend (r : Regs) : Regs := { r with rbQueue := r.rbQueue ++ philox r.rbCtr r.rbKey, rbCtr := r.rbCtr + 1#128 }

/-- Blocks appended, at most n, while the fill is 12 or less (R222). -/
def Regs.rbFill (r : Regs) : Nat → Regs
  | 0 => r
  | n + 1 => if r.rbQueue.length ≤ 12 then r.rbAppend.rbFill n else r

/-- rbg_pop(): the oldest word; blocks are appended while the fill is 12 or less, and a queue that holds nothing is filled first,
so that no pop finds it empty (R222). -/
def Regs.rbPop (r : Regs) : BitVec 32 × Regs :=
  let r0 := if r.rbQueue.isEmpty then r.rbFill 4 else r
  (r0.rbQueue.headD 0#32, { r0 with rbQueue := r0.rbQueue.drop 1 }.rbFill 4)

/-- RBCTR: the queue discarded, the counter set and four blocks appended (R222). -/
def Regs.rbStart (r : Regs) (c : BitVec 128) : Regs :=
  { r with rbQueue := [], rbCtr := c }.rbAppend.rbAppend.rbAppend.rbAppend

/-- rotr32 (Table 9-6). -/
def rotr32 (w : BitVec 32) (k : Nat) : BitVec 32 := w.rotateRight (k % 32)

/-- The word of lane i under a captured word and position, as RBW holds them: bits [31:0] and [36:32] (R196, R222). -/
def laneWord (rbw : Word) (i : Nat) : BitVec 32 := rotr32 (rbw.extractLsb' 0 32) (i + bits rbw 36 32)

/-- One shared word popped for a bundle, with the position that its lanes use, and the position advanced (R222). -/
def Regs.rbShared (r : Regs) : Word × Regs :=
  let q := r.rbPop
  (BitVec.ofNat 64 (r.rbRot.toNat * 2 ^ 32 + q.1.toNat), { q.2 with rbRot := q.2.rbRot + 1#5 })

end Sys2Proof.Machine
end

