-- ==== Sys2Proof/Machine/Flags.lean ====
section
/-! DEFINITION. Condition results. The machine has no flag register: compares write all 32 bits of a predicate (R278), and
monitors and compares of elements share these conditions (R290, R319). -/

namespace Sys2Proof.Machine

/-- The predicate of a scalar compare: all ones when the condition holds (R278). -/
def flagsOf (b : Bool) : BitVec 32 := if b then 0xffffffff#32 else 0#32

/-- The condition of WAITA by its code: equal, not equal, unsigned not below, any common bit (R290). -/
def waitHolds {n : Nat} (c : BitVec 2) (v x : BitVec n) : Bool :=
  match c.toNat with
  | 0 => v == x
  | 1 => v != x
  | 2 => decide (x.toNat ≤ v.toNat)
  | _ => (v &&& x) != 0

/-- The integer element condition of VCMP by its code (Table 13-6): eq, ne, lt, le, ltu, leu. -/
def elemHolds {n : Nat} (c : BitVec 3) (x y : BitVec n) : Bool :=
  match c.toNat with
  | 0 => x == y
  | 1 => x != y
  | 2 => decide (x.toInt < y.toInt)
  | 3 => decide (x.toInt ≤ y.toInt)
  | 4 => decide (x.toNat < y.toNat)
  | _ => decide (x.toNat ≤ y.toNat)

end Sys2Proof.Machine
end

