-- ==== Sys2Proof/Machine/Scalar.lean ====
section
/-! DEFINITION. The S-class ALU, predicate and staging families (R273 to R279, R292) and their values. -/

namespace Sys2Proof.Machine

/-! ## Values -/

/-- Signed minimum (R273). -/
def minS {n : Nat} (x y : BitVec n) : BitVec n := if x.toInt ≤ y.toInt then x else y
/-- Signed maximum (R273). -/
def maxS {n : Nat} (x y : BitVec n) : BitVec n := if x.toInt ≤ y.toInt then y else x
/-- Unsigned minimum (R273). -/
def minU {n : Nat} (x y : BitVec n) : BitVec n := if x.toNat ≤ y.toNat then x else y
/-- Unsigned maximum (R273). -/
def maxU {n : Nat} (x y : BitVec n) : BitVec n := if x.toNat ≤ y.toNat then y else x
/-- The magnitude modulo 2^n, so that the lowest value stays (R276). -/
def absW {n : Nat} (x : BitVec n) : BitVec n := if x.toInt < 0 then 0#n - x else x
/-- A shift or rotate amount: bits [5:0] (R273). -/
def shAmt (b : Word) : Nat := b.toNat % 64
/-- Rotation right by bits [5:0] (R273). -/
def rotR (a b : Word) : Word := a.rotateRight (shAmt b)
/-- Leading zero bits of an n-bit value; n for zero (R276, R308). -/
def leadZeros (n x : Nat) : Nat := if x = 0 then n else n - 1 - log2n x
/-- Trailing zero bits among the low n; n when all are zero (R276). -/
def trailZeros (x : Nat) : Nat → Nat
  | 0 => 0
  | n + 1 => if x % 2 = 1 then 0 else 1 + trailZeros (x / 2) n
/-- The high half of a signed product (R275). -/
def mulHighS (a b : Word) : Word := BitVec.ofInt 64 (a.toInt * b.toInt / 2 ^ 64)
/-- The high half of an unsigned product (R275). -/
def mulHighU (a b : Word) : Word := BitVec.ofNat 64 (a.toNat * b.toNat / 2 ^ 64)
/-- The signed quotient, toward zero; all ones for a zero divisor (R275). -/
def divSigned (a b : Word) : Word := if b = 0#64 then allOnes else BitVec.ofInt 64 (a.toInt.tdiv b.toInt)
/-- The unsigned quotient; all ones for a zero divisor (R275). -/
def divUnsigned (a b : Word) : Word := if b = 0#64 then allOnes else BitVec.ofNat 64 (a.toNat / b.toNat)
/-- The signed remainder with the sign of the dividend; the dividend for a zero divisor (R275). -/
def remSigned (a b : Word) : Word := if b = 0#64 then a else BitVec.ofInt 64 (a.toInt.tmod b.toInt)
/-- The unsigned remainder; the dividend for a zero divisor (R275). -/
def remUnsigned (a b : Word) : Word := if b = 0#64 then a else BitVec.ofNat 64 (a.toNat % b.toNat)
/-- Position and length of a bit field, the length cut at bit 63 (R276). -/
def bfPos (b : Word) : Nat := bits b 5 0
/-- Length of a bit field. -/
def bfLen (b : Word) : Nat := min (if bits b 13 8 = 0 then 64 else bits b 13 8) (64 - bfPos b)
/-- BFX: the field, zero- or sign-extended (R276). -/
def bitExtract (a b : Word) (sign : Bool) : Word :=
  let f := (a >>> bfPos b) &&& BitVec.ofNat 64 (2 ^ bfLen b - 1)
  if sign && f.getLsbD (bfLen b - 1) then f ||| ~~~(BitVec.ofNat 64 (2 ^ bfLen b - 1)) else f
/-- BFI: the destination with the field replaced (R276). -/
def bitInsert (d a b : Word) : Word :=
  let m := BitVec.ofNat 64 (2 ^ bfLen b - 1) <<< bfPos b
  (d &&& ~~~m) ||| ((a <<< bfPos b) &&& m)
/-- The signed less-than of two words (R278). -/
def ltS (a b : Word) : Bool := decide (a.toInt < b.toInt)
/-- The sixteen low bits shifted in from the right (R271, R277). -/
def shiftIn (d imm : Word) : Word := (d <<< 16) ||| imm

/-! ## Meanings -/

/-- ADD (R273). -/
def execAdd (g : BitVec 4) (d : BitVec 6) (a : BitVec 6) (b : BitVec 6) (s : State) : Out :=
  whenOn g s fun t => t.retS (.add g d a b) d ((t.sr a) + (t.sr b))
/-- SUB (R273). -/
def execSub (g : BitVec 4) (d : BitVec 6) (a : BitVec 6) (b : BitVec 6) (s : State) : Out :=
  whenOn g s fun t => t.retS (.sub g d a b) d ((t.sr a) - (t.sr b))
/-- AND (R273). -/
def execAnd (g : BitVec 4) (d : BitVec 6) (a : BitVec 6) (b : BitVec 6) (s : State) : Out :=
  whenOn g s fun t => t.retS (.and g d a b) d ((t.sr a) &&& (t.sr b))
/-- OR (R273). -/
def execOr (g : BitVec 4) (d : BitVec 6) (a : BitVec 6) (b : BitVec 6) (s : State) : Out :=
  whenOn g s fun t => t.retS (.or g d a b) d ((t.sr a) ||| (t.sr b))
/-- XOR (R273). -/
def execXor (g : BitVec 4) (d : BitVec 6) (a : BitVec 6) (b : BitVec 6) (s : State) : Out :=
  whenOn g s fun t => t.retS (.xor g d a b) d ((t.sr a) ^^^ (t.sr b))
/-- SHL (R273). -/
def execShl (g : BitVec 4) (d : BitVec 6) (a : BitVec 6) (b : BitVec 6) (s : State) : Out :=
  whenOn g s fun t => t.retS (.shl g d a b) d ((t.sr a) <<< shAmt (t.sr b))
/-- SHR (R273). -/
def execShr (g : BitVec 4) (d : BitVec 6) (a : BitVec 6) (b : BitVec 6) (s : State) : Out :=
  whenOn g s fun t => t.retS (.shr g d a b) d ((t.sr a) >>> shAmt (t.sr b))
/-- SAR (R273). -/
def execSar (g : BitVec 4) (d : BitVec 6) (a : BitVec 6) (b : BitVec 6) (s : State) : Out :=
  whenOn g s fun t => t.retS (.sar g d a b) d ((t.sr a).sshiftRight (shAmt (t.sr b)))
/-- ROTR (R273). -/
def execRotr (g : BitVec 4) (d : BitVec 6) (a : BitVec 6) (b : BitVec 6) (s : State) : Out :=
  whenOn g s fun t => t.retS (.rotr g d a b) d (rotR (t.sr a) (t.sr b))
/-- MINS (R273). -/
def execMins (g : BitVec 4) (d : BitVec 6) (a : BitVec 6) (b : BitVec 6) (s : State) : Out :=
  whenOn g s fun t => t.retS (.mins g d a b) d (minS (t.sr a) (t.sr b))
/-- MAXS (R273). -/
def execMaxs (g : BitVec 4) (d : BitVec 6) (a : BitVec 6) (b : BitVec 6) (s : State) : Out :=
  whenOn g s fun t => t.retS (.maxs g d a b) d (maxS (t.sr a) (t.sr b))
/-- MINU (R273). -/
def execMinu (g : BitVec 4) (d : BitVec 6) (a : BitVec 6) (b : BitVec 6) (s : State) : Out :=
  whenOn g s fun t => t.retS (.minu g d a b) d (minU (t.sr a) (t.sr b))
/-- MAXU (R273). -/
def execMaxu (g : BitVec 4) (d : BitVec 6) (a : BitVec 6) (b : BitVec 6) (s : State) : Out :=
  whenOn g s fun t => t.retS (.maxu g d a b) d (maxU (t.sr a) (t.sr b))
/-- ADDI (R274). -/
def execAddi (g : BitVec 4) (d : BitVec 6) (a : BitVec 6) (imm : BitVec 15) (s : State) : Out :=
  whenOn g s fun t => t.retS (.addi g d a imm) d ((t.sr a) + imm.signExtend 64)
/-- ANDI (R274). -/
def execAndi (g : BitVec 4) (d : BitVec 6) (a : BitVec 6) (imm : BitVec 15) (s : State) : Out :=
  whenOn g s fun t => t.retS (.andi g d a imm) d ((t.sr a) &&& imm.signExtend 64)
/-- ORI (R274). -/
def execOri (g : BitVec 4) (d : BitVec 6) (a : BitVec 6) (imm : BitVec 15) (s : State) : Out :=
  whenOn g s fun t => t.retS (.ori g d a imm) d ((t.sr a) ||| imm.signExtend 64)
/-- XORI (R274). -/
def execXori (g : BitVec 4) (d : BitVec 6) (a : BitVec 6) (imm : BitVec 15) (s : State) : Out :=
  whenOn g s fun t => t.retS (.xori g d a imm) d ((t.sr a) ^^^ imm.signExtend 64)
/-- SHLI (R274). -/
def execShli (g : BitVec 4) (d : BitVec 6) (a : BitVec 6) (k : BitVec 6) (s : State) : Out :=
  whenOn g s fun t => t.retS (.shli g d a k) d ((t.sr a) <<< k.toNat)
/-- SHRI (R274). -/
def execShri (g : BitVec 4) (d : BitVec 6) (a : BitVec 6) (k : BitVec 6) (s : State) : Out :=
  whenOn g s fun t => t.retS (.shri g d a k) d ((t.sr a) >>> k.toNat)
/-- SARI (R274). -/
def execSari (g : BitVec 4) (d : BitVec 6) (a : BitVec 6) (k : BitVec 6) (s : State) : Out :=
  whenOn g s fun t => t.retS (.sari g d a k) d ((t.sr a).sshiftRight k.toNat)
/-- MUL, latency 3 (R275). -/
def execMul (g : BitVec 4) (d a b : BitVec 6) (s : State) : Out :=
  whenOn g s fun t => t.land 3 .s (.mul g d a b) [.s d (t.sr a * t.sr b)] (opd (t.sr a)) (opd (t.sr b)) 0#1024 (t.pr g) 0#64
/-- MULHS, latency 3 (R275). -/
def execMulhs (g : BitVec 4) (d a b : BitVec 6) (s : State) : Out :=
  whenOn g s fun t => t.land 3 .s (.mulhs g d a b) [.s d (mulHighS (t.sr a) (t.sr b))] (opd (t.sr a)) (opd (t.sr b)) 0#1024 (t.pr g) 0#64
/-- MULHU, latency 3 (R275). -/
def execMulhu (g : BitVec 4) (d a b : BitVec 6) (s : State) : Out :=
  whenOn g s fun t => t.land 3 .s (.mulhu g d a b) [.s d (mulHighU (t.sr a) (t.sr b))] (opd (t.sr a)) (opd (t.sr b)) 0#1024 (t.pr g) 0#64
/-- DIVS, latency 12 (R275). -/
def execDivs (g : BitVec 4) (d a b : BitVec 6) (s : State) : Out :=
  whenOn g s fun t => t.land 12 .s (.divs g d a b) [.s d (divSigned (t.sr a) (t.sr b))] (opd (t.sr a)) (opd (t.sr b)) 0#1024 (t.pr g) 0#64
/-- DIVU, latency 12 (R275). -/
def execDivu (g : BitVec 4) (d a b : BitVec 6) (s : State) : Out :=
  whenOn g s fun t => t.land 12 .s (.divu g d a b) [.s d (divUnsigned (t.sr a) (t.sr b))] (opd (t.sr a)) (opd (t.sr b)) 0#1024 (t.pr g) 0#64
/-- REMS, latency 12 (R275). -/
def execRems (g : BitVec 4) (d a b : BitVec 6) (s : State) : Out :=
  whenOn g s fun t => t.land 12 .s (.rems g d a b) [.s d (remSigned (t.sr a) (t.sr b))] (opd (t.sr a)) (opd (t.sr b)) 0#1024 (t.pr g) 0#64
/-- REMU, latency 12 (R275). -/
def execRemu (g : BitVec 4) (d a b : BitVec 6) (s : State) : Out :=
  whenOn g s fun t => t.land 12 .s (.remu g d a b) [.s d (remUnsigned (t.sr a) (t.sr b))] (opd (t.sr a)) (opd (t.sr b)) 0#1024 (t.pr g) 0#64
/-- CLZ (R276). -/
def execClz (g : BitVec 4) (d : BitVec 6) (a : BitVec 6) (s : State) : Out :=
  whenOn g s fun t => t.retS (.clz g d a) d (BitVec.ofNat 64 (leadZeros 64 (t.sr a).toNat))
/-- CTZ (R276). -/
def execCtz (g : BitVec 4) (d : BitVec 6) (a : BitVec 6) (s : State) : Out :=
  whenOn g s fun t => t.retS (.ctz g d a) d (BitVec.ofNat 64 (trailZeros (t.sr a).toNat 64))
/-- POPC (R276). -/
def execPopc (g : BitVec 4) (d : BitVec 6) (a : BitVec 6) (s : State) : Out :=
  whenOn g s fun t => t.retS (.popc g d a) d (BitVec.ofNat 64 (popCount (t.sr a).toNat 64))
/-- ABS (R276). -/
def execAbs (g : BitVec 4) (d : BitVec 6) (a : BitVec 6) (s : State) : Out :=
  whenOn g s fun t => t.retS (.abs g d a) d (absW (t.sr a))
/-- MOV (R276). -/
def execMov (g : BitVec 4) (d : BitVec 6) (a : BitVec 6) (s : State) : Out :=
  whenOn g s fun t => t.retS (.mov g d a) d (t.sr a)
/-- BFX (R276). -/
def execBfx (g : BitVec 4) (d : BitVec 6) (a : BitVec 6) (b : BitVec 6) (x : BitVec 1) (s : State) : Out :=
  whenOn g s fun t => t.retS (.bfx g d a b x) d (bitExtract (t.sr a) (t.sr b) (x == 1#1))
/-- BFI (R276). -/
def execBfi (g : BitVec 4) (d : BitVec 6) (a : BitVec 6) (b : BitVec 6) (s : State) : Out :=
  whenOn g s fun t => t.retS (.bfi g d a b) d (bitInsert (t.sr d) (t.sr a) (t.sr b))
/-- MOVI (R277). -/
def execMovi (g : BitVec 4) (d : BitVec 6) (imm : BitVec 20) (s : State) : Out :=
  whenOn g s fun t => t.retS (.movi g d imm) d (imm.signExtend 64)
/-- MOVHI (R277). -/
def execMovhi (g : BitVec 4) (d : BitVec 6) (imm : BitVec 16) (s : State) : Out :=
  whenOn g s fun t => t.retS (.movhi g d imm) d (shiftIn (t.sr d) (imm.setWidth 64))
/-- SEL (R277). -/
def execSel (g : BitVec 4) (d : BitVec 6) (a : BitVec 6) (b : BitVec 6) (p : BitVec 4) (s : State) : Out :=
  whenOn g s fun t => t.retS (.sel g d a b p) d (if (t.pr p).getLsbD 0 then (t.sr a) else (t.sr b))
/-- CMPEQ (R278). -/
def execCmpeq (g : BitVec 4) (d : BitVec 4) (a : BitVec 6) (b : BitVec 6) (s : State) : Out :=
  whenOn g s fun t => t.retP (.cmpeq g d a b) d (flagsOf ((t.sr a) == (t.sr b)))
/-- CMPNE (R278). -/
def execCmpne (g : BitVec 4) (d : BitVec 4) (a : BitVec 6) (b : BitVec 6) (s : State) : Out :=
  whenOn g s fun t => t.retP (.cmpne g d a b) d (flagsOf ((t.sr a) != (t.sr b)))
/-- CMPLT (R278). -/
def execCmplt (g : BitVec 4) (d : BitVec 4) (a : BitVec 6) (b : BitVec 6) (s : State) : Out :=
  whenOn g s fun t => t.retP (.cmplt g d a b) d (flagsOf (ltS (t.sr a) (t.sr b)))
/-- CMPLE (R278). -/
def execCmple (g : BitVec 4) (d : BitVec 4) (a : BitVec 6) (b : BitVec 6) (s : State) : Out :=
  whenOn g s fun t => t.retP (.cmple g d a b) d (flagsOf (!ltS (t.sr b) (t.sr a)))
/-- CMPLTU (R278). -/
def execCmpltu (g : BitVec 4) (d : BitVec 4) (a : BitVec 6) (b : BitVec 6) (s : State) : Out :=
  whenOn g s fun t => t.retP (.cmpltu g d a b) d (flagsOf (decide ((t.sr a).toNat < (t.sr b).toNat)))
/-- CMPLEU (R278). -/
def execCmpleu (g : BitVec 4) (d : BitVec 4) (a : BitVec 6) (b : BitVec 6) (s : State) : Out :=
  whenOn g s fun t => t.retP (.cmpleu g d a b) d (flagsOf (decide ((t.sr a).toNat ≤ (t.sr b).toNat)))
/-- CMPEQI (R278). -/
def execCmpeqi (g : BitVec 4) (d : BitVec 4) (a : BitVec 6) (imm : BitVec 15) (s : State) : Out :=
  whenOn g s fun t => t.retP (.cmpeqi g d a imm) d (flagsOf ((t.sr a) == imm.signExtend 64))
/-- CMPLTI (R278). -/
def execCmplti (g : BitVec 4) (d : BitVec 4) (a : BitVec 6) (imm : BitVec 15) (s : State) : Out :=
  whenOn g s fun t => t.retP (.cmplti g d a imm) d (flagsOf (ltS (t.sr a) (imm.signExtend 64)))
/-- PAND (R279). -/
def execPand (g : BitVec 4) (d : BitVec 4) (a : BitVec 4) (b : BitVec 4) (s : State) : Out :=
  whenOn g s fun t => t.retP (.pand g d a b) d (t.pr a &&& t.pr b)
/-- POR (R279). -/
def execPor (g : BitVec 4) (d : BitVec 4) (a : BitVec 4) (b : BitVec 4) (s : State) : Out :=
  whenOn g s fun t => t.retP (.por g d a b) d (t.pr a ||| t.pr b)
/-- PXOR (R279). -/
def execPxor (g : BitVec 4) (d : BitVec 4) (a : BitVec 4) (b : BitVec 4) (s : State) : Out :=
  whenOn g s fun t => t.retP (.pxor g d a b) d (t.pr a ^^^ t.pr b)
/-- PNOT (R279). -/
def execPnot (g : BitVec 4) (d : BitVec 4) (a : BitVec 4) (s : State) : Out :=
  whenOn g s fun t => t.retP (.pnot g d a) d (~~~(t.pr a))
/-- PMOV (R279). -/
def execPmov (g : BitVec 4) (d : BitVec 4) (a : BitVec 6) (s : State) : Out :=
  whenOn g s fun t => t.retP (.pmov g d a) d ((t.sr a).setWidth 32)
/-- MFP (R279). -/
def execMfp (g : BitVec 4) (d : BitVec 6) (a : BitVec 4) (s : State) : Out :=
  whenOn g s fun t => t.retS (.mfp g d a) d ((t.pr a).setWidth 64)
/-- MTG (R292). -/
def execMtg (g : BitVec 4) (a i : BitVec 6) (s : State) : Out :=
  whenOn g s fun t => t.ret1 .s (.mtg g a i) [.g i (t.sr a)]
/-- MFG (R292). -/
def execMfg (g : BitVec 4) (d i : BitVec 6) (s : State) : Out :=
  whenOn g s fun t => t.retS (.mfg g d i) d (t.ctx.r.greg i)
/-- Special register n (Table 10-9): the bundle count as this bundle counts it, the cycle counter, core, cluster, tower,
context and the number of reserved ALQ entries. -/
def State.special (s : State) (n : BitVec 6) : Word :=
  match n.toNat with
  | 0 => s.ctx.r.bc
  | 1 => s.cycOf (twrOf s.here)
  | 2 => BitVec.ofNat 64 (s.here % 24)
  | 3 => BitVec.ofNat 64 (cluOf s.here % 8)
  | 4 => BitVec.ofNat 64 (twrOf s.here)
  | 5 => s.core.cur.setWidth 64
  | _ => BitVec.ofNat 64 s.ctx.r.alq.length
/-- MFSR (R248, R292). -/
def execMfsr (g : BitVec 4) (d n : BitVec 6) (s : State) : Out :=
  whenOn g s fun t => t.retS (.mfsr g d n) d (t.special n)

end Sys2Proof.Machine
end

