-- ==== Sys2Proof/Machine/VecVal.lean ====
section
/-! DEFINITION. Values of the V class (R307 to R321): what each instruction computes from its captured operands. -/

namespace Sys2Proof.Machine

/-! ## Integer family (R308 to R310) -/

/-- An element function of one operand at the width of a field: 0 bytes, 1 halves, 2 words (R307). -/
def lift1 (w : BitVec 2) (f : (n : Nat) → BitVec n → BitVec n) (a : Vec) : Vec :=
  match w.toNat with
  | 0 => ofElems 8 fun j => f 8 (elem a 8 j)
  | 1 => ofElems 16 fun j => f 16 (elem a 16 j)
  | _ => ofElems 32 fun j => f 32 (elem a 32 j)

/-- An element function of two operands. -/
def lift2 (w : BitVec 2) (f : (n : Nat) → BitVec n → BitVec n → BitVec n) (a b : Vec) : Vec :=
  match w.toNat with
  | 0 => ofElems 8 fun j => f 8 (elem a 8 j) (elem b 8 j)
  | 1 => ofElems 16 fun j => f 16 (elem a 16 j) (elem b 16 j)
  | _ => ofElems 32 fun j => f 32 (elem a 32 j) (elem b 32 j)

/-- VADD by mode: wrap, signed saturation, unsigned saturation (R308). -/
def vaddVal (m w : BitVec 2) : Vec → Vec → Vec :=
  lift2 w fun n x y => match m.toNat with
    | 0 => x + y
    | 1 => BitVec.ofInt n (satS (x.toInt + y.toInt) n)
    | _ => BitVec.ofInt n (satU ((x.toNat : Int) + y.toNat) n)
/-- VSUB by mode (R308). -/
def vsubVal (m w : BitVec 2) : Vec → Vec → Vec :=
  lift2 w fun n x y => match m.toNat with
    | 0 => x - y
    | 1 => BitVec.ofInt n (satS (x.toInt - y.toInt) n)
    | _ => BitVec.ofInt n (satU ((x.toNat : Int) - y.toNat) n)
/-- VMUL (R308). -/
def vmulVal (w : BitVec 2) : Vec → Vec → Vec := lift2 w fun _ x y => x * y
/-- VMULH (R308). -/
def vmulhVal (u : BitVec 1) (w : BitVec 2) : Vec → Vec → Vec :=
  lift2 w fun n x y => if u = 1#1 then BitVec.ofNat n (x.toNat * y.toNat / 2 ^ n) else BitVec.ofInt n (x.toInt * y.toInt / 2 ^ n)
/-- VMAC; c is the destination as read at issue (R308). -/
def vmacVal (w : BitVec 2) (a b c : Vec) : Vec := lift2 w (fun _ x y => x + y) c (vmulVal w a b)
/-- VMINS (R308). -/
def vminsVal (w : BitVec 2) : Vec → Vec → Vec := lift2 w fun _ x y => minS x y
/-- VMAXS (R308). -/
def vmaxsVal (w : BitVec 2) : Vec → Vec → Vec := lift2 w fun _ x y => maxS x y
/-- VMINU (R308). -/
def vminuVal (w : BitVec 2) : Vec → Vec → Vec := lift2 w fun _ x y => minU x y
/-- VMAXU (R308). -/
def vmaxuVal (w : BitVec 2) : Vec → Vec → Vec := lift2 w fun _ x y => maxU x y
/-- VABS (R308). -/
def vabsVal (w : BitVec 2) : Vec → Vec := lift1 w fun _ x => absW x
/-- An element shifted left; 0 from the width on (R308). -/
def shlE {n : Nat} (x : BitVec n) (k : Nat) : BitVec n := if n ≤ k then 0#n else x <<< k
/-- An element shifted right; 0 from the width on (R308). -/
def shrE {n : Nat} (x : BitVec n) (k : Nat) : BitVec n := if n ≤ k then 0#n else x >>> k
/-- An element shifted right with its sign, by at most the width less one (R308). -/
def sarE {n : Nat} (x : BitVec n) (k : Nat) : BitVec n := x.sshiftRight (min k (n - 1))
/-- An element rotated left modulo the width (R308). -/
def rolE {n : Nat} (x : BitVec n) (k : Nat) : BitVec n := x.rotateLeft (k % n)
/-- VSHL (R308). -/
def vshlVal (w : BitVec 2) : Vec → Vec → Vec := lift2 w fun _ x y => shlE x y.toNat
/-- VSHR (R308). -/
def vshrVal (w : BitVec 2) : Vec → Vec → Vec := lift2 w fun _ x y => shrE x y.toNat
/-- VSAR (R308). -/
def vsarVal (w : BitVec 2) : Vec → Vec → Vec := lift2 w fun _ x y => sarE x y.toNat
/-- VROT (R308). -/
def vrotVal (w : BitVec 2) : Vec → Vec → Vec := lift2 w fun _ x y => rolE x y.toNat
/-- VFSHL: the high word of a : b shifted left, lane by lane (R308). -/
def vfshlVal (k : BitVec 5) (a b : Vec) : Vec :=
  ofLanes fun i => ((((lane a i) ++ (lane b i) : BitVec 64) <<< k.toNat) >>> 32).setWidth 32
/-- VFSHR: the low word of a : b shifted right (R308). -/
def vfshrVal (k : BitVec 5) (a b : Vec) : Vec :=
  ofLanes fun i => (((lane a i) ++ (lane b i) : BitVec 64) >>> k.toNat).setWidth 32
/-- VPOPC (R308). -/
def vpopcVal (w : BitVec 2) : Vec → Vec := lift1 w fun n x => BitVec.ofNat n (popCount x.toNat n)
/-- VCLZ (R308). -/
def vclzVal (w : BitVec 2) : Vec → Vec := lift1 w fun n x => BitVec.ofNat n (leadZeros n x.toNat)
/-- VSHI by kind: shl, shr, sar, rot (R309). -/
def vshiVal (k w : BitVec 2) (amt : BitVec 5) : Vec → Vec :=
  lift1 w fun _ x => match k.toNat with
    | 0 => shlE x amt.toNat
    | 1 => shrE x amt.toNat
    | 2 => sarE x amt.toNat
    | _ => rolE x amt.toNat
/-- VBCST: the low bits of a scalar in every element (R308). -/
def vbcstVal (w : BitVec 2) (x : Word) : Vec := lift1 w (fun n _ => x.setWidth n) 0#1024
/-- VTERN: each result bit is the table's bit at 4d + 2a + b (R310). -/
def vternVal (t : BitVec 8) (a b c : Vec) : Vec :=
  (List.range 8).foldl (fun (acc : Vec) k =>
    if t.getLsbD k then
      acc ||| ((if bitOf k 2 then c else ~~~c) &&& (if bitOf k 1 then a else ~~~a) &&& (if bitOf k 0 then b else ~~~b))
    else acc) 0#1024

/-! ## Floating point (R311 to R315) -/

/-- An element function on FP32 lanes or BF16 halves, by f[0] (R311). -/
def liftF (e : BitVec 1) (f : Fmt → Nat → Nat → Nat → Nat) (a b c : Vec) : Vec :=
  if e = 0#1 then
    ofElems 32 fun j => BitVec.ofNat 32 (f .f32 (elem a 32 j).toNat (elem b 32 j).toNat (elem c 32 j).toNat)
  else
    ofElems 16 fun j => BitVec.ofNat 16 (f .bf16 (elem a 16 j).toNat (elem b 16 j).toNat (elem c 16 j).toNat)

/-- The rounding mode of f[1] (R311). -/
def rmOf (r : BitVec 1) : Rm := if r = 0#1 then .rne else .rtz

/-- VFADD (R311). -/
def vfaddVal (r e : BitVec 1) (a b : Vec) : Vec :=
  liftF e (fun F x y _ => F.round ((F.val x).add (F.val y)) (rmOf r) 0) a b 0#1024
/-- VFSUB (R311). -/
def vfsubVal (r e : BitVec 1) (a b : Vec) : Vec :=
  liftF e (fun F x y _ => F.round ((F.val x).add (F.val y).neg) (rmOf r) 0) a b 0#1024
/-- VFMUL (R311). -/
def vfmulVal (r e : BitVec 1) (a b : Vec) : Vec :=
  liftF e (fun F x y _ => F.round ((F.val x).mul (F.val y)) (rmOf r) 0) a b 0#1024
/-- VFMA; c is the destination as read at issue (R311). -/
def vfmaVal (r e : BitVec 1) : Vec → Vec → Vec → Vec :=
  liftF e fun F x y z => F.round (((F.val x).mul (F.val y)).add (F.val z)) (rmOf r) 0
/-- VFMAX (R311, R218). -/
def vfmaxVal (e : BitVec 1) (a b : Vec) : Vec := liftF e (fun F x y _ => F.pick true x y) a b 0#1024
/-- VFMIN (R311, R218). -/
def vfminVal (e : BitVec 1) (a b : Vec) : Vec := liftF e (fun F x y _ => F.pick false x y) a b 0#1024
/-- VEXP2 (R312). -/
def vexp2Val (a : Vec) : Vec := ofLanes fun i => exp2F (lane a i)
/-- VRCP (R312). -/
def vrcpVal (a : Vec) : Vec := ofLanes fun i => rcpF (lane a i)
/-- VRSQ (R312). -/
def vrsqVal (a : Vec) : Vec := ofLanes fun i => rsqF (lane a i)
/-- A condition of VFCMP (Table 13-3). -/
def vfcond (c : BitVec 3) (x y : Fv) : Bool :=
  match c.toNat with
  | 0 => x.le y && y.le x
  | 1 => x.lt y
  | 2 => x.le y
  | 3 => x.isNan || y.isNan
  | _ => !(x.le y && y.le x)
/-- One bit for each lane. -/
def laneBits (f : Nat → Bool) : BitVec 32 :=
  (List.range 32).foldl (fun (acc : BitVec 32) i => if f i then acc ||| (1#32 <<< i) else acc) 0#32
/-- VFCMP (R313). -/
def vfcmpVal (c : BitVec 3) (a b : Vec) : BitVec 32 := laneBits fun i => vfcond c (valF (lane a i)) (valF (lane b i))

/-- Bits of one value of a conversion type (Table 13-4). -/
def cvtBits (c : BitVec 4) : Nat :=
  match c.toNat with
  | 1 => 16
  | 2 => 8
  | 3 => 8
  | 4 => 4
  | 5 => 32
  | 6 => 32
  | 7 => 16
  | 8 => 16
  | _ => 8
/-- FP32 converted to a type (R231, R314). -/
def cvtTo (c : BitVec 4) (x : BitVec 32) (md : Rm) (w : Nat) : Nat :=
  match c.toNat with
  | 1 => Fmt.bf16.round (valF x) md w
  | 2 => Fmt.e4m3.round (valF x) md w
  | 3 => Fmt.e5m2.round (valF x) md w
  | 4 => Fmt.e2m1.round (valF x) md w
  | 5 => (BitVec.ofInt 32 (toIntSat (valF x) 32 true md w)).toNat
  | 6 => (BitVec.ofInt 32 (toIntSat (valF x) 32 false md w)).toNat
  | 7 => (BitVec.ofInt 16 (toIntSat (valF x) 16 true md w)).toNat
  | 8 => (BitVec.ofInt 16 (toIntSat (valF x) 16 false md w)).toNat
  | 9 => (BitVec.ofInt 8 (toIntSat (valF x) 8 true md w)).toNat
  | _ => (BitVec.ofInt 8 (toIntSat (valF x) 8 false md w)).toNat
/-- The value of a type's encoding (R314). -/
def cvtVal (c : BitVec 4) (x : Nat) : Fv :=
  match c.toNat with
  | 1 => Fmt.bf16.val x
  | 2 => Fmt.e4m3.val x
  | 3 => Fmt.e5m2.val x
  | 4 => Fmt.e2m1.val x
  | 5 => Fv.ofInt (BitVec.ofNat 32 x).toInt
  | 7 => Fv.ofInt (BitVec.ofNat 16 x).toInt
  | 9 => Fv.ofInt (BitVec.ofNat 8 x).toInt
  | _ => Fv.ofInt x
/-- The bits of part p in every lane (Table 13-4). -/
def partMask (c : BitVec 4) (p : BitVec 3) : Vec :=
  ofLanes fun _ => BitVec.ofNat 32 ((2 ^ cvtBits c - 1) * 2 ^ (cvtBits c * p.toNat))
/-- The writes of VCVT and VCVTS: direction 0 writes only its part, direction 1 whole lanes (R314). -/
def cvtWrites (d : BitVec 6) (c : BitVec 4) (x : BitVec 1) (p : BitVec 3) (md : Rm) (rbw : Word) (a : Vec) (gm : BitVec 32) :
    List Write :=
  let wi := fun i => match md with
    | .sr => (laneWord rbw i).toNat
    | _ => 0
  let k := cvtBits c
  if x = 0#1 then
    [.v d (ofLanes fun i => BitVec.ofNat 32 (cvtTo c (lane a i) md (wi i) * 2 ^ (k * p.toNat))) (laneMask gm &&& partMask c p)]
  else
    [.v d (ofLanes fun i => BitVec.ofNat 32
      (Fmt.f32.round (cvtVal c ((lane a i).toNat / 2 ^ (k * p.toNat) % 2 ^ k)) md (wi i))) (laneMask gm)]

/-! ## MX blocks (R316, R317) -/

/-- The element format of f[1:0]. -/
def mxOf (e : BitVec 2) : Mx :=
  match e.toNat with
  | 0 => .int8
  | 1 => .e4m3
  | 2 => .e5m2
  | _ => .e2m1
/-- The mask of block slot q: lanes 8q to 8q + 7, or to 8q + 3 for E2M1 (R316). -/
def slotMask (q : BitVec 2) (F : Mx) : Vec :=
  ofLanes fun i => if 8 * q.toNat ≤ i ∧ i < 8 * q.toNat + F.bits then 0xffffffff#32 else 0#32
/-- The writes of VMXQ: the block slot and the scale (R316). -/
def vmxqWrites (d b : BitVec 6) (q : BitVec 2) (m : BitVec 1) (e : BitVec 2) (rbw : Word) (a : Vec) (gm : BitVec 32) :
    List Write :=
  let F := mxOf e
  let xs := (List.range 32).map fun i => if gm.getLsbD i then valF (lane a i) else .fin false 0 0
  let r := mxQuant xs F (if m = 1#1 then .sr else .rne) fun i => (laneWord rbw i).toNat
  let el := r.2.zipIdx.foldl (fun (acc : Nat) q => acc + q.1 * 2 ^ (F.bits * q.2)) 0
  [.v d (BitVec.ofNat 1024 (el * 2 ^ (256 * q.toNat))) (slotMask q F), .s b (BitVec.ofNat 64 r.1)]
/-- VMXD (R317). -/
def vmxdVal (q : BitVec 2) (e : BitVec 2) (scale : Word) (a : Vec) : Vec :=
  let F := mxOf e
  let blk := a.toNat / 2 ^ (256 * q.toNat)
  ofLanes fun i => toF32 (mxValue F (scale.toNat % 256) (blk / 2 ^ (F.bits * i) % 2 ^ F.bits))

/-! ## Permute, reduce and mask (R318 to R321) -/

/-- VPERM (R318). -/
def vpermVal (a b : Vec) : Vec := ofLanes fun i => lane a ((lane b i).toNat % 32)
/-- VSLIDE (R318). -/
def vslideVal (k : BitVec 5) (a b : Vec) : Vec :=
  ofLanes fun i => if i + k.toNat < 32 then lane a (i + k.toNat) else lane b (i + k.toNat - 32)
/-- VSEL by a predicate as read at issue (R318). -/
def vselVal (p : BitVec 32) (a b : Vec) : Vec := ofLanes fun i => if p.getLsbD i then lane a i else lane b i
/-- VINS: every lane holds the scalar; only lane k is written (R318). -/
def vinsVal (x : Word) : Vec := ofLanes fun _ => x.setWidth 32
/-- The guard bit of lane k alone. -/
def onlyLane (gm : BitVec 32) (k : BitVec 5) : BitVec 32 := gm &&& (1#32 <<< k.toNat)
/-- The integer comparison of every element of a lane (R319). -/
def vcmpVal (c : BitVec 3) (w : BitVec 2) (a b : Vec) : BitVec 32 :=
  laneBits fun i => match w.toNat with
    | 0 => (List.range 4).all fun k => elemHolds c (elem a 8 (4 * i + k)) (elem b 8 (4 * i + k))
    | 1 => (List.range 2).all fun k => elemHolds c (elem a 16 (2 * i + k)) (elem b 16 (2 * i + k))
    | _ => elemHolds c (lane a i) (lane b i)
/-- Neighbours combined, the left operand from the lower lanes. -/
def pairUp (f : BitVec 32 → BitVec 32 → BitVec 32) : List (BitVec 32) → List (BitVec 32)
  | x :: y :: t => f x y :: pairUp f t
  | l => l
/-- The fixed tree of five levels (R320). -/
def tree (f : BitVec 32 → BitVec 32 → BitVec 32) (l : List (BitVec 32)) : BitVec 32 :=
  (pairUp f (pairUp f (pairUp f (pairUp f (pairUp f l))))).headD 0#32
/-- The lanes of a reduction, guarded-false ones at the identity. -/
def treeLanes (a : Vec) (gm ident : BitVec 32) : List (BitVec 32) :=
  (List.range 32).map fun i => if gm.getLsbD i then lane a i else ident
/-- One value in every lane. -/
def splat (x : BitVec 32) : Vec := ofLanes fun _ => x
/-- VRADD (R320). -/
def vraddVal (a : Vec) (gm : BitVec 32) : Vec := splat (tree (· + ·) (treeLanes a gm 0#32))
/-- VRMAX (R320). -/
def vrmaxVal (u : BitVec 1) (a : Vec) (gm : BitVec 32) : Vec :=
  if u = 1#1 then splat (tree maxU (treeLanes a gm 0#32)) else splat (tree maxS (treeLanes a gm 0x80000000#32))
/-- VRFADD (R320). -/
def vrfaddVal (a : Vec) (gm : BitVec 32) : Vec := splat (tree addF (treeLanes a gm 0#32))
/-- The larger of two FP32 lanes. -/
def maxF (x y : BitVec 32) : BitVec 32 := BitVec.ofNat 32 (Fmt.f32.pick true x.toNat y.toNat)
/-- VRFMAX (R320). -/
def vrfmaxVal (a : Vec) (gm : BitVec 32) : Vec := splat (tree maxF (treeLanes a gm 0xff800000#32))
/-- VMCNT (R321). -/
def vmcntVal (a : Vec) : Word := BitVec.ofNat 64 (popCount a.toNat 1024)
/-- VMFST (R321). -/
def vmfstVal (a : Vec) : Word := BitVec.ofNat 64 (trailZeros a.toNat 1024)

/-- The bucket of one lane: causal or bidirectional (R369). -/
def rbktLane (m : BitVec 1) (x : BitVec 32) : BitVec 32 :=
  let mu := fun (y : Nat) => b2n (bitOf y (log2n y - 1))
  if m = 0#1 then
    (if x.toInt < 16 then BitVec.ofInt 32 (max x.toInt 0)
     else BitVec.ofNat 32 (min 31 (16 + 2 * (log2n x.toNat - 4) + mu x.toNat)))
  else
    let y := x.toInt.natAbs
    BitVec.ofNat 32 (16 * b2n (decide (x.toInt < 0)) + (if y < 8 then y else min 15 (8 + 2 * (log2n y - 3) + mu y)))
/-- RBKT (R369). -/
def rbktVal (m : BitVec 1) (a : Vec) : Vec := ofLanes fun i => rbktLane m (lane a i)

/-! ## Results from captured operands (R196, R200) -/

/-- A vector result under its guard mask. -/
def vres (d : BitVec 6) (x : Vec) (gm : BitVec 32) : List Write := [.v d x (laneMask gm)]
/-- A predicate result: bit i only where guard bit i is 1 (R307). -/
def pres (d : BitVec 4) (x gm : BitVec 32) : List Write := [.p d x gm]
/-- A scalar operand field. -/
def low (x : Vec) : Word := x.setWidth 64
/-- The two halves of an LDQ (R281). -/
def pairWrites (d : BitVec 6) (a : Vec) : List Write := [.s d (a.extractLsb' 0 64), .s (d + 1#6) (a.extractLsb' 64 64)]

/-- The writes of a fixed-latency instruction computed from its captured operands, guard mask and random word (R196, R200).
Loads, RBIAS, FSTAT and CSRR hold in a the data they read at issue (R324, log 21). -/
def resultOf (i : Instr) (a b c : Vec) (gm : BitVec 32) (rbw : Word) : List Write :=
  match i with
  | .mul _ d _ _ => [.s d (low a * low b)]
  | .mulhs _ d _ _ => [.s d (mulHighS (low a) (low b))]
  | .mulhu _ d _ _ => [.s d (mulHighU (low a) (low b))]
  | .divs _ d _ _ => [.s d (divSigned (low a) (low b))]
  | .divu _ d _ _ => [.s d (divUnsigned (low a) (low b))]
  | .rems _ d _ _ => [.s d (remSigned (low a) (low b))]
  | .remu _ d _ _ => [.s d (remUnsigned (low a) (low b))]
  | .ldb _ d _ _ => [.s d (low a)]
  | .ldbu _ d _ _ => [.s d (low a)]
  | .ldh _ d _ _ => [.s d (low a)]
  | .ldhu _ d _ _ => [.s d (low a)]
  | .ldw _ d _ _ => [.s d (low a)]
  | .ldwu _ d _ _ => [.s d (low a)]
  | .ldd _ d _ _ => [.s d (low a)]
  | .ldq _ d _ _ => pairWrites d a
  | .vadd _ d _ _ m w => vres d (vaddVal m w a b) gm
  | .vsub _ d _ _ m w => vres d (vsubVal m w a b) gm
  | .vmul _ d _ _ w => vres d (vmulVal w a b) gm
  | .vmulh _ d _ _ u w => vres d (vmulhVal u w a b) gm
  | .vmac _ d _ _ w => vres d (vmacVal w a b c) gm
  | .vmins _ d _ _ w => vres d (vminsVal w a b) gm
  | .vmaxs _ d _ _ w => vres d (vmaxsVal w a b) gm
  | .vminu _ d _ _ w => vres d (vminuVal w a b) gm
  | .vmaxu _ d _ _ w => vres d (vmaxuVal w a b) gm
  | .vshl _ d _ _ w => vres d (vshlVal w a b) gm
  | .vshr _ d _ _ w => vres d (vshrVal w a b) gm
  | .vsar _ d _ _ w => vres d (vsarVal w a b) gm
  | .vrot _ d _ _ w => vres d (vrotVal w a b) gm
  | .vabs _ d _ w => vres d (vabsVal w a) gm
  | .vpopc _ d _ w => vres d (vpopcVal w a) gm
  | .vclz _ d _ w => vres d (vclzVal w a) gm
  | .vand _ d _ _ => vres d (a &&& b) gm
  | .vor _ d _ _ => vres d (a ||| b) gm
  | .vxor _ d _ _ => vres d (a ^^^ b) gm
  | .vfshl _ d _ _ k => vres d (vfshlVal k a b) gm
  | .vfshr _ d _ _ k => vres d (vfshrVal k a b) gm
  | .vshi _ d _ k w n => vres d (vshiVal k w n a) gm
  | .vbcst _ d _ w => vres d (vbcstVal w (low a)) gm
  | .vtern _ d _ _ t => vres d (vternVal t a b c) gm
  | .vfadd _ d _ _ r e => vres d (vfaddVal r e a b) gm
  | .vfsub _ d _ _ r e => vres d (vfsubVal r e a b) gm
  | .vfmul _ d _ _ r e => vres d (vfmulVal r e a b) gm
  | .vfma _ d _ _ r e => vres d (vfmaVal r e a b c) gm
  | .vfmax _ d _ _ e => vres d (vfmaxVal e a b) gm
  | .vfmin _ d _ _ e => vres d (vfminVal e a b) gm
  | .vexp2 _ d _ => vres d (vexp2Val a) gm
  | .vrcp _ d _ => vres d (vrcpVal a) gm
  | .vrsq _ d _ => vres d (vrsqVal a) gm
  | .vfcmp _ d _ _ cc => pres d (vfcmpVal cc a b) gm
  | .vcvt _ d _ r cc x p => cvtWrites d cc x p (rmOf r) 0#64 a gm
  | .vcvts _ d _ cc x p => cvtWrites d cc x p .sr rbw a gm
  | .vmxq _ d _ b1 q m e => vmxqWrites d b1 q m e rbw a gm
  | .vmxd _ d _ _ q e => vres d (vmxdVal q e (low b) a) gm
  | .vperm _ d _ _ => vres d (vpermVal a b) gm
  | .vslide _ d _ _ k => vres d (vslideVal k a b) gm
  | .vsel _ d _ _ _ => vres d (vselVal ((low c).setWidth 32) a b) gm
  | .vmov _ d _ => vres d (a) gm
  | .vext _ d _ k => [.s d ((lane a k.toNat).setWidth 64)]
  | .vins _ d _ k => vres d (vinsVal (low a)) (onlyLane gm k)
  | .vcmp _ d _ _ cc w => pres d (vcmpVal cc w a b) gm
  | .vradd _ d _ => vres d (vraddVal a gm) gm
  | .vrmax _ d _ u => vres d (vrmaxVal u a gm) gm
  | .vrfadd _ d _ => vres d (vrfaddVal a gm) gm
  | .vrfmax _ d _ => vres d (vrfmaxVal a gm) gm
  | .vmcnt _ d _ => [.s d (vmcntVal a)]
  | .vmfst _ d _ => [.s d (vmfstVal a)]
  | .vld _ d _ _ => vres d a gm
  | .vlds _ d _ _ => vres d a gm
  | .vldx _ d _ _ _ => vres d a gm
  | .vldb _ d _ _ => vres d a gm
  | .rbias _ d _ _ _ => vres d a gm
  | .rbkt _ d _ m => vres d (rbktVal m a) gm
  | .fstat _ d _ _ => [.s d (low a)]
  | .csrr _ d _ => [.s d (low a)]
  | .rbrd _ d => [.s d ((rbw.setWidth 32).setWidth 64)]
  | _ => []

end Sys2Proof.Machine
end

