-- ==== Sys2Proof/Machine/Access.lean ====
section
/-! DEFINITION. Loads and stores of strands: the checks of an address (R35 to R37, R45, R50, R52, R286), local accesses
(R113, R124), and the issue and the performing of remote ones (R109 to R114, R191, R197, R282, R322 to R325). -/

namespace Sys2Proof.Machine

/-! ## Address checks (R36, R37) -/

/-- The kinds of access of Table 2-2. -/
inductive AKind where
  | scalar | vector | atomic | wait
  deriving DecidableEq, Repr, Inhabited

/-- What the checks of one access find: a local location, a remote access, or an issue trap. -/
inductive Target where
  | here (l : Nat)
  | remote (w : Win) (l : Nat)
  | trap (cause : BitVec 8)
  deriving DecidableEq, Repr, Inhabited

/-- Core G owns plot P of tower T (R45, Table 14-1). -/
def State.ownsPlot (s : State) (G T P : Nat) : Bool :=
  let w := s.reg (oFPLST T P)
  w.getLsbD 53 && decide (twrOf G = T) && decide (bits w 61 54 = tcoreOf G)

/-- The checks of n bytes at ea in the order BOUND, PRIV, ALIGN, PROT, FIELD_OWN; in the paged region ALIGN alone (R37). BANK comes
last: R37 and Table 3-2 give it no place (DESIGN CHOICE, log 50). -/
def State.target (s : State) (k : AKind) (ea : Word) (n : Nat) : Target :=
  let a := ea.toNat
  let off := !aligned a n
  match decodeRange s.here a n with
  | none => .trap cBOUND
  | some (w, l) =>
    let skew := match k with
      | .atomic => off
      | .wait => off
      | .vector => !aligned a (min n 4)
      | .scalar => false
    match w with
    | .paged => if skew then .trap cALIGN else .remote w l
    | .scratch =>
      if skew then .trap cALIGN else if k = .atomic then .trap cPROT
      else if s.bankRefuses s.here s.ctx.r.tag (banksOf l n) then .trap cBANK else .here l
    | .astore => if skew then .trap cALIGN else if k = .atomic then .trap cPROT else .here l
    | .bazaar => if skew then .trap cALIGN else .remote w l
    | .entrepot => if skew then .trap cALIGN else .remote w l
    | .fieldv =>
      if !(List.range n).all (fun j => fieldUsed (l + j)) then .trap cBOUND
      else if skew then .trap cALIGN
      else if k = .atomic ∨ k = .wait then .trap cPROT
      else if !s.ctx.r.sup && !s.ownsPlot s.here (plotOf l).1 (plotOf l).2 then .trap cFOWN
      else .remote w l
    | .mailbox =>
      if !s.ctx.r.sup then .trap cPRIV
      else if k = .vector ∨ off ∨ n ≠ 8 then .trap cALIGN
      else if k = .atomic then .trap cPROT else .remote w l
    | .csr =>
      if !s.ctx.r.sup then .trap cPRIV
      else if k = .vector then .trap cPROT
      else if off ∨ n ≠ 8 then .trap cALIGN
      else if k = .scalar then .remote w l else .trap cPROT

/-! ## Local accesses (R113, R124) -/

/-- A local access conflicts with a scoreboard entry: a load with a write entry, a store with any (R124). -/
def State.conflicts (s : State) (G l n : Nat) (wr : Bool) : Bool :=
  (s.coreAt G).sb.any fun e => decide (e.lo < l + n) && decide (l < e.hi) && (wr || e.wr)

/-- Bytes written as part of an instruction that replaces their granule whole, or not: cov is none for a write of its own; else the granule's
old marks do not stop it, and its last part clears them (R135, R138). -/
def State.writeCover (s : State) (cov : Option Bool) (l : Nat) (bs : List Byte) : State :=
  match cov with
  | none => s.write l bs
  | some last =>
    let t := s.putBytes l bs
    let g := l / granule l * granule l
    if last then { t with poison := setDel t.poison g, badcrc := eraseKey t.badcrc g } else t

/-- Bytes written into local memory by context x, logged where its segment names the line; nothing when the undo buffer is
full (R144, R149). -/
def State.localWrite (s : State) (G x l : Nat) (seg : Option Seg) (cov : Option Bool) (bs : List Byte) : Option State :=
  match seg with
  | none => some ((s.writeCover cov l bs).wakeMonitors l bs.length)
  | some g => (s.logLines G x g (linesOf l bs.length)).map fun t => (t.writeCover cov l bs).wakeMonitors l bs.length

/-! ## Resolving an address when an access performs (R88, R97 to R102) -/

/-- The strand's access sleeps on a page request (R98). -/
def State.markSleep (s : State) (id : Nat) : State :=
  s.mapCtx (Ctx.hasAccess id) fun c => c.onAccess id fun a => { a with sleep := true }

/-- A record of severity 2 and class 14 for each request of core G to a module out of reach (R420). -/
def State.noteLinks (s : State) (G : Nat) (ps : List (Nat × Nat × Bool)) : State :=
  (ps.filter fun p => s.unlinked p.1).foldl (fun (t : State) p =>
    t.report (twrOf G) 14 2 G 0 false 0 (BitVec.ofNat 64 (p.1 % regionSize)) 0#64 0#64) s

/-- The sector requests of a part of an engine's row, at n bytes at l: one for each line that the part is the first of its row to reach
(R73, R77, log 11). -/
def requested (first : Bool) (l n : Nat) : List Nat := (linesOf l n).filter fun a => first || decide (l ≤ a)

/-- Sector requests of an engine that reads some pieces, the first of its row or not (R73, R77). -/
def State.countPieces (s : State) (first : Bool) (ps : List Piece) : State :=
  ps.foldl (fun (t : State) p => (requested first p.1 p.2.1).foldl (fun (u : State) a => u.sectorRead a true) t) s

/-- Pieces that a copy engine of tower T reads, the first of its row or not: cacheable ones through the tower's L2, others at the memory side
(R70, R73, R77, log 11). -/
def State.enginePieces (s : State) (T : Nat) (first : Bool) (ps : List Piece) : State :=
  ps.foldl (fun (t : State) p => (requested first p.1 p.2.1).foldl (fun (u : State) a => if p.2.2 then u.sectorRead a true else u.readL2 T a) t) s

/-- Pieces read by core G: cacheable lines are taken shared, uncached ones read at the memory side (R68, R77, R109). -/
def State.readPieces (s : State) (G : Nat) (ps : List Piece) : State × List Byte :=
  ps.foldl (fun (q : State × List Byte) p =>
    if p.2.2 then (q.1.sectorReads p.1 p.2.1 true, q.2 ++ q.1.bytesAt p.1 p.2.1)
    else ((linesOf p.1 p.2.1).foldl (fun (u : State) a => u.cacheRead G a) q.1, q.2 ++ q.1.bytesFor G p.1 p.2.1)) (s, [])

/-- A piece of the pieces is poisoned, or belongs to a fenced tower (R139, R155). -/
def State.piecesPoisoned (s : State) (ps : List (Nat × Nat × Bool)) : Bool :=
  ps.any fun p => s.poisonedAt p.1 p.2.1 || s.isFenced p.1

/-- A piece fails its CRC (R137). -/
def State.piecesBad (s : State) (ps : List (Nat × Nat × Bool)) : Bool := ps.any fun p => s.badCrcAt p.1 p.2.1

/-- A piece that no fenced tower holds (R155) waits: for its tower's HBM4, for a page that migrates, or for an invalidation of its line on its way from another strand (R81,
R101, R109, R118). -/
def State.piecesWait (s : State) (src G : Nat) (wr : Bool) (ps : List Piece) : Bool :=
  ps.any fun p => !s.isFenced p.1 && (linesOf p.1 p.2.1).any fun l => s.stalled l || s.migrating l || s.unsettled src G wr l

/-- A piece lies in a field row that is under refetch (R134). -/
def State.piecesRefetch (s : State) (ps : List Piece) : Bool :=
  ps.any fun p => !s.isFenced p.1 && decide (regionOf p.1 = 5) &&
    s.refetch.any (· == ((p.1 - 5 * regionSize) / 0x8000, (p.1 - 5 * regionSize) % 0x8000 / 64))

/-- A storage-view piece whose half is not open; the fabric answers for a fenced tower's (R46, R47, R155). -/
def State.piecesBusy (s : State) (ps : List Piece) : Bool :=
  ps.any fun p => !s.isFenced p.1 && decide (regionOf p.1 = 5) && !s.halfOpen p.1

/-- One piece written for strand src of core G: dropped at a fenced tower; a line of a cacheable page is modified in the L1, any other
written at the memory side (R68, R73, R109, R129, R155); cov as in writeCover. -/
def State.writePiece (s : State) (src G l : Nat) (nc : Bool) (cov : Option Bool) (bs : List Byte) : State :=
  if s.isFenced l then s
  else if regionOf l = 6 && !mailboxOpen l then s
  else
    let s0 := if cov.isNone then s.noteMerge l bs.length else s
    let s1 := (linesOf l bs.length).foldl (fun (t : State) a =>
      if !nc && isHbm a then t.cacheWrite src G a else ((t.recallLine src a).sectorWrite a).refresh G a) s0
    ((s1.dropOrigin l).writeCover cov l bs).wakeMonitors l bs.length

/-- Bytes written to pieces in order. -/
def State.writePieces (s : State) (src G : Nat) (cov : Option Bool) : List Piece → List Byte → State
  | [], _ => s
  | (l, n, nc) :: t, bs => (s.writePiece src G l nc cov (bs.take n)).writePieces src G cov t (bs.drop n)

/-! ## What an access reads and writes -/

/-- The operand that a scalar load captures from the number it read (Table 12-1). -/
def extendLoad (i : Instr) (x : Nat) : Vec :=
  match i with
  | .ldb _ _ _ _ => opd ((BitVec.ofNat 8 x).signExtend 64)
  | .ldh _ _ _ _ => opd ((BitVec.ofNat 16 x).signExtend 64)
  | .ldw _ _ _ _ => opd ((BitVec.ofNat 32 x).signExtend 64)
  | _ => BitVec.ofNat 1024 x

/-- RBIAS: each guarded lane of vd plus its BF16 bias (R370). -/
def biasLanes (vd raw : Vec) : Vec :=
  ofLanes fun i => toF32 ((valF (lane vd i)).add (Fmt.bf16.val ((lane raw i).toNat % 65536)))

/-- One word in every lane. -/
def broadcast (x : Nat) : Vec := splat (BitVec.ofNat 32 x)

/-- The operand of the load's result from the bytes that its parts read, laid at their offsets. -/
def loadOperand (a : Access) (raw : Nat) : Vec :=
  match a.i with
  | .vldb _ _ _ _ => broadcast raw
  | .rbias _ _ _ _ _ => biasLanes a.data (BitVec.ofNat 1024 raw)
  | _ => extendLoad a.i raw

/-! ## Performing (R109, R117, R191, R203) -/

/-- A fault of a remote access (R191, R203, R270): a completion trap of its strand; for a displaced strand, an entry of its
trap frame counted in PFN; for a strand that has exited, the access is dropped with a notice. -/
def State.accessFault (s : State) (a0 : Access) (cause : BitVec 8) (va : Word) : State :=
  let a := { a0 with poi := cause == cPOISON }
  let b := { a with flt := true, efa := va }
  let mine := Ctx.hasAccess a.id
  let trap : Trap := { kind := .completion, cause := cause, slot := BitVec.ofNat 2 (posNum a.pos), faddr := va,
                       finfo := finfo (accessKind a.i) (accessWidth a.i), acc := a.id }
  match s.findCtx mine with
  | none => s
  | some (x, away, c) =>
    if c.gone then
      let s1 := (s.mapCtx mine fun c => c.dropAccess a.id).reap x
      if isLoadInstr a.i then s1 else s1.notice (twrOf (x / 4)) cause x c.r.stage c.r.tfb c.r.pc va
    else if away then
      s.orKill mine (twrOf (x / 4)) (do
        let t ← s.putWordsVA (.core (x / 4)) (x / 4) (c.r.tfb + BitVec.ofNat 64 (0x100 + 0x200 * c.r.pfn.toNat)) (accessEntry b)
        let u ← t.onRegsOf mine fun r => { r with pfn := if r.pfn = 15#4 then r.pfn else r.pfn + 1#4 }
        return u.mapCtx mine fun k => { (k.dropAccess a.id) with late := k.late ++ [b], due := k.due ++ [trap] })
    else
      (s.mapCtx mine fun c =>
        { ((c.wake (s.cycAt x)).onAccess a.id fun q => { q with flt := true, efa := va, poi := a.poi }) with
          due := c.due ++ [trap] }).queue { i := .trapEntry, x := x }

/-- The pieces of some parts, each part with its own, or what stops the first that cannot be reached (R323). -/
def State.resolveParts (s : State) (a : Access) (need : Need) : List Part → Except Stop (List (Part × List Piece) × State)
  | [] => .ok ([], s)
  | p :: t =>
    let q : Tried := ⟨.core a.core, a.core, a.sup, need, p.1.toNat, p.2.2⟩
    match s.tried q with
    | (_, .fault c va) => .error (.fault c va (decide (need = .write)) (some q))
    | (_, .busy) => .error (.wait (some q))
    | (_, .ask va) => .error (.ask va (some q))
    | (u, .ok ps) => (u.resolveParts a need t).map fun q => ((p, ps) :: q.1, q.2)

/-- The first part still to perform, in lane order, whose translation faults: its cause, its address and the resolution. It is looked for before any
unit performs, so no other lane has performed then (R323; DESIGN CHOICE among the subsets of Table 13-10, log 72). -/
def State.pageFault (s : State) (a : Access) (need : Need) : Option (BitVec 8 × Word × Option Tried) :=
  (leftParts a).findSome? fun p => match s.resolveParts a need [p] with
    | .error (.fault c va _ q) => some (c, va, q)
    | _ => none

/-- The address of the first part still to perform, in lane order, whose pieces meet a test (R323). -/
def State.firstLeft (s : State) (a : Access) (need : Need) (test : List Piece → Bool) : Word :=
  ((leftParts a).findSome? fun p => match s.resolveParts a need [p] with
    | .ok ([(_, ps)], _) => if test ps then some p.1 else none
    | _ => none).getD a.addr

/-- What a stop means for an access in flight: a fault, a wait, or a sleep until the host grants the page; where it has refused it, PAGE
(R81, R98, R102). -/
def State.accessStop (s : State) (a : Access) : Stop → State
  | .fault c va _ u => (s.kept u).accessFault a c va
  | .wait u => s.kept u
  | .ask va u =>
    let T := twrOf a.core
    if s.ev.asks == pageMark T va 2 then (s.kept u).accessFault a cPAGE va
    else ((s.kept u).markSleep a.id).sleepOn T va id

/-- The bytes of resolved parts, each at its offset, as one number. -/
def State.gatherParts (s : State) (G : Nat) (rs : List (Part × List Piece)) : State × Nat :=
  rs.foldl (fun (q : State × Nat) r =>
    let u := q.1.readPieces G r.2
    (u.1, q.2 + bytesToNat u.2 * 2 ^ (8 * r.1.2.1))) (s, 0)

/-- The bytes of a part of the store data. -/
def partBytes (data : Vec) (off n : Nat) : List Byte := natToBytes n (data.toNat / 2 ^ (8 * off))

/-- The new value of an atomic or reduction of w bits on m with operand x; y is the new value of ACAS (Table 12-2, R288). -/
def amoNew (i : Instr) (w m x y : Nat) : Nat :=
  let sg := fun (n : Nat) => (BitVec.ofNat w n).toInt
  let pick := fun (b : Bool) => if b then m else x
  match i with
  | .aadd _ _ _ _ => (m + x) % 2 ^ w
  | .amin _ _ _ _ => pick (decide (sg m ≤ sg x))
  | .amax _ _ _ _ => pick (decide (sg x ≤ sg m))
  | .aminu _ _ _ _ => pick (decide (m ≤ x))
  | .amaxu _ _ _ _ => pick (decide (x ≤ m))
  | .aand _ _ _ _ => m &&& x
  | .aor _ _ _ _ => m ||| x
  | .axor _ _ _ _ => m ^^^ x
  | .axchg _ _ _ _ => x
  | .acas _ _ _ _ _ => if m = x then y else m
  | .radd _ _ _ _ => (m + x) % 2 ^ w
  | .rmin _ _ _ u _ => pick (if u = 1#1 then decide (m ≤ x) else decide (sg m ≤ sg x))
  | .rmax _ _ _ u _ => pick (if u = 1#1 then decide (x ≤ m) else decide (sg x ≤ sg m))
  | .rand _ _ _ _ => m &&& x
  | .ror _ _ _ _ => m ||| x
  | .rxor _ _ _ _ => m ^^^ x
  | .rfadd _ _ _ => (addF (BitVec.ofNat 32 m) (BitVec.ofNat 32 x)).toNat
  | _ => x

/-- The read and write halves of an atomic or reduction of strand src at one point of the coherence order, so it reads the location's latest
bytes even where its core has an invalidation still to apply (R110 names loads only). On poison or at a fenced tower the location stays;
a line that fails its CRC is poisoned and keeps its bytes (R119, R136, R138, R155). -/
def State.modify (s : State) (src : Nat) (a : Access) (ps : List Piece) : State × Nat :=
  let n := accessWidth a.i
  let q := s.readPieces a.core ps
  let m := bytesToNat (ps.flatMap fun p => s.bytesAt p.1 p.2.1)
  if s.piecesPoisoned ps then (s, m)
  else
    let x := a.data.toNat % 2 ^ (8 * n)
    let y := a.data.toNat / 2 ^ 64 % 2 ^ (8 * n)
    (q.1.writePieces src a.core none ps (natToBytes n (amoNew a.i (8 * n) m x y)), m)

/-- The store replaces every byte of a 64 B line: its words all lie among the parts. -/
def coversLine (ps : List Part) (line : Nat) : Bool :=
  (List.range 16).all fun j => ps.any fun p => p.1.toNat == 64 * line + 4 * j && p.2.2 == 4

/-- How a part writes its line (writeCover): a line that the access replaces whole is clear after the last of its units. -/
def coverOf (a : Access) (k : Nat) (p : Part) : Option Bool :=
  let line := p.1.toNat / 64
  if coversLine (remoteParts a) line then
    some (!(a.left.any fun j => j != k && (unitParts a j).any fun q => q.1.toNat / 64 == line) &&
      !((unitParts a k).reverse.takeWhile (· != p)).any fun q => q.1.toNat / 64 == line)
  else none

/-- The effect of a unit of a store or reduction of strand src on its resolved parts, in lane order (R109, R112, R121, R325). -/
def State.storeEffect (s : State) (src : Nat) (a : Access) (k : Nat) (rs : List (Part × List Piece)) : State :=
  if isReduction a.i then (s.modify src a (rs.flatMap (·.2))).1
  else rs.foldl (fun (t : State) r =>
    t.writePieces src a.core (coverOf a k r.1) r.2 (partBytes a.data r.1.2.1 r.1.2.2)) s

/-- Unit k of an access has performed; the access leaves flight with its last. -/
def State.unitDone (s : State) (a : Access) (k : Nat) : State :=
  s.mapCtx (Ctx.hasAccess a.id) fun c =>
    if a.left == [k] then c.dropAccess a.id else c.onAccess a.id fun b => { b with left := b.left.erase k }

/-- What a store or reduction of a strand that has exited meets where it replaces only part of a line: poison, or a line that fails its CRC, which that
verification poisons; its cause, and the parts whose lines are verified (R136, R139, R270, log 65). -/
def State.metAfterExit (s : State) (a : Access) (k : Nat) (rs : List (Part × List Piece)) : Option (BitVec 8 × List (Part × List Piece)) :=
  let part := rs.filter fun r => (coverOf a k r.1).isNone
  if part.any fun r => s.piecesPoisoned r.2 then some (cPOISON, [])
  else if part.any fun r => s.piecesBad r.2 then some (cINTEG, part.filter fun r => s.piecesBad r.2)
  else none

/-- A unit of a strand's remote store or reduction performs; one of a strand that has exited is dropped with a notice where it meets poison or a line
that fails its CRC (R46, R47, R109, R117, R270, R282, R286). -/
def State.performStore (s : State) (a : Access) (k : Nat) : State :=
  match s.findCtx (Ctx.hasAccess a.id) with
  | none => s
  | some (_, _, c) =>
    let src := strandOn a.core c.r.tag
    match s.pageFault a .write with
    | some f => (s.kept f.2.2).accessFault a f.1 f.2.1
    | none =>
      match s.resolveParts a .write (unitParts a k) with
      | .error e => s.accessStop a e
      | .ok (rs, t) =>
        let ps := rs.flatMap (·.2)
        if t.piecesWait src a.core true ps then t
        else if t.piecesBusy ps then t.accessFault a cFBUSY (t.firstLeft a .write t.piecesBusy)
        else
          let u := t.noteLinks a.core ps
          match if c.gone then u.metAfterExit a k rs else none with
          | some f => (u.storeEffect src a k f.2).accessFault a f.1 (u.firstLeft a .write (if f.1 = cPOISON then u.piecesPoisoned else u.piecesBad))
          | none => (u.storeEffect src a k rs).unitDone a k

/-- A store performed whole, one unit after another. -/
def State.storeWhole (s : State) (src : Nat) (a : Access) : State :=
  let n := max 1 (unitsOf a).length
  (List.range n).foldl (fun (t : State) k =>
    match t.resolveParts a .write (unitParts a k) with
    | .ok (rs, u) => u.storeEffect src { a with left := rangeFrom k n } k rs
    | .error _ => t) s

/-- Memory as a load of the strand sees it: with the stores performed that its segment holds from earlier bundles (R112, R127). -/
def State.withHeld (s : State) (src : Nat) (a : Access) (held : List Held) : State :=
  held.foldl (fun (t : State) h => match h with
    | .marker => t
    | .access b => if decide (b.bc.toInt < a.bc.toInt) then t.storeWhole src b else t) s

/-- The load leaves flight with its writes landed, wherever its strand is held; those of a strand that has exited are
discarded (R203, R242, R243, R270). -/
def State.finishLoad (s : State) (a : Access) (x : Nat) (gone : Bool) (ws : List Write) : State :=
  let mine := Ctx.hasAccess a.id
  let done := fun (t : State) => (t.mapCtx mine fun c =>
    { (c.dropAccess a.id) with
      seg := c.seg.map fun g => if a.bc.toInt < g.img.bc.toInt then { g with img := g.img.arrive a.bc ws } else g }).reap x
  if gone then done s else s.withRegsOf mine (fun r => r.arrive a.bc ws) done

/-- A load in flight meets poison: the segment rewinds at user level, a strand at supervisor level with a segment is killed, and else the trap
is a completion trap with a record of severity 3 (R139, R144, Table 6-3). -/
def State.loadPoison (s : State) (a : Access) (x : Nat) (c : Ctx) (cls : Nat) (va : Word) : State :=
  if c.seg.isSome && !c.gone then
    if c.r.sup then s.machineCheck x va cls
    else s.asCtx x fun u => (u.rewind cls va).withCtx fun k => { k with phase := if k.phase = .left then .left else .normal }
  else (s.report (twrOf (x / 4)) cls 3 (x / 4) (x % 4) false 0 va 0#64 0#64).accessFault a cPOISON va

/-- A load in flight meets a line that fails its CRC: INTEG, but a strand at supervisor level with a segment is killed; the record has class 15
and the difference of the CRCs (R137, R140, R144, log 48). -/
def State.loadBadCrc (s : State) (a : Access) (x : Nat) (c : Ctx) (va synd : Word) : State :=
  if c.seg.isSome && !c.gone && c.r.sup then s.machineCheck x va 15 synd
  else (s.report (twrOf (x / 4)) 15 3 (x / 4) (x % 4) c.seg.isSome 0 va synd 0#64).accessFault a cINTEG va

/-- A unit of a strand's remote load performs; with its last unit the load lands (R46, R47, R109, R117, R137, R139, R242): BUSY and page
requests hold it, and so does a field row under refetch (R134); a fault is a completion trap. A CSR load lands the word it read at issue
(R53, log 4). -/
def State.performLoad (s : State) (a : Access) (k : Nat) : State :=
  match s.findCtx (Ctx.hasAccess a.id) with
  | none => s
  | some (x, _, c) =>
    match decodeByte a.core (a.addrs.headD 0#64).toNat with
    | some (.csr, _) => s.finishLoad a x c.gone (resultOf a.i a.data 0#1024 0#1024 a.gm 0#64)
    | _ =>
      let src := strandOn a.core c.r.tag
      match s.pageFault a .read with
      | some f => (s.kept f.2.2).accessFault a f.1 f.2.1
      | none =>
        match s.resolveParts a .read (unitParts a k) with
        | .error e => s.accessStop a e
        | .ok (rs, t) =>
          let ps := rs.flatMap (·.2)
          if t.piecesWait src a.core false ps || t.piecesRefetch ps then t
          else
            let u := t.noteLinks a.core ps
            let v := match c.seg with
              | some g => u.withHeld src a g.held
              | none => u
            let l := (ps.headD (0, 0, true)).1
            if v.piecesBusy ps then u.accessFault a cFBUSY (v.firstLeft a .read v.piecesBusy)
            else if v.piecesPoisoned ps then u.loadPoison a x c (classOf l) (v.firstLeft a .read v.piecesPoisoned)
            else if v.piecesBad ps then u.loadBadCrc a x c (v.firstLeft a .read v.piecesBad) (v.crcSynd l)
            else
              let g := u.gatherParts a.core rs
              let got := a.got + (v.gatherParts a.core rs).2
              if a.left == [k] then
                g.1.finishLoad a x c.gone (resultOf a.i (loadOperand a (got + a.pre.toNat)) 0#1024 0#1024 a.gm 0#64)
              else g.1.mapCtx (Ctx.hasAccess a.id) fun d => d.onAccess a.id fun b => { b with left := b.left.erase k, got := got }

/-! ## Issue of loads and stores (R281, R282, R322) -/

/-- The state with a fresh identity taken. -/
def State.fresh (s : State) : Nat × State := (s.uid + 1, { s with uid := s.uid + 1 })

/-- At most 28 remote accesses of a context are outstanding; a bundle that would exceed them waits (R198). -/
def State.flightFull (s : State) : Bool := decide (28 ≤ s.ctx.outstanding)

/-- The guard mask of an instruction as it reads it: all 32 bits of its predicate (R196, R246). -/
def State.guardMask (s : State) (i : Instr) : BitVec 32 := (i.guard.map s.pr).getD 0xffffffff#32

/-- A remote access issued: held in an open segment when it stores at user level, else in flight (R114, R127, R144). -/
def State.sendAccess (s : State) (p : Pos) (i : Instr) (addrs : List Word) (data pre : Vec) (gm : BitVec 32) :
    State :=
  let q := s.fresh
  let a : Access := { id := q.1, bc := s.ctx.r.bc, pos := p, i := i, core := s.here, sup := s.ctx.r.sup, gm := gm,
                      addrs := addrs, data := data, pre := pre }
  if s.inSeg && !isLoadInstr i then
    (if 256 < s.heldCount + heldParts a then s.overflowSeg p
     else q.2.withCtx fun c => { c with seg := c.seg.map fun g => { g with held := g.held ++ [.access a] } })
  else if s.flightFull then s.freeze
  else q.2.launch s.me a

/-- A scalar load at issue (R281): issue traps, the scoreboard's freeze, a local read landing at 4 bundles, or a remote load. -/
def State.scalarLoad (s : State) (i : Instr) (ea : Word) : State :=
  let n := accessWidth i
  match s.target .scalar ea n with
  | .trap c => s.trapAt .s c ea (finfo 0 n)
  | .here l =>
    if s.conflicts s.here l n false then s.freeze
    else if s.poisonedAt l n then s.consume .s (classOf l) ea (finfo 0 n)
    else
      let v := extendLoad i (s.natAt l n)
      s.land 4 .s i (resultOf i v 0#1024 0#1024 (s.pr 0#4) 0#64) v 0#1024 0#1024 (s.guardMask i) 0#64
  | .remote _ _ => s.sendAccess .s i [ea] 0#1024 0#1024 (s.guardMask i)

/-- A scalar store at issue (R281). -/
def State.scalarStore (s : State) (i : Instr) (ea : Word) (data : Vec) : State :=
  let n := accessWidth i
  match s.target .scalar ea n with
  | .trap c => s.trapAt .s c ea (finfo 1 n)
  | .here l =>
    if s.conflicts s.here l n true then s.freeze
    else match s.localWrite s.here s.me l s.ctx.seg none (natToBytes n data.toNat) with
      | none => s.overflowSeg .s
      | some t => t
  | .remote _ _ => s.sendAccess .s i [ea] data 0#1024 (s.guardMask i)

/-! ## Vector accesses (R322 to R325) -/

/-- The first guarded lane whose checks fail, with its cause and address (R323). -/
def State.laneTrap (s : State) (n : Nat) : List (Nat × Word) → Option (BitVec 8 × Word)
  | [] => none
  | (_, ea) :: t =>
    match s.target .vector ea n with
    | .trap c => some (c, ea)
    | _ => s.laneTrap n t

/-- The local lanes with their locations. -/
def State.localLanes (s : State) (n : Nat) (ls : List (Nat × Word)) : List (Nat × Nat) :=
  ls.filterMap fun q => match s.target .vector q.2 n with
    | .here l => some (q.1, l)
    | _ => none

/-- The window of a lane, if it lies in one. -/
def State.laneWindow (s : State) (n : Nat) (q : Nat × Word) : Option (Win × Nat) :=
  (decodeRange s.here q.2.toNat n).map fun d => (d.1, winPart d.1 d.2)

/-- The lanes of one VLD or VST lie in one window (R323). -/
def State.oneWindow (s : State) (n : Nat) (ls : List (Nat × Word)) : Bool :=
  let ws := ls.map (s.laneWindow n)
  ws.all fun w => w == ws.headD none

/-- The lowest guarded lane that fails, with its cause and address: a lane of a VLD, VST or VLDB in another window than the first is BOUND
(R35, R323). A misaligned access has ALIGN of its lowest lane, also where a later lane lies in another window (DESIGN CHOICE, log 72). -/
def State.laneFault (s : State) (whole : Bool) (n : Nat) (ls : List (Nat × Word)) : Option (BitVec 8 × Word) :=
  if !whole || s.oneWindow n ls then s.laneTrap n ls
  else
    let same := ls.takeWhile fun q => s.laneWindow n q == (ls.map (s.laneWindow n)).headD none
    (s.laneTrap n same).or ((ls.drop same.length).head?.map fun q => (cBOUND, q.2))

/-- Local lanes read at issue, each at its byte offset. -/
def State.readLanes (s : State) (n : Nat) (ls : List (Nat × Nat)) : Nat :=
  ls.foldl (fun acc q => acc + s.natAt q.2 n * 2 ^ (32 * q.1)) 0

/-- A vector load at issue: lanes are the guarded lanes with their addresses, addrs the captured form; whole asks for one
window. A load whose lanes are all local lands at 5 bundles (R322 to R324). -/
def State.vectorLoad (s : State) (i : Instr) (gm : BitVec 32) (addrs : List Word) (lanes : List (Nat × Word)) (whole : Bool)
    (vd : Vec) : State :=
  let n := accessWidth i
  let w := if n = 128 then 4 else n
  match s.laneFault whole w lanes with
    | some (c, ea) => s.trapAt .v c ea (finfo 0 n)
    | none =>
      let loc := s.localLanes w lanes
      if loc.any (fun q => s.conflicts s.here q.2 w false) then s.freeze
      else match loc.find? fun q => s.poisonedAt q.2 w with
        | some q => s.consume .v (classOf q.2) ((lanes.find? fun r => r.1 == q.1).map (·.2) |>.getD 0#64) (finfo 0 n)
        | none =>
          let a : Access := { id := 0, bc := 0#64, pos := .v, i := i, core := s.here, sup := s.ctx.r.sup, gm := gm,
                              addrs := addrs, data := vd }
          if loc.length = lanes.length then
            let v := loadOperand a (s.readLanes w loc)
            s.land 5 .v i (resultOf i v 0#1024 0#1024 gm 0#64) v 0#1024 0#1024 gm 0#64
          else s.sendAccess .v i addrs vd (BitVec.ofNat 1024 (s.readLanes w loc)) gm

/-- Local lanes of a store written in lane order, each granule that the lanes replace whole as one (R138); all holds every lane's
location; nothing when the undo buffer is full. -/
def State.writeLanes (s : State) (data : Vec) (all : List Nat) : List (Nat × Nat) → Option State
  | [] => some s
  | (i, l) :: t =>
    let g := l / 8
    let cov := if all.any (· == 8 * g) && all.any (· == 8 * g + 4) then some (!t.any fun q => q.2 / 8 == g) else none
    match s.localWrite s.here s.me l s.ctx.seg cov (partBytes data (4 * i) 4) with
    | none => none
    | some u => u.writeLanes data all t

/-- A vector store at issue: local lanes perform now, the others enter the store queue (R113, R322 to R325). -/
def State.vectorStore (s : State) (i : Instr) (gm : BitVec 32) (addrs : List Word) (lanes : List (Nat × Word)) (whole : Bool)
    (data : Vec) : State :=
  let n := accessWidth i
  match s.laneFault whole 4 lanes with
    | some (c, ea) => s.trapAt .v c ea (finfo 1 n)
    | none =>
      let loc := s.localLanes 4 lanes
      if loc.any (fun q => s.conflicts s.here q.2 4 true) then s.freeze
      else if loc.length = lanes.length then
        match s.writeLanes data (loc.map (·.2)) loc with
        | none => s.overflowSeg .v
        | some t => t
      else
        let t := s.sendAccess .v i addrs data 0#1024 gm
        if t.ctx.phase = .normal then
          (match t.writeLanes data (loc.map (·.2)) loc with
            | none => s.overflowSeg .v
            | some u => u)
        else t

end Sys2Proof.Machine
end

