-- ==== Sys2Proof/Machine/Sync.lean ====
section
/-! DEFINITION. Atomics, reductions and the ALQ (R119 to R121, R284 to R288), DRAIN (R116, R289), WAITA (R290, R291), PFT (R283),
barriers (R294) and bank ownership (R296): operations and meanings. -/

namespace Sys2Proof.Machine

/-! ## The ALQ (R120, R199, R285) -/

/-- The ALQ of the current strand is full (R120). -/
def State.alqFull (s : State) : Bool := decide (16 ≤ s.ctx.r.alq.length)

/-- The next ALQ entry reserved for an operation with its captured operands; its identity and ring slot (R120, R199). -/
def State.reserve (s : State) (p : Pos) (i : Instr) (a b c : Word) (stg : List Word) : Nat × BitVec 4 × State :=
  let q := s.fresh
  let r := q.2.ctx.r
  let e : AlqEntry := { id := q.1, pos := p, i := i, opa := a, opb := b, opc := c, stg := stg }
  (q.1, r.alqh + BitVec.ofNat 4 r.alq.length, q.2.withRegs fun r => { r with alq := r.alq ++ [e] })

/-- The ALQ entry in a ring slot changed (R199). -/
def Regs.onSlot (r : Regs) (slot : BitVec 4) (f : AlqEntry → AlqEntry) : Regs :=
  { r with alq := r.alq.modify (slot - r.alqh).toNat f }

/-- The arrival of a value for the entry that an operation reserved: flag 1 marks it poisoned, 2 a failed CRC (R120, R138). -/
def State.answer (s : State) (x : Nat) (slot : BitVec 4) (id : Nat) (v : Word) (flag : Nat) : State :=
  s.queue { i := .alqValueArrival, x := x, y := slot.toNat, z := flag, v := v, w := BitVec.ofNat 64 id }

/-- The arrival of a fault for the entry that an operation reserved (R191, R199). -/
def State.answerFault (s : State) (x : Nat) (slot : BitVec 4) (id : Nat) (cause : BitVec 8) (va : Word) : State :=
  s.queue { i := .alqFaultCapture, x := x, y := slot.toNat, z := cause.toNat, v := va, w := BitVec.ofNat 64 id }

/-- The capture record of an entry (Table 8-14). -/
def captureWords (e : AlqEntry) (cause : BitVec 8) (va : Word) : List Word :=
  [insWord e.pos e.i, e.opa, e.opb, e.opc] ++ fitWords 6 e.stg ++ [cause.setWidth 64, va, 0#64, 0#64, 0#64, 0#64]

/-- The next bundle waits for a drain of a scope, which names what was issued and queued before it (R108, R116, R129). -/
def Ctx.drain (c : Ctx) (d : BitVec 3) (sc id : Nat) : Ctx :=
  if d = 0#3 then c else { c with drn := c.drn ||| d, drnScope := max c.drnScope sc, drnId := id }

/-- An entry as the arrival of its value leaves it. -/
def AlqEntry.filled (e : AlqEntry) (v : Word) (flag : Nat) : AlqEntry :=
  { e with valid := true, value := v, poisoned := flag != 0, crc := flag == 2 }

/-- A value enters its reserved entry, in the context or in the strand's image (R120, R203). A CHDEQ value performs the DRAIN.L
of Table 5-4 (R300). -/
def State.valueArrives (s : State) (id : Nat) (slot : BitVec 4) (v : Word) (flag : Nat) : State :=
  let mine := Ctx.hasEntry id
  match s.findCtx mine with
  | none => s
  | some (x, _, c) =>
    let chdeq := match (c.r.alq.getD (slot - c.r.alqh).toNat {}).i with
      | .chdeq _ _ _ => true
      | _ => false
    s.withRegsOf mine (fun r => r.onSlot slot fun e => e.filled v flag) fun t =>
      let u := t.mapCtx mine fun k => { ((k.wake (s.cycAt x)).drain (if chdeq then 2#3 else 0#3) 4 s.uid) with
        seg := k.seg.map fun g => { g with img := g.img.onSlot slot fun e => if e.valid then e else e.filled v flag } }
      if chdeq then u.applyInval (x / 4) else u

/-- The entries that a fault marks: both of an SQPOS, else the one (R380). -/
def faultSlots (i : Instr) (slot : BitVec 4) : List (BitVec 4) :=
  match i with
  | .sqpos _ _ _ _ _ _ => [slot, slot + 1#4]
  | _ => [slot]

/-- A fault's capture records are written, and then its entries are marked, in the context or in the strand's image (R191, R199, R203, R380); for a
strand that has exited it is a notice (R270). A store of a record that fails kills the strand (R445). -/
def State.faultArrives (s : State) (id : Nat) (slot : BitVec 4) (cause : BitVec 8) (va : Word) : State :=
  let mine := Ctx.hasEntry id
  match s.findCtx mine with
  | none => s
  | some (x, _, c) =>
    let entry := fun (k : BitVec 4) => c.r.alq.getD (k - c.r.alqh).toNat {}
    let slots := faultSlots (entry slot).i slot
    let mark := fun (f : AlqEntry → AlqEntry) (r : Regs) => slots.foldl (fun (r : Regs) k => r.onSlot k f) r
    if c.gone then
      (s.mapCtx mine fun k => { k with r := mark (fun e => { e with valid := true }) k.r }).notice (twrOf (x / 4)) cause x
        c.r.stage c.r.tfb c.r.pc va
    else
      s.orKill mine (twrOf (x / 4)) (do
        let t ← slots.foldlM (fun (t : State) k =>
          t.putWordsVA (.core (x / 4)) (x / 4) (captureAt c.r.tfb k) (captureWords (entry k) cause va)) s
        let u ← t.onRegsOf mine (mark fun e => { e with valid := true, faulted := true })
        return u.mapCtx mine fun k => k.wake (s.cycAt x))

/-! ## Atomics and reductions (R284 to R288) -/

/-- A value-returning atomic put in flight with its reserved entry; its ring slot stands in gm. -/
def State.sendAtomic (s : State) (i : Instr) (ea x y : Word) : State :=
  let q := s.reserve .s i x y 0#64 []
  let f : Access := { id := q.1, bc := s.ctx.r.bc, pos := .s, i := i, core := s.here, sup := s.ctx.r.sup,
                      gm := q.2.1.setWidth 32, addrs := [ea], data := opd x ||| (y.setWidth 1024 <<< 64) }
  q.2.2.launch q.2.2.me f

/-- A value-returning atomic at issue: its checks, room in the ALQ, the close of an open segment, then the reservation (R285,
R286, R144). -/
def State.atomic (s : State) (i : Instr) (a b d : BitVec 6) : State :=
  let n := accessWidth i
  let ea := s.sr a
  match s.target .atomic ea n with
  | .trap c => s.trapAt .s c ea (finfo 2 n)
  | .here _ => s.trapAt .s cPROT ea (finfo 2 n)
  | .remote _ _ => if s.alqFull then s.block else afterClose s fun t => t.sendAtomic i ea (t.sr b) (t.sr d)

/-- A reduction at issue: its checks, then a store of its operand (R121, R286). -/
def State.reduce (s : State) (i : Instr) (a b : BitVec 6) : State :=
  let n := accessWidth i
  let ea := s.sr a
  match s.target .atomic ea n with
  | .trap c => s.trapAt .s c ea (finfo 2 n)
  | .here _ => s.trapAt .s cPROT ea (finfo 2 n)
  | .remote _ _ => s.sendAccess .s i [ea] (opd (s.sr b)) 0#1024 (s.guardMask i)

/-- The pieces lie in lines of HBM4 that the L1 may hold (R119). -/
def inL1 (ps : List Piece) : Bool := ps.all fun p => !p.2.2 && isHbm p.1

/-- The CRC difference of the first of some pieces that fails (R140). -/
def State.badSynd (s : State) (ps : List Piece) : Word := ((ps.find? fun p => s.badCrcAt p.1 p.2.1).map fun p => s.crcSynd p.1).getD 0#64

/-- An atomic performs once: its entry gets the old value, or the fault that stopped it; where the line fails its CRC, the entry holds the difference for
the record of the POPQ (R119, R120, R137, R138, R140, R286, log 48). -/
def State.performAtomic (s : State) (a : Access) : State :=
  let mine := Ctx.hasAccess a.id
  let q := match s.findCtx mine with
    | some (x, _, c) => (x, c.gone, c.r.tag)
    | none => (0, true, 0#8)
  let x := q.1
  let src := strandOn a.core q.2.2
  let slot := a.gm.setWidth 4
  let gone := fun (t : State) => t.mapCtx mine fun c => c.dropAccess a.id
  match s.resolveParts a .write (remoteParts a) with
  | .error (.fault c va _ u) => (gone (s.kept u)).answerFault x slot a.id c va
  | .error (.wait u) => s.kept u
  | .error (.ask va u) =>
    if s.ev.asks == pageMark (twrOf a.core) va 2 then (gone (s.kept u)).answerFault x slot a.id cPAGE va
    else ((s.kept u).markSleep a.id).sleepOn (twrOf a.core) va id
  | .ok (rs, t) =>
    let ps := rs.flatMap (·.2)
    if t.piecesWait src a.core true ps then t
    else
      let s1 := t.noteLinks a.core ps
      let flag := if s1.piecesPoisoned ps then 1 else if s1.piecesBad ps then 2 else 0
      let m := s1.modify src a ps
      let s2 := (gone m.1).mapCtx (Ctx.hasEntry a.id) fun c =>
        { c with r := c.r.onSlot slot fun e => { e with own := inL1 ps } }
      if q.2.1 && flag != 0 then s2.answerFault x slot a.id (if flag = 1 then cPOISON else cINTEG) a.addr
      else s2.answer x slot a.id (if flag = 2 then s1.badSynd ps else BitVec.ofNat 64 m.2) flag

/-- AADD (R284). -/
def execAadd (g : BitVec 4) (a b : BitVec 6) (w : BitVec 1) (s : State) : Out :=
  whenOn g s fun t => t.atomic (.aadd g a b w) a b 0#6
/-- AMIN (R284). -/
def execAmin (g : BitVec 4) (a b : BitVec 6) (w : BitVec 1) (s : State) : Out :=
  whenOn g s fun t => t.atomic (.amin g a b w) a b 0#6
/-- AMAX (R284). -/
def execAmax (g : BitVec 4) (a b : BitVec 6) (w : BitVec 1) (s : State) : Out :=
  whenOn g s fun t => t.atomic (.amax g a b w) a b 0#6
/-- AMINU (R284). -/
def execAminu (g : BitVec 4) (a b : BitVec 6) (w : BitVec 1) (s : State) : Out :=
  whenOn g s fun t => t.atomic (.aminu g a b w) a b 0#6
/-- AMAXU (R284). -/
def execAmaxu (g : BitVec 4) (a b : BitVec 6) (w : BitVec 1) (s : State) : Out :=
  whenOn g s fun t => t.atomic (.amaxu g a b w) a b 0#6
/-- AAND (R284). -/
def execAand (g : BitVec 4) (a b : BitVec 6) (w : BitVec 1) (s : State) : Out :=
  whenOn g s fun t => t.atomic (.aand g a b w) a b 0#6
/-- AOR (R284). -/
def execAor (g : BitVec 4) (a b : BitVec 6) (w : BitVec 1) (s : State) : Out :=
  whenOn g s fun t => t.atomic (.aor g a b w) a b 0#6
/-- AXOR (R284). -/
def execAxor (g : BitVec 4) (a b : BitVec 6) (w : BitVec 1) (s : State) : Out :=
  whenOn g s fun t => t.atomic (.axor g a b w) a b 0#6
/-- AXCHG (R284). -/
def execAxchg (g : BitVec 4) (a b : BitVec 6) (w : BitVec 1) (s : State) : Out :=
  whenOn g s fun t => t.atomic (.axchg g a b w) a b 0#6
/-- ACAS: d names the new value (R284). -/
def execAcas (g : BitVec 4) (d a b : BitVec 6) (w : BitVec 1) (s : State) : Out :=
  whenOn g s fun t => t.atomic (.acas g d a b w) a b d
/-- RADD (R284). -/
def execRadd (g : BitVec 4) (a b : BitVec 6) (w : BitVec 1) (s : State) : Out :=
  whenOn g s fun t => t.reduce (.radd g a b w) a b
/-- RMIN (R284). -/
def execRmin (g : BitVec 4) (a b : BitVec 6) (u w : BitVec 1) (s : State) : Out :=
  whenOn g s fun t => t.reduce (.rmin g a b u w) a b
/-- RMAX (R284). -/
def execRmax (g : BitVec 4) (a b : BitVec 6) (u w : BitVec 1) (s : State) : Out :=
  whenOn g s fun t => t.reduce (.rmax g a b u w) a b
/-- RAND (R284). -/
def execRand (g : BitVec 4) (a b : BitVec 6) (w : BitVec 1) (s : State) : Out :=
  whenOn g s fun t => t.reduce (.rand g a b w) a b
/-- ROR (R284). -/
def execRor (g : BitVec 4) (a b : BitVec 6) (w : BitVec 1) (s : State) : Out :=
  whenOn g s fun t => t.reduce (.ror g a b w) a b
/-- RXOR (R284). -/
def execRxor (g : BitVec 4) (a b : BitVec 6) (w : BitVec 1) (s : State) : Out :=
  whenOn g s fun t => t.reduce (.rxor g a b w) a b
/-- RFADD (R288). -/
def execRfadd (g : BitVec 4) (a b : BitVec 6) (s : State) : Out :=
  whenOn g s fun t => t.reduce (.rfadd g a b) a b

/-! ## POPQ (R120, R287) -/

/-- The producer is an atomic that performs, or has performed, in the core's own L1: on a line of a cacheable page of local HBM4 (R119,
R120). -/
def State.ownAtomic (s : State) (e : AlqEntry) : Bool :=
  e.own || (match s.ctx.flight.find? fun a => a.id == e.id with
    | none => false
    | some a =>
      match decodeByte a.core (a.addrs.headD 0#64).toNat with
      | some (.paged, v) =>
        (match (translate s (.core a.core) v a.sup .write).2 with
          | .ok l nc => !nc && isHbm l
          | _ => false)
      | _ => false)

/-- FINFO of the trap of an ALQ entry: that of an atomic by its width; the record of an SQ or RPR instruction names no access (R195,
log 32). -/
def alqInfo (i : Instr) : Word := if isAtomicInstr i then finfo 2 (accessWidth i) else 0#64

/-- The producer is an SQLEN, whose POPQ is acquiring (Table 5-4). -/
def isSqlen : Instr → Bool
  | .sqlen _ _ => true
  | _ => false

/-- The access was issued before the bundle being tried. -/
def Ctx.earlier (c : Ctx) (id : Nat) : Bool := decide (id ≤ c.stepId)

/-- The core has applied every invalidation it accepted, where the drain orders loads (R110). -/
def State.acquire (s : State) (d : BitVec 3) : State := if d.getLsbD 1 then s.applyInval s.here else s

/-- The next bundle waits for accesses of this one too (R116). -/
def State.drainNext (s : State) (d : BitVec 3) (sc : Nat) : State := s.withCtx fun c => c.drain d sc s.uid

/-- The implicit drain of a synchronising instruction: issue is frozen until what earlier bundles issued has performed; then f, whose effect on
others waits for the accesses of its own bundle too, as the next bundle does (R116, R126). -/
def State.afterDrain (s : State) (d : BitVec 3) (sc : Nat) (f : State → State) : State :=
  if s.drainedOf (fun a => s.ctx.earlier a.id) (d &&& 3#3) sc then f ((s.acquire d).drainNext d sc) else s.freeze

/-- POPQ (R287): an empty ALQ reads 0; a value not arrived freezes or switches (R120); a faulted entry is the ALQ-delivered trap
of its producer; a poisoned one is consumed (R139); else the oldest entry leaves the queue, that of an SQLEN with a DRAIN.L.mod
before the next bundle (Table 5-4, R385). -/
def State.popq (s : State) (i : Instr) (d : BitVec 6) : State :=
  match s.ctx.r.alq with
  | [] => s.ret1 .s i [.s d 0#64]
  | e :: t =>
    if !e.valid then (if s.ownAtomic e then s.freeze else (s.meetCore 0x33 s.here).block)
    else if e.faulted then issueTrap { kind := .alq, cause := 0#8, slot := 1#2, finfo := alqInfo e.i } s
    else if e.crc then s.failCrc .s 0#64 (alqInfo e.i) e.value
    else if e.poisoned then s.consume .s 0 0#64 (alqInfo e.i)
    else
      let pop := fun (u : State) => (u.withRegs fun r => { r with alq := t, alqh := r.alqh + 1#4 }).ret1 .s i [.s d e.value]
      if isSqlen e.i then (pop s).drainNext 2#3 4 else pop s

/-- POPQ (R287). -/
def execPopq (g : BitVec 4) (d : BitVec 6) (s : State) : Out := whenOn g s fun t => t.popq (.popq g d) d

/-! ## DRAIN (R116, R127, R289) -/

/-- The drain of a DRAIN's flavour and scope. -/
def drainBits (sc : BitVec 3) (fl : BitVec 2) : BitVec 3 :=
  (fl.setWidth 3) ||| (if sc = 5#3 && fl.getLsbD 1 then 4#3 else 0#3)

/-- A DRAIN.S or DRAIN.A closes the batch of held stores of an open segment after its own bundle, whose accesses count as earlier (R116,
R127). -/
def State.mark (s : State) (fl : BitVec 2) : State :=
  if fl.getLsbD 0 then s.withCtx fun c => { c with markDue := c.seg.isSome } else s

/-- DRAIN: its bundle issues, whose accesses count as earlier, and the next one waits (R116, R289). -/
def execDrain (g : BitVec 4) (sc : BitVec 3) (fl : BitVec 2) (s : State) : Out :=
  whenOn g s fun t => (t.drainNext (drainBits sc fl) sc.toNat).mark fl

/-! ## WAITA (R125, R290, R291) -/

/-- The monitor armed on a location and the strand blocked; a timed read is due 4,096 cycles on (R291). -/
def State.watch (s : State) (m : Monitor) : State :=
  let s1 := (s.withCtx fun c => { c with mon := some m }).block
  if s.agenda.any fun (e : Ev) => e.i == Instr.monitorTimeoutRead && e.x == s.me then s1
  else s1.queue { i := .monitorTimeoutRead, x := s.me, w := s.cycAt s.me + 4096#64 }

/-- A value read for WAITA: the bundle issues when the condition holds, else the strand waits. -/
def State.waitOn (s : State) (loc n : Nat) (c : BitVec 2) (x : Word) (v : Nat) : State :=
  if waitHolds c (BitVec.ofNat 64 v) (BitVec.ofNat 64 (x.toNat % 2 ^ (8 * n))) then s.withCtx fun k => { k with mon := none }
  else s.watch ⟨loc, n, c, x⟩

/-- A completion trap taken without issuing the bundle (R291). -/
def State.trapUnissued (s : State) (cause : BitVec 8) (va info : Word) : State :=
  (takeTrap { kind := .completion, cause := cause, slot := 1#2, faddr := va, finfo := info } s).withCtx fun c =>
    { c with phase := if c.phase = .entering then .entering else .issueTrap, mon := none }

/-- The same with a record of severity 3, written once the trap is taken (Table 6-3). -/
def State.loggedUnissued (s : State) (cls : Nat) (cause : BitVec 8) (va info synd : Word) : State :=
  let u := s.trapUnissued cause va info
  if u.ctx.phase = .entering then u else (s.reportHere cls 3 va synd 0#64).trapUnissued cause va info

/-- The location read as a load of the strand, after its earlier bundles' accesses to the line (R114, R127, R291). What holds a load freezes
issue; a page request lets the core switch (R93, R98, R102). -/
def State.waita (s : State) (ea x : Word) (n : Nat) (c : BitVec 2) : State :=
  let a : Access := { id := 0, bc := s.ctx.r.bc, pos := .s, i := .nop, core := s.here, sup := s.ctx.r.sup, gm := 0#32, addrs := [ea] }
  match s.target .wait ea n with
  | .trap cause => s.trapAt .s cause ea (finfo 0 n)
  | .here l =>
    if s.conflicts s.here l n false then s.freeze
    else if s.poisonedAt l n then s.consume .s (classOf l) ea (finfo 0 n)
    else s.waitOn l n c x (s.natAt l n)
  | .remote _ _ =>
    if s.ctx.flight.any fun b => b.bc != a.bc && s.sharesLine b a [(ea, 0, n)] then s.freeze
    else match s.resolveParts a .read [(ea, 0, n)] with
      | .error (.fault cause va _ u) => (s.kept u).trapUnissued cause va (finfo 0 n)
      | .error (.wait u) => (s.kept u).freeze
      | .error (.ask va u) => (s.kept u).sleepHere va (fun k => k.trapUnissued cPAGE va (finfo 0 n)) State.block
      | .ok (rs, t) =>
        let ps := rs.flatMap (·.2)
        let l := (ps.headD (0, 0, true)).1
        let v := match t.ctx.seg with
          | some g => t.withHeld s.strand a g.held
          | none => t
        if t.piecesWait s.strand s.here false ps then t.freeze
        else if v.piecesPoisoned ps then
          (if t.ctx.seg.isSome then t.localError (classOf l) ea else t.loggedUnissued (classOf l) cPOISON ea (finfo 0 n) 0#64)
        else if v.piecesBad ps then
          (if t.ctx.seg.isSome && t.ctx.r.sup then t.localError 15 ea
           else t.loggedUnissued 15 cINTEG ea (finfo 0 n) (v.crcSynd l))
        else (t.readPieces t.here ps).1.waitOn l n c x (bytesToNat (v.readPieces t.here ps).2)

/-- WAITA (R290). -/
def execWaita (g : BitVec 4) (a b : BitVec 6) (w : BitVec 1) (c : BitVec 2) (s : State) : Out :=
  whenOn g s fun t => t.waita (t.sr a) (t.sr b) (if w = 1#1 then 4 else 8) c

/-! ## PFT (R283) -/

/-- The line of a paged address brought near, where its page allows a load; nothing else changes (R283). -/
def State.prefetch (s : State) (h : Nat) (ea : Word) : State :=
  match decodeByte s.here ea.toNat with
  | some (.paged, a) =>
    (match translate s (.core s.here) a s.ctx.r.sup .read with
      | (t, .ok l nc) =>
        if nc || t.poisonedAt l 1 || t.waitsAt l 1 then t
        else match h with
          | 0 => t.cacheRead t.here l
          | 1 => t.takeExclusive t.here (lineOf l)
          | _ => t.readL2 (twrOf t.here) (lineOf l)
      | (t, _) => t)
  | _ => s

/-- PFT (R283). -/
def execPft (g : BitVec 4) (h : BitVec 5) (a : BitVec 6) (imm : BitVec 15) (s : State) : Out :=
  whenOn g s fun t => t.prefetch h.toNat (addImm (t.sr a) imm)

/-! ## Barriers (R293 to R295) -/

/-- Window offset of the counter that an operand names for core G (R295). -/
def counterAt (G : Nat) (twr : Bool) (k : Nat) : Nat :=
  if twr then tb (twrOf G) (0x7000 + 8 * k) else tb (twrOf G) (0x6000 + 0x200 * (cluOf G % 8) + 8 * k)

/-- An arrival sent to a counter and recorded in the context (R294). -/
def State.arrive (s : State) (twr : BitVec 1) (k : BitVec 6) : State :=
  let q := s.fresh
  (q.2.withRegs fun r => { r with barw := { id := q.1, recorded := true, twr := twr == 1#1, idx := k.setWidth 8 } }).queue
    { i := .barrierArrival, x := s.me, y := counterAt s.here (twr == 1#1) k.toNat, z := q.1, w := s.ctx.r.bc }

/-- The recorded arrival is for the counter named, and its round has not completed (R294). -/
def State.roundOpen (s : State) (twr : BitVec 1) (k : BitVec 6) : Bool :=
  let b := s.ctx.r.barw
  let w := s.reg (counterAt s.here (twr == 1#1) k.toNat)
  b.recorded && b.twr == (twr == 1#1) && b.idx == k.setWidth 8 &&
    (!b.known || (bits w 63 56 == b.phase.toNat && bits w 44 32 != 0))

/-- The record names the counter of the operand. -/
def State.recordNames (s : State) (twr : BitVec 1) (k : BitVec 6) : Bool :=
  let b := s.ctx.r.barw
  b.recorded && b.twr == (twr == 1#1) && b.idx == k.setWidth 8

/-- The wait for a round: the strand blocks until it has completed, then its record is cleared and f follows (R294). -/
def State.afterRound (s : State) (twr : BitVec 1) (k : BitVec 6) (f : State → State) : State :=
  if s.roundOpen twr k then (s.withRegs fun r => { r with barw := { r.barw with waiting := true } }).block
  else
    let s1 := if s.recordNames twr k then s.withRegs fun r => { r with barw := {} } else s
    f s1

/-- BARA: an irrevocable operation after its DRAIN.A (R144, R294). -/
def execBara (g : BitVec 4) (twr : BitVec 1) (k : BitVec 6) (s : State) : Out :=
  whenOn g s fun t => afterClose t fun u => u.afterDrain 3#3 (2 + twr.toNat) fun v => v.arrive twr k

/-- BARW: acquiring, with its DRAIN.L after the round (R294). -/
def execBarw (g : BitVec 4) (twr : BitVec 1) (k : BitVec 6) (s : State) : Out :=
  whenOn g s fun t => t.afterRound twr k fun u => (u.acquire 2#3).drainNext 2#3 (2 + twr.toNat)

/-! ## Bank ownership (R62 to R65, R296) -/

/-- The bank mask of BACQ and BREL (R296). -/
def bankMask (s : State) (a : BitVec 6) (p : BitVec 2) (m : BitVec 8) : BitVec 32 :=
  (s.sr a).setWidth 32 ||| (m.setWidth 32 <<< (8 * p.toNat))

/-- The current strand holds bank b. -/
def State.mine (s : State) (b : Nat) : Bool := s.bankHeld s.here b && s.bankTag s.here b == s.ctx.r.tag

/-- The bank is free and no engine operation of any strand lies in it (R64). -/
def State.bankReady (s : State) (G b : Nat) : Bool := !s.bankHeld G b && !s.bankBusy G b none

/-- The banks of the mask that can be acquired now, acquired (R64). -/
def State.acquireBanks (s : State) (m : BitVec 32) : State :=
  (List.range 32).foldl (fun (t : State) b =>
    if m.getLsbD b && t.bankReady t.here b then t.holdBank t.here b t.ctx.r.tag else t) s

/-- The banks of the mask that the strand does not hold. -/
def State.lacking (s : State) (m : BitVec 32) : BitVec 32 :=
  (List.range 32).foldl (fun (acc : BitVec 32) b => if m.getLsbD b && !s.mine b then acc ||| (1#32 <<< b) else acc) 0#32

/-- BACQ: free banks at once; the strand blocks while one is lacking; then acquiring (R64, R296). -/
def State.bacq (s : State) (m : BitVec 32) : State :=
  if m = 0#32 then s
  else
    let s1 := s.acquireBanks m
    let rest := s1.lacking m
    if rest = 0#32 then ((s1.withCtx fun c => { c with acq := 0#32 }).acquire 2#3).drainNext 2#3 1
    else if s.ctx.acq = rest then s1.block
    else
      let evs := ((List.range 32).filter fun b => rest.getLsbD b).map fun b =>
        ({ i := .bankAcquireEffect, x := s.me, y := b, z := s.ctx.r.tag.toNat } : Ev)
      ({ (s1.withCtx fun c => { c with acq := rest }) with
          agenda := (s1.agenda.filter fun (e : Ev) => !(e.i == Instr.bankAcquireEffect && e.x == s.me)) ++ evs }).block

/-- BACQ (R296). -/
def execBacq (g : BitVec 4) (a : BitVec 6) (p : BitVec 2) (m : BitVec 8) (s : State) : Out :=
  whenOn g s fun t => t.bacq (bankMask t a p m)

/-- BREL: every bank of the mask that the strand holds (R65, R296). -/
def State.brel (s : State) (m : BitVec 32) : State :=
  (List.range 32).foldl (fun (t : State) b => if m.getLsbD b && t.mine b then t.releaseBank t.here b t.ctx.r.tag else t) s

/-- BREL (R296). -/
def execBrel (g : BitVec 4) (a : BitVec 6) (p : BitVec 2) (m : BitVec 8) (s : State) : Out :=
  whenOn g s fun t => t.brel (bankMask t a p m)

end Sys2Proof.Machine
end

