-- ==== Sys2Proof/Machine/Control.lean ====
section
/-! DEFINITION. The X-class families (R254 to R272): branches, hardware loops, yields, segments and rendezvous, software traps,
EXIT, the scalar-lite adder, the header and NOP. -/

namespace Sys2Proof.Machine

/-! ## Branches (R255) -/

/-- PC + 16 * a signed bundle offset (R255). -/
def branchTarget (s : State) (off : BitVec 20) : Word := s.ctx.r.pc + (off.signExtend 64 <<< 4)

/-- The bundle transfers control to an address. -/
def State.goTo (s : State) (a : Word) : State := s.withCtx fun c => { c with npc := some a }

/-- BR (R255). -/
def execBr (g : BitVec 4) (off : BitVec 20) (s : State) : Out := whenOn g s fun t => t.goTo (branchTarget t off)
/-- BRL: the link is s31 (R255). -/
def execBrl (g : BitVec 4) (off : BitVec 20) (s : State) : Out :=
  whenOn g s fun t => (t.goTo (branchTarget t off)).retX (.brl g off) 31#5 (t.ctx.r.pc + 16#64)
/-- JR (R255). -/
def execJr (g : BitVec 4) (a : BitVec 5) (s : State) : Out := whenOn g s fun t => t.goTo (t.xr a)
/-- JRL (R255). -/
def execJrl (g : BitVec 4) (d a : BitVec 5) (s : State) : Out :=
  whenOn g s fun t => (t.goTo (t.xr a)).retX (.jrl g d a) d (t.ctx.r.pc + 16#64)

/-! ## Hardware loops (R257 to R262) -/

/-- Writes that MTL has pending to the registers of a level are replaced by a LOOP on it. -/
def Regs.dropLevel (r : Regs) (k : Nat) : Regs :=
  { r with pend := r.pend.filter fun q => !(q.ws.any fun w => match w with
      | .l i _ => i.toNat % 4 == k && decide (i.toNat < 12)
      | _ => false) }

/-- A loop start: level k with its count and end; a count of 0 goes past the end (R258). -/
def State.startLoop (s : State) (k : Nat) (cnt : BitVec 32) (e : Word) : State :=
  if cnt = 0#32 then (s.withRegs fun r => { r with lact := r.lact &&& ~~~(1#4 <<< k) }).goTo (e + 16#64)
  else
    let s2 := s.withRegs fun r =>
      { ((r.dropLevel k).puts [.l (BitVec.ofNat 4 k) (cnt.setWidth 64), .l (BitVec.ofNat 4 (4 + k)) (r.pc + 16#64),
                 .l (BitVec.ofNat 4 (8 + k)) e]) with lact := r.lact ||| (1#4 <<< k) }
    s2.withCtx fun c => { c with lset := c.lset ||| (1#4 <<< k) }

/-- The end of a LOOP: the written le for a distance of 0 (R258). -/
def loopEnd (s : State) (k : Nat) (dist : BitVec 10) : Word :=
  if dist = 0#10 then s.ctx.r.lreg (8 + k) else s.ctx.r.pc + (dist.setWidth 64 <<< 4)

/-- LOOP (R258). -/
def execLoop (g : BitVec 4) (lv : BitVec 2) (a : BitVec 5) (dist : BitVec 10) (s : State) : Out :=
  whenOn g s fun t => t.startLoop lv.toNat ((t.xr a).setWidth 32) (loopEnd t lv.toNat dist)
/-- LOOPI (R258). -/
def execLoopi (g : BitVec 4) (lv : BitVec 2) (n : BitVec 8) (dist : BitVec 7) (s : State) : Out :=
  whenOn g s fun t => t.startLoop lv.toNat (n.setWidth 32) (t.ctx.r.pc + (dist.setWidth 64 <<< 4))

/-- The levels from k up. -/
def levelsFrom (k : Nat) : BitVec 4 := 0xf#4 <<< k

/-- LBRK (R262). -/
def execLbrk (g : BitVec 4) (lv : BitVec 2) (s : State) : Out :=
  whenOn g s fun t =>
    if t.ctx.r.lact.getLsbD lv.toNat then
      (t.withRegs fun r => { r with lact := r.lact &&& ~~~(levelsFrom lv.toNat) }).goTo (t.ctx.r.lreg (8 + lv.toNat) + 16#64)
    else t

/-- The latency of MTL: 3 for ls and le of an active level, else 1 (R260, R261, log 14). -/
def mtlLatency (s : State) (k : BitVec 4) : Nat :=
  if 4 ≤ k.toNat ∧ s.ctx.r.lact.getLsbD (k.toNat % 4) then 3 else 1

/-- MTL (R260). -/
def execMtl (g : BitVec 4) (k : BitVec 4) (a : BitVec 5) (s : State) : Out :=
  whenOn g s fun t => t.land (mtlLatency t k) .x (.mtl g k a) [.l k (t.xr a)] 0#1024 0#1024 0#1024 0#32 0#64
/-- MFL (R260). -/
def execMfl (g : BitVec 4) (d : BitVec 5) (k : BitVec 4) (s : State) : Out :=
  whenOn g s fun t => t.retX (.mfl g d k) d (t.ctx.r.lreg k.toNat)

/-! ## Flow (R263 to R270) -/

/-- YIELD: a yield point after the bundle with a declared run of n; none at trap depth 1 (R264). The field holds n − 1. -/
def execYield (g : BitVec 4) (n : BitVec 16) (s : State) : Out :=
  whenOn g s fun t => if t.ctx.r.deep then t else t.withCtx fun c => { c with yreq := some (n.toNat + 1) }
/-- PAUSE: a yield point that keeps the remaining run (R265). -/
def execPause (g : BitVec 4) (s : State) : Out :=
  whenOn g s fun t => if t.ctx.r.deep then t else t.withCtx fun c => { c with yreq := some 0 }

/-- Every variable-latency result and ALQ value that the strand issued under an identity that counts has arrived (R143, log 16). -/
def State.settledOf (s : State) (counts : Nat → Bool) : Bool :=
  !(s.ctx.flight.any fun a => counts a.id && isLoadInstr a.i) && s.ctx.r.alq.all (fun e => e.valid || !counts e.id) &&
  !(s.core.nmuq.any fun q => counts q.id && s.ownOp q.x q.tag)

/-- Every variable-latency result and ALQ value of the strand has arrived (R143). -/
def State.settled (s : State) : Bool := s.settledOf fun _ => true

/-- The bundle ends here: its boundary has been made by the slot. -/
def State.finish (s : State) : State := (finishBundle s.ctx.r s).withCtx fun c => { c with phase := .done }

/-- A segment opens at the boundary: the image is the strand at its next bundle (R143, R266). -/
def State.openHere (s : State) (m : BitVec 32) (aflag : Bool) : State :=
  s.withCtx fun c => { c with
    seg := some { mask := m, aflag := aflag, rewinds := 0, img := c.r, held := [], halves := [] }
    segMask := m
    segA := aflag }

/-- The bundle issues and a segment opens after it (R143, R266). -/
def State.openSeg (s : State) (m : BitVec 32) (aflag : Bool) : State := s.finish.openHere m aflag

/-- More for the boundary after the bundle. -/
def State.later (s : State) (l : List Post) : State := s.withCtx fun c => { c with post := c.post ++ l }

/-- SEG at user level: it waits for what earlier bundles issued; where its own bundle issued more, the segment opens at the boundary once that
has landed (R143, R266, log 16). -/
def State.segment (s : State) (m : BitVec 32) (aflag : Bool) : State :=
  if s.ctx.r.sup then s
  else if s.lacking m ≠ 0#32 then s.trapAt .x cBANK 0#64 0#64
  else afterClose s fun t =>
    if t.settled then t.openSeg m aflag else if t.settledOf t.ctx.earlier then t.later [.segment m aflag] else t.freeze

/-- SEG (R266). -/
def execSeg (g : BitVec 4) (a : BitVec 5) (aflag : BitVec 1) (s : State) : Out :=
  whenOn g s fun t => t.segment ((t.xr a).setWidth 32) (aflag == 1#1)

/-- The arrival of RDV with its drain, after which the strand waits for the round at the boundary, and for what else follows (R267). -/
def State.rdvArrive (s : State) (twr : BitVec 1) (k : BitVec 6) (l : List Post) : State :=
  s.afterDrain 3#3 (2 + twr.toNat) fun t =>
    ((t.arrive twr k).withRegs fun r => { r with barw := { r.barw with waiting := true } }).later (.round twr k :: l)

/-- RDV: close and arrive; its bundle issues, and at the boundary come the wait and a new segment over the banks still held; at supervisor level
only the arrival and the wait (R146, R267, log 16). -/
def State.rdv (s : State) (twr : BitVec 1) (k : BitVec 6) : State :=
  if s.ctx.r.sup then s.rdvArrive twr k [] else afterClose s fun t => t.rdvArrive twr k [.reopen]

/-- The banks of the last SEG's mask that the strand still holds (R146). -/
def State.keptMask (s : State) : BitVec 32 := s.ctx.segMask &&& ~~~(s.lacking s.ctx.segMask)

/-- What bundles left for this boundary, in order: the state after it, and how issue waits if it does (R143, R146, Table 7-1). -/
def State.runPost (s : State) : List Post → State × Option Phase
  | [] => (s.withCtx fun c => { c with post := [] }, none)
  | .round twr k :: t =>
    if s.roundOpen twr k then ((s.withCtx fun c => { c with post := .round twr k :: t }), some .blocked)
    else
      let u := if s.recordNames twr k then s.withRegs fun r => { r with barw := {} } else s
      if u.drained 2#3 (2 + twr.toNat) then (u.acquire 2#3).runPost t
      else ((u.drainNext 2#3 (2 + twr.toNat)).withCtx fun c => { c with post := t }, some .frozen)
  | .reopen :: t =>
    if s.settled then (s.openHere s.keptMask s.ctx.segA).runPost t
    else (s.withCtx fun c => { c with post := .reopen :: t }, some .frozen)
  | .segment m a :: t =>
    if s.settled then (s.openHere m a).runPost t
    else (s.withCtx fun c => { c with post := .segment m a :: t }, some .frozen)

/-- RDV (R267). -/
def execRdv (g : BitVec 4) (twr : BitVec 1) (k : BitVec 6) (s : State) : Out := whenOn g s fun t => t.rdv twr k

/-- The software trap after the bundle: the traps due at its boundary are taken in the order of R192, so that a trap of higher
order leaves this one due; in a handler it is a double trap (R191, R192, R268). A quiet step's own trap waits for the joins of the bundle,
and this one behind it (R211). Beside an ASSAY it stays due until the assay's outcome is known, and is the first of the two (DESIGN CHOICE,
log 63). -/
def State.swtrap (s : State) (code : Nat) : State :=
  let t : Trap := { kind := .after, cause := cSWTRAP, finfo := BitVec.ofNat 64 (code * 256) }
  let s1 := s.finish.stepDue false
  if s1.ctx.r.deep then takeTrap t s1
  else
    let s2 := s1.withCtx fun c => { c with due := c.due ++ [t] }
    if (s.ctx.r.ssm && s.ctx.r.ssq && !s.ctx.r.sup) || !s.ctx.assays.isEmpty then s2
    else
      let u := s2.takeDue
      if u.ctx.phase = .entering then u.withCtx fun c => { c with phase := .done } else u

/-- TRAP (R268). -/
def execTrap (g : BitVec 4) (code : BitVec 8) (s : State) : Out := whenOn g s fun t => t.swtrap code.toNat
/-- TRAPB (R268). -/
def execTrapb (g : BitVec 4) (code : BitVec 5) (a : BitVec 5) (bound : BitVec 10) (s : State) : Out :=
  whenOn g s fun t => if bound.toNat ≤ (t.xr a).toNat then t.swtrap code.toNat else t

/-- EXIT: an open segment closes first; the bundle issues whole, no loop level decides in it, and the strand ends (R144, R259, R270). -/
def execExit (g : BitVec 4) (s : State) : Out :=
  whenOn g s fun t => afterClose t fun u => ((u.goTo (u.ctx.r.pc + 16#64)).finish).endStrand u.me

/-! ## Scalar-lite, header and NOP (R236, R271, R272) -/

/-- XADD (R271). -/
def execXadd (g : BitVec 4) (d a b : BitVec 5) (s : State) : Out :=
  whenOn g s fun t => t.retX (.xadd g d a b) d (t.xr a + t.xr b)
/-- XADDI (R271). -/
def execXaddi (g : BitVec 4) (d a : BitVec 5) (imm : BitVec 10) (s : State) : Out :=
  whenOn g s fun t => t.retX (.xaddi g d a imm) d (addImm (t.xr a) imm)
/-- XMOVI (R271). -/
def execXmovi (g : BitVec 4) (d : BitVec 5) (imm : BitVec 15) (s : State) : Out :=
  whenOn g s fun t => t.retX (.xmovi g d imm) d (imm.signExtend 64)
/-- XMOVHI (R271). -/
def execXmovhi (g : BitVec 4) (d : BitVec 5) (imm : BitVec 15) (s : State) : Out :=
  whenOn g s fun t => t.retX (.xmovhi g d imm) d (shiftIn (t.xr d) (imm.setWidth 64))
/-- HDR: no effect of its own; the decoder lends its bits (R237, R272). -/
def execHdr (_h : BitVec 24) (s : State) : Out := .next s
/-- NOP (R236). -/
def execNop (s : State) : Out := .next s

end Sys2Proof.Machine
end

