-- ==== Sys2Proof/Machine/Engine.lean ====
section
/-! DEFINITION. What every engine operation shares: its scoreboard entries (R124, R207), the bank check at issue (Table 3-2), the
quarantine of units (R151) and its writes into local memory (R113, R138, R144). -/

namespace Sys2Proof.Machine

/-- A local range of an operation: first and last-plus-one location, and whether it is written. -/
abbrev Rng := Nat × Nat × Bool

/-- A bank of the range is held by another strand (Table 3-2). -/
def State.rangeRefused (s : State) (r : Rng) : Bool :=
  decide (regionOf r.1 = 1) && s.bankRefuses s.here s.ctx.r.tag (banksOf r.1 (r.2.1 - r.1))

/-- The scoreboard has room for n more entries (R124). -/
def State.sbRoom (s : State) (n : Nat) : Bool := decide (s.core.sb.length + n ≤ 32)

/-- The local ranges of an operation of the current strand entered at issue; the identities of the entries (R124). -/
def State.enter (s : State) (op : Nat) : List Rng → List Nat × State
  | [] => ([], s)
  | r :: t =>
    let q := s.fresh
    let e : SbEntry := { id := q.1, lo := r.1, hi := r.2.1, wr := r.2.2, x := s.me, op := op, tag := s.ctx.r.tag }
    let u := (q.2.withCore fun c => { c with sb := c.sb ++ [e], rng := c.rng ++ [e] }).enter op t
    (q.1 :: u.1, u.2)

/-- An entry before the operation's own conflicts with one of them, so that the operation waits (R124). -/
def Core.opWaits (c : Core) (ids : List Nat) : Bool :=
  c.sb.any fun mine => setHas ids mine.id && c.sb.any fun e =>
    decide (e.id < mine.id) && !setHas ids e.id && decide (e.lo < mine.hi) && decide (mine.lo < e.hi) && (e.wr || mine.wr)

/-- An operation with some entries has completed (R64, R124). -/
def State.finishSb (s : State) (G : Nat) (ids : List Nat) : State := s.onCore G fun c => c.finish ids

/-- The entries of an operation released (R124). -/
def State.releaseSb (s : State) (G : Nat) (ids : List Nat) : State := s.onCore G fun c => c.release ids

/-- The NMU of tower core c of tower T is quarantined (Table 6-11). -/
def State.nmuQuarantined (s : State) (G : Nat) : Bool :=
  (s.reg (oNQUAR (twrOf G) (tcoreOf G / 64))).getLsbD (tcoreOf G % 64)

/-- Plot P of tower T is quarantined (Table 6-11). -/
def State.plotQuarantined (s : State) (T P : Nat) : Bool := (s.reg (oFQUAR T (P / 64))).getLsbD (P % 64)

/-- Bytes that an operation of context x writes into local memory of core G: logged when it forked in the open segment; a full
undo buffer unwinds the segment (R144, R149). -/
def State.engineWrite (s : State) (G x l : Nat) (seg : Bool) (bs : List Byte) : State :=
  match s.localWrite G x l (if seg then s.segOf x else none) none bs with
  | some t => t
  | none => s.asCtx x fun u => (u.overflowSeg .e).withCtx fun c => { c with phase := .normal }

/-- The write of an operation forked in the open segment of context x found the undo buffer full: it does nothing more (R149). -/
def State.segLost (s : State) (x : Nat) (seg : Bool) : Bool := seg && (s.segOf x).isNone

end Sys2Proof.Machine
end

