-- ==== Sys2Proof/Machine/Nmu.lean ====
section
/-! DEFINITION. The near matrix unit and online softmax (R355 to R368): checks at issue, products, tile moves, and the completion
of an operation. -/

namespace Sys2Proof.Machine

/-! ## Tiles (R355) -/

/-- Element (r, c). -/
def Tile.el (t : Tile) (r c : Nat) : BitVec 32 := (t.rows.getD r 0#2048).extractLsb' (32 * c) 32

/-- A row of 64 words. -/
def rowOf (f : Nat → BitVec 32) : BitVec 2048 :=
  (List.range 64).foldl (fun (acc : BitVec 2048) c => acc ||| ((f c).setWidth 2048 <<< (32 * c))) 0#2048

/-- The tile with every element replaced by a function of its place. -/
def Tile.fill (t : Tile) (f : Nat → Nat → BitVec 32) : Tile := { t with rows := Vector.ofFn fun (r : Fin 64) => rowOf (f r.val) }

/-- Tile n of a core. -/
def Core.tile (c : Core) (n : BitVec 2) : Tile := c.z.getD n.toNat Tile.reset

/-- Tile n of a core replaced. -/
def Core.setTile (c : Core) (n : BitVec 2) (t : Tile) : Core := { c with z := c.z.setIfInBounds n.toNat t }

/-! ## Operand descriptors (R358 to R360) -/

/-- Base and stride of a stream. -/
def ngBase (w : Word) : Nat := bits w 22 0
/-- Stride. -/
def ngStride (w : Word) : Nat := bits w 54 32
/-- The must-be-zero bits of ng0 to ng3 are zero. -/
def ngOk (w : Word) : Bool := bits w 63 55 == 0 && bits w 31 23 == 0

/-- A product's shape from ng4 (Table 15-1). -/
structure Shape where
  m : Nat
  n : Nat
  k : Nat
  fa : Nat
  fb : Nat
  bl : Bool
  deriving DecidableEq, Repr, Inhabited

/-- The shape that ng4 names. -/
def shapeOf (w : Word) : Shape := ⟨bits w 6 0, bits w 14 8, bits w 28 16, bits w 38 36, bits w 42 40, w.getLsbD 44⟩

/-- ng4 is in range with its must-be-zero bits zero, and its formats go together (R358, R359). -/
def shapeOk (w : Word) : Bool :=
  let h := shapeOf w
  bits w 63 45 == 0 && !w.getLsbD 43 && !w.getLsbD 39 && bits w 35 29 == 0 && !w.getLsbD 15 && !w.getLsbD 7 &&
  decide (16 ≤ h.m ∧ h.m ≤ 64 ∧ 16 ≤ h.n ∧ h.n ≤ 64 ∧ 32 ≤ h.k ∧ h.k ≤ 4096) && h.k % 32 == 0 &&
  ((h.fa == 4 && h.fb == 4) || (decide (h.fa < 4) && decide (h.fb < 4)))

/-- Bytes of n contiguous elements of a format. -/
def fmtBytes (f n : Nat) : Nat := if f = 4 then 2 * n else if f = 3 then (n + 1) / 2 else n

/-- The byte ranges (first offset, length of a row, stride, rows) of the four streams over rows m0.. of A and n0.. of B
(R360, R363). -/
def streams (ng : List Word) (h : Shape) (m0 n0 : Nat) : List (Nat × Nat × Nat × Nat) :=
  let g := fun k => ng.getD k 0#64
  let a := (ngBase (g 0) + m0 * ngStride (g 0), fmtBytes h.fa h.k, ngStride (g 0), h.m)
  let b := if h.bl then
      (let lo := if h.fb = 4 then 2 * n0 else if h.fb = 3 then n0 / 2 else n0
       let hi := fmtBytes h.fb (n0 + h.n)
       (ngBase (g 1) + lo, hi - lo, ngStride (g 1), h.k))
    else (ngBase (g 1) + n0 * ngStride (g 1), fmtBytes h.fb h.k, ngStride (g 1), h.n)
  let sa := (ngBase (g 2) + m0 * ngStride (g 2), h.k / 32, ngStride (g 2), h.m)
  let sb := if h.bl then (ngBase (g 3) + n0, h.n, ngStride (g 3), h.k / 32)
    else (ngBase (g 3) + n0 * ngStride (g 3), h.k / 32, ngStride (g 3), h.n)
  if h.fa = 4 then [a, b] else [a, b, sa, sb]

/-- Lowest and highest-plus-one offset of a stream. -/
def streamSpan (q : Nat × Nat × Nat × Nat) : Nat × Nat := (q.1, q.1 + (q.2.2.2 - 1) * q.2.2.1 + q.2.1)

/-- The element formats by code (Table 15-2). -/
def mxFmt (f : Nat) : Mx :=
  match f with
  | 0 => .int8
  | 1 => .e4m3
  | 2 => .e5m2
  | _ => .e2m1

/-- The value of the element with index j in the row that starts at offset o, under its scale byte; rd reads a byte. -/
def nmuElem (rd : Nat → Nat) (f o j scale : Nat) : Fv :=
  if f = 4 then Fmt.bf16.val (rd (o + 2 * j) + 256 * rd (o + 2 * j + 1))
  else if f = 3 then mxValue .e2m1 scale (rd (o + j / 2) / 16 ^ (j % 2) % 16)
  else mxValue (mxFmt f) scale (rd (o + j))

/-- A(m, k) (Table 15-3). -/
def elemA (rd : Nat → Nat) (ng : List Word) (h : Shape) (m k : Nat) : Fv :=
  let g := fun k => ng.getD k 0#64
  nmuElem rd h.fa (ngBase (g 0) + m * ngStride (g 0)) k
    (if h.fa = 4 then 0 else rd (ngBase (g 2) + m * ngStride (g 2) + k / 32))

/-- B(k, n) (Table 15-3). -/
def elemB (rd : Nat → Nat) (ng : List Word) (h : Shape) (k n : Nat) : Fv :=
  let g := fun k => ng.getD k 0#64
  let mx := h.fb != 4
  if h.bl then
    nmuElem rd h.fb (ngBase (g 1) + k * ngStride (g 1)) n (if mx then rd (ngBase (g 3) + k / 32 * ngStride (g 3) + n) else 0)
  else
    nmuElem rd h.fb (ngBase (g 1) + n * ngStride (g 1)) k (if mx then rd (ngBase (g 3) + n * ngStride (g 3) + k / 32) else 0)

/-- One element of a product from accumulator z, block by block (R228, R362). -/
def dot (rd : Nat → Nat) (ng : List Word) (h : Shape) (m n : Nat) (z : BitVec 32) : BitVec 32 :=
  (List.range (h.k / 32)).foldl (fun acc kb =>
    addF acc (windowSum ((List.range 32).map fun i =>
      ((elemA rd ng h m (32 * kb + i)).mul (elemB rd ng h (32 * kb + i) n)).term))) z

/-- The product at rows m0.. and columns n0.. into a tile (R362, R363). -/
def product (rd : Nat → Nat) (ng : List Word) (h : Shape) (m0 n0 : Nat) (zero : Bool) (t : Tile) : Tile :=
  t.fill fun r c =>
    if r < h.m ∧ c < h.n then dot rd ng h (m0 + r) (n0 + c) (if zero then 0#32 else t.el r c) else t.el r c

/-! ## Softmax (R367, R368) -/

/-- The larger operand; NaN when either is NaN (R367). Of two zeros, +0: the spec calls neither the larger (DESIGN CHOICE, log 45). -/
def nanmax (a b : BitVec 32) : BitVec 32 := if (valF a).isNan || (valF b).isNan then 0x7fc00000#32 else maxF a b

/-- round(a − b, FP32, RNE, 0). -/
def subF (a b : BitVec 32) : BitVec 32 := toF32 ((valF a).add (valF b).neg)

/-- round(x, BF16, RNE, 0) as a BF16 code. -/
def toBf16 (x : BitVec 32) : Nat := Fmt.bf16.round (valF x) .rne 0

/-- One row of OSM: scores, running maximum and sum, and output row; the new ones (R367). -/
def softRow (oc ov : Nat) (z : Nat → BitVec 32) (m sum : BitVec 32) (o : Nat → BitVec 32) :
    (Nat → BitVec 32) × BitVec 32 × BitVec 32 × (Nat → BitVec 32) :=
  let mx := (List.range oc).foldl (fun acc j => nanmax acc (z j)) 0xff800000#32
  let new := nanmax m mx
  if new = 0xff800000#32 then (fun j => if j < oc then 0#32 else z j, m, sum, o)
  else
    let al := if (valF new).isNan then 0x7fc00000#32 else if m = 0xff800000#32 then 0#32 else exp2F (subF m new)
    let p := fun j => toBf16 (exp2F (subF (z j) new))
    let sg := windowSum ((List.range oc).map fun j => (Fmt.bf16.val (p j)).term)
    (fun j => if j < oc then BitVec.ofNat 32 (p j * 65536) else z j, new, fmaF sum al sg,
     fun c => if c < ov then toF32 ((valF (o c)).mul (valF al)) else o c)

/-- OSM on score tile a and state tile d under ng7: the two tiles (R367). -/
def softmax (w : Word) (a d : Tile) : Tile × Tile :=
  let rows := fun r => if r < bits w 6 0 then
      softRow (bits w 14 8) (bits w 22 16) (a.el r) (d.zm.getD r 0#32) (d.zs.getD r 0#32) (d.el r)
    else (a.el r, d.zm.getD r 0#32, d.zs.getD r 0#32, d.el r)
  let bad := a.poison || d.poison
  ({ (a.fill fun r c => (rows r).1 c) with poison := bad },
   { (d.fill fun r c => (rows r).2.2.2 c) with
     zm := Vector.ofFn fun (r : Fin 64) => (rows r.val).2.1
     zs := Vector.ofFn fun (r : Fin 64) => (rows r.val).2.2.1
     poison := bad })

/-- OSMF on tile d under ng7 (R368). -/
def normalise (w : Word) (d : Tile) : Tile :=
  d.fill fun r c =>
    if r < bits w 6 0 ∧ c < bits w 22 16 then
      (let q := d.zs.getD r 0#32
       if q = 0#32 then 0#32 else toF32 ((valF (d.el r c)).div (valF q)))
    else d.el r c

/-- ng7 is in range with its must-be-zero bits zero (R358). -/
def softOk (w : Word) : Bool :=
  bits w 63 23 == 0 && !w.getLsbD 15 && !w.getLsbD 7 &&
  decide (1 ≤ bits w 6 0 ∧ bits w 6 0 ≤ 64 ∧ 1 ≤ bits w 14 8 ∧ bits w 14 8 ≤ 64 ∧ 1 ≤ bits w 22 16 ∧ bits w 22 16 ≤ 64)

/-! ## Issue (R356) -/

/-- ng0 to ng7 of the current strand. -/
def State.ngs (s : State) : List Word := (List.range 8).map fun k => s.gr (40 + k)

/-- An NMU operation issued: its local ranges entered, the operation queued and its completion due (R356). A gang product writes nothing but its own
tile and may never start, so no end of its strand waits for it (R364, log 62). -/
def State.sendNmu (s : State) (i : Instr) (a b : Word) (rs : List Rng) (gang : Bool) : State :=
  if !s.sbRoom rs.length then s.block
  else
    let q := s.fresh
    let e := q.2.enter q.1 rs
    let op : NmuOp := { id := q.1, x := s.me, i := i, ng := s.ngs, a := a, b := b, sbs := e.1, tag := s.ctx.r.tag, gang := gang, seg := s.inSeg }
    let t := e.2.withCore fun c => { c with nmuq := c.nmuq ++ [op] }
    if gang then t else (t.opIssued q.1).queue { i := .nmuOperationComplete, x := s.here, y := q.1 }

/-- The checks of R362 that MMA and MMAG share up to ALIGN: limit is the window's size. -/
def productTrap (ng : List Word) (ss : List (Nat × Nat × Nat × Nat)) (ill : Bool) (limit : Nat) : Option (BitVec 8) :=
  if ill || !(ng.take 4).all ngOk || !shapeOk (ng.getD 4 0#64) then some cILL
  else if ss.any (fun q => decide (limit < (streamSpan q).2)) then some cBOUND
  else if (ng.take 2).any (fun w => ngBase w % 16 != 0 || ngStride w % 16 != 0) then some cALIGN
  else none

/-- MMA at issue (R362). -/
def State.mma (s : State) (i : Instr) : State :=
  let ng := s.ngs
  let ss := streams ng (shapeOf (ng.getD 4 0#64)) 0 0
  match productTrap ng ss false 0x80000 with
  | some c => s.trapAt .v c 0#64 0#64
  | none =>
    let rs : List Rng := ss.map fun q => (locScratch s.here (streamSpan q).1, locScratch s.here (streamSpan q).2, false)
    if rs.any s.rangeRefused then s.trapAt .v cBANK 0#64 0#64
    else if s.nmuQuarantined s.here then s.trapAt .v cENGINE 0#64 0#64
    else s.sendNmu i 0#64 0#64 rs false

/-- The fields of ng5 (Table 15-1): GR, GC, PR, PC. -/
def gangPos (w : Word) : Nat × Nat × Nat × Nat := (bits w 9 8, bits w 11 10, bits w 13 12, bits w 15 14)

/-- ng5 is well formed: must-be-zero bits zero and the position inside the gang (R358, R363). -/
def gangOk (w : Word) : Bool :=
  let q := gangPos w
  bits w 63 16 == 0 && bits w 7 3 == 0 && decide (q.2.2.1 ≤ q.1 ∧ q.2.2.2 ≤ q.2.1)

/-- The parameters that every member of a gang shares (R364). -/
def gangParams (ng : List Word) : List Word := ng.take 5 ++ [BitVec.ofNat 64 (bits (ng.getD 5 0#64) 11 8)]

/-- An MMAG arrives at its gang: it opens, joins or mismatches (R364). -/
def State.arriveGang (s : State) (id : Nat) (d : BitVec 2) (z : Bool) (ng : List Word) : State :=
  let w := ng.getD 5 0#64
  let gid := bits w 2 0
  let clu := cluOf s.here
  let q := gangPos w
  let pos := 4 * q.2.2.1 + q.2.2.2
  let full := fun (n : Nat) => n == (q.1 + 1) * (q.2.1 + 1)
  let start := fun (t : State) (n : Nat) => if full n then t.queue { i := .gangStart, x := clu, y := gid } else t
  match s.gangs.find? fun g => g.clu == clu && g.gid == gid with
  | none =>
    start { s with gangs := s.gangs ++ [{ clu := clu, gid := gid, par := gangParams ng, z := z, mem := [(s.here, id, pos)] }] } 1
  | some g =>
    if g.par == gangParams ng && g.z == z && !g.mem.any (fun m => m.2.2 == pos) then
      start { s with gangs := s.gangs.map fun h =>
        if h.clu == clu && h.gid == gid then { h with mem := h.mem ++ [(s.here, id, pos)] } else h } (g.mem.length + 1)
    else
      let t := s.withCore fun c =>
        { (c.setTile d { c.tile d with poison := true }) with nmuq := c.nmuq.filter fun o => o.id != id }
      t.reportHere 13 2 0#64 0#64 0#64

/-- MMAG at issue (R363). -/
def State.mmag (s : State) (i : Instr) (d : BitVec 2) (z : Bool) : State :=
  let ng := s.ngs
  let w := ng.getD 5 0#64
  let h := shapeOf (ng.getD 4 0#64)
  let q := gangPos w
  match productTrap ng (streams ng h (q.2.2.1 * h.m) (q.2.2.2 * h.n)) (!gangOk w) 0x600000 with
  | some c => s.trapAt .v c 0#64 0#64
  | none =>
    if s.nmuQuarantined s.here then s.trapAt .v cENGINE 0#64 0#64
    else
      let t := s.sendNmu i 0#64 0#64 [] true
      t.arriveGang t.uid d z ng

/-- The range of ZLD and ZST with its window, or the first trap (R366). -/
def State.tileRange (s : State) (a b : Word) (side bf wr : Bool) : Except (BitVec 8) Rng :=
  let row := if bf then 128 else 256
  let n := if side then 512 else 63 * b.toNat + row
  let al := if side then !aligned a.toNat 4 else
    (let e := if bf then 2 else 4
     !aligned a.toNat e || !aligned b.toNat e)
  let go := fun (l : Nat) =>
    let r : Rng := (l, l + n, wr)
    if al then Except.error cALIGN
    else if s.rangeRefused r then Except.error cBANK
    else if s.nmuQuarantined s.here then Except.error cENGINE
    else Except.ok r
  match decodeRange s.here a.toNat n with
  | some (.scratch, l) => go l
  | some (.astore, l) => go l
  | _ => .error cBOUND

/-- ZLD and ZST at issue (R366). -/
def State.tileMove (s : State) (i : Instr) (a b : Word) (side bf wr : Bool) : State :=
  match s.tileRange a b side bf wr with
  | .error c => s.trapAt .v c a 0#64
  | .ok r => s.sendNmu i a b [r] false

/-- MMA (R362). -/
def execMma (g : BitVec 4) (d : BitVec 2) (z : BitVec 1) (s : State) : Out := whenLanes g s fun _ t => t.mma (.mma g d z)
/-- MMAG (R363). -/
def execMmag (g : BitVec 4) (d : BitVec 2) (z : BitVec 1) (s : State) : Out :=
  whenLanes g s fun _ t => t.mmag (.mmag g d z) d (z == 1#1)
/-- ZCLR: x is S and y is F (R365). -/
def execZclr (g : BitVec 4) (d : BitVec 2) (x y : BitVec 1) (s : State) : Out :=
  whenLanes g s fun _ t => t.sendNmu (.zclr g d x y) 0#64 0#64 [] false
/-- ZLD: x is the side form and y the BF16 form (R366). -/
def execZld (g : BitVec 4) (d : BitVec 2) (a b : BitVec 6) (x y : BitVec 1) (s : State) : Out :=
  whenLanes g s fun _ t => t.tileMove (.zld g d a b x y) (t.sr a) (t.sr b) (x == 1#1) (y == 1#1) false
/-- ZST (R366). -/
def execZst (g : BitVec 4) (d : BitVec 2) (a b : BitVec 6) (x y : BitVec 1) (s : State) : Out :=
  whenLanes g s fun _ t => t.tileMove (.zst g d a b x y) (t.sr a) (t.sr b) (x == 1#1) (y == 1#1) true
/-- OSM traps ILL on ng7 (R358, R367). -/
def execOsm (g : BitVec 4) (d a : BitVec 2) (s : State) : Out :=
  whenLanes g s fun _ t =>
    if softOk (t.ngs.getD 7 0#64) then t.sendNmu (.osm g d a) 0#64 0#64 [] false else t.trapAt .v cILL 0#64 0#64
/-- OSMF (R368). -/
def execOsmf (g : BitVec 4) (d : BitVec 2) (s : State) : Out :=
  whenLanes g s fun _ t =>
    if softOk (t.ngs.getD 7 0#64) then t.sendNmu (.osmf g d) 0#64 0#64 [] false else t.trapAt .v cILL 0#64 0#64

/-! ## Completion (R356, R357, R364) -/

/-- The tiles that an operation touches. -/
def tilesOf : Instr → List (BitVec 2)
  | .mma _ d _ => [d]
  | .mmag _ d _ => [d]
  | .zclr _ d _ _ => [d]
  | .zld _ d _ _ _ _ => [d]
  | .zst _ d _ _ _ _ => [d]
  | .osm _ d a => [d, a]
  | .osmf _ d => [d]
  | _ => []

/-- The operation may perform: it waits for its gang, for earlier operations on its tiles and for earlier scoreboard entries
(R124, R356, R364). -/
def Core.nmuReady (c : Core) (op : NmuOp) : Bool :=
  !op.gang && !c.opWaits op.sbs &&
  (c.nmuq.takeWhile fun q => q.id != op.id).all fun q => !(tilesOf q.i).any fun t => (tilesOf op.i).any (· == t)

/-- A granule of the stream's rows is poisoned. -/
def State.streamPoisoned (s : State) (base : Nat) (q : Nat × Nat × Nat × Nat) : Bool :=
  (List.range q.2.2.2).any fun r => s.poisonedAt (base + q.1 + r * q.2.2.1) q.2.1

/-- A product written into its tile; base is the location of offset 0 (R362, R363). A poisoned tile that it reads, or replaces only in part, stays as it
is (R138). -/
def State.doProduct (s : State) (G : Nat) (op : NmuOp) (d : BitVec 2) (z : Bool) (base m0 n0 : Nat) : State :=
  let h := shapeOf (op.ng.getD 4 0#64)
  let rd := fun o => (s.byteAt (base + o)).toNat
  let t := (s.coreAt G).tile d
  let bad := (streams op.ng h m0 n0).any (s.streamPoisoned base)
  let whole := z && h.m == 64 && h.n == 64
  if t.poison && !whole then s
  else s.onCore G fun c => c.setTile d { (product rd op.ng h m0 n0 z t) with poison := bad }

/-- Row r of a tile as the bytes that ZST writes. -/
def rowBytes (t : Tile) (bf : Bool) (r : Nat) : List Byte :=
  (List.range 64).flatMap fun c => if bf then natToBytes 2 (toBf16 (t.el r c)) else natToBytes 4 (t.el r c).toNat

/-- The rows of a ZLD or ZST: offset from the range's start, and length. -/
def tileRows (b : Word) (side bf : Bool) : List (Nat × Nat) :=
  if side then [(0, 512)] else (List.range 64).map fun r => (r * b.toNat, if bf then 128 else 256)

/-- The side registers as bytes: zm, then zs (R366). -/
def sideBytes (t : Tile) : List Byte := (t.zm.toList ++ t.zs.toList).flatMap fun w => natToBytes 4 w.toNat

/-- ZST performs (R138, R366). -/
def State.doZst (s : State) (G : Nat) (op : NmuOp) (t : Tile) (side bf : Bool) : State :=
  match (s.coreAt G).sb.find? fun e => setHas op.sbs e.id with
  | none => s
  | some e =>
    (tileRows op.b side bf).zipIdx.foldl (fun (u : State) q =>
      if u.segLost op.x op.seg then u
      else
      let v := u.engineWrite G op.x (e.lo + q.1.1) op.seg (if side then sideBytes t else rowBytes t bf q.2)
      if t.poison && !v.segLost op.x op.seg then v.poisonRange (e.lo + q.1.1) q.1.2 else v) s

/-- A tile read by ZLD from location l; the side registers alone are a part of a tile, which leaves a poisoned one as it is (R138, R366). -/
def State.loadTile (s : State) (l : Nat) (b : Word) (side bf : Bool) (t : Tile) : Tile :=
  let bad := (tileRows b side bf).any fun q => s.poisonedAt (l + q.1) q.2
  if side then
    if t.poison then t
    else { t with
      zm := Vector.ofFn fun (r : Fin 64) => BitVec.ofNat 32 (s.natAt (l + 4 * r.val) 4)
      zs := Vector.ofFn fun (r : Fin 64) => BitVec.ofNat 32 (s.natAt (l + 256 + 4 * r.val) 4)
      poison := bad }
  else
    { (t.fill fun r c =>
        if bf then BitVec.ofNat 32 (s.natAt (l + r * b.toNat + 2 * c) 2 * 65536)
        else BitVec.ofNat 32 (s.natAt (l + r * b.toNat + 4 * c) 4)) with poison := bad }

/-- ZCLR; the side registers alone are a part of a tile, which leaves a poisoned one as it is (R138, R365). -/
def clearTile (side full : Bool) (t : Tile) : Tile :=
  if t.poison && !full then t else
  let t1 := if full then { t with rows := Vector.replicate 64 0#2048, poison := false } else t
  if side then { t1 with zm := Vector.replicate 64 0xff800000#32, zs := Vector.replicate 64 0#32 } else t1

/-- An NMU operation performs (R362 to R368). -/
def State.doNmu (s : State) (G : Nat) (op : NmuOp) : State :=
  match op.i with
  | .mma _ d z => s.doProduct G op d (z == 1#1) (locScratch G 0) 0 0
  | .mmag _ d z =>
    let h := shapeOf (op.ng.getD 4 0#64)
    let q := gangPos (op.ng.getD 5 0#64)
    s.doProduct G op d (z == 1#1) (locBazaar (cluOf G) 0) (q.2.2.1 * h.m) (q.2.2.2 * h.n)
  | .zclr _ d x y => s.onCore G fun c => c.setTile d (clearTile (x == 1#1) (y == 1#1) (c.tile d))
  | .zld _ d _ _ x y =>
    (match (s.coreAt G).sb.find? fun e => setHas op.sbs e.id with
      | none => s
      | some e => s.onCore G fun c => c.setTile d (s.loadTile e.lo op.b (x == 1#1) (y == 1#1) (c.tile d)))
  | .zst _ d _ _ x y => s.doZst G op ((s.coreAt G).tile d) (x == 1#1) (y == 1#1)
  | .osm _ d a =>
    s.onCore G fun c =>
      let q := softmax (op.ng.getD 7 0#64) (c.tile a) (c.tile d)
      (c.setTile a q.1).setTile d q.2
  | .osmf _ d => s.onCore G fun c => c.setTile d (normalise (op.ng.getD 7 0#64) (c.tile d))
  | _ => s

/-- Every tile of a started gang has landed, so the instance closes (R364). DEDUCED: log 36. -/
def State.gangOver (s : State) (g : Gang) : Bool :=
  g.started && g.mem.all fun m => !(s.coreAt m.1).nmuq.any fun q => q.id == m.2.1

/-- An operation leaves the NMU: its entries are released, and a gang closes with its last member (R124, R364). -/
def State.endNmu (s : State) (G : Nat) (op : NmuOp) : State :=
  let t := ((s.onCore G fun c => { c with nmuq := c.nmuq.filter fun q => q.id != op.id }).finishSb G op.sbs).opEnded op.id
  { t with gangs := t.gangs.filter fun g => !t.gangOver g }

end Sys2Proof.Machine
end

