-- ==== Sys2Proof/Machine/Field.lean ====
section
/-! DEFINITION. The compute-in-memory field (R326 to R354): plots and their order, nests, reloads, row checks and the field
instructions. -/

namespace Sys2Proof.Machine

/-! ## Plots (R28, R326 to R328) -/

/-- Tower of a module-wide plot number. -/
def plotTower (n : Nat) : Nat := n / 256
/-- The stored status word of a plot: FPLST without its mirrored fields. -/
def State.plotWord (s : State) (n : Nat) : Word := s.reg (oFPLST (plotTower n) (n % 256))
/-- The status word replaced. -/
def State.setPlot (s : State) (n : Nat) (w : Word) : State := s.setReg (oFPLST (plotTower n) (n % 256)) w
/-- The plot with sector index q of core G's cluster (R28). -/
def plotOfQ (G q : Nat) : Nat := 256 * twrOf G + 64 * (q / 8) + 8 * (cluOf G % 8) + q % 8

/-- ACT of a status word. -/
def plAct (w : Word) : Nat := b2n (w.getLsbD 15)
/-- Half h is in compute mode. -/
def plCompute (w : Word) (h : Nat) : Bool := w.getLsbD (4 * h + 2)
/-- Half h is under reload. -/
def plLoading (w : Word) (h : Nat) : Bool := w.getLsbD (4 * h + 3)
/-- Latched format of half h: true for MXFP4. -/
def plFp4 (w : Word) (h : Nat) : Bool := w.getLsbD (4 * h + 1)
/-- Core G owns the plot by its status word. -/
def plOwner (w : Word) (G : Nat) : Bool := w.getLsbD 53 && bits w 61 54 == tcoreOf G

/-- The effect of a field operation on the status word (R348 to R351); a load only begins here, and a swap performs only after the load of the
half that becomes active, so that half is under reload no longer (R338). -/
def plApply (op : FieldOp) (w : Word) : Word :=
  match op.kind with
  | 0 => setBits w 61 53 (2 * tcoreOf op.core + 1)
  | 1 => setBits w 61 53 0
  | 2 => setBits w (4 * op.h + 2) (4 * op.h + 2) op.v
  | 3 => setBits (setBits w (4 * op.h + 3) (4 * op.h + 2) 3) (4 * op.h + 1) (4 * op.h + 1) op.v
  | _ => setBits (w ^^^ 0x8000#64) (4 * (1 - plAct w) + 3) (4 * (1 - plAct w) + 3) 0

/-- The issued state of a plot (R327). -/
def State.plotIssued (s : State) (n : Nat) : Word :=
  (s.fops.filter fun o => o.plot == n).foldl (fun w o => plApply o w) (s.plotWord n)

/-- Core G owns the plot in its issued state. -/
def State.owns (s : State) (G n : Nat) : Bool := plotTower n == twrOf G && plOwner (s.plotIssued n) G

/-- A plot that another core owns, or is about to bind (R348, R339). -/
def State.othersPlot (s : State) (G n : Nat) : Bool :=
  ((s.plotWord n).getLsbD 53 && !plOwner (s.plotWord n) G) || s.fops.any fun o => o.plot == n && o.kind == 0 && o.core != G

/-- Plots that a core owns in its issued state (R26). -/
def State.plotsOwned (s : State) (G : Nat) : Nat := ((List.range 32).filter fun q => s.owns G (plotOfQ G q)).length

/-! ## The loop-nest table (R341 to R344) -/

/-- Field hi..lo of a word as a signed number. -/
def sbits (w : Word) (hi lo : Nat) : Int :=
  let n := bits w hi lo
  if n < 2 ^ (hi - lo) then n else (n : Int) - 2 ^ (hi - lo + 1)

/-- Word k of a table. -/
def ftw (ft : List Word) (k : Nat) : Word := ft.getD k 0#64
/-- CNT of level l. -/
def ftCnt (ft : List Word) (l : Nat) : Nat := bits (ftw ft (8 + 4 * l)) 15 0
/-- ASTR. -/
def ftAstr (ft : List Word) (l : Nat) : Int := sbits (ftw ft (9 + 4 * l)) 31 0
/-- SSTR. -/
def ftSstr (ft : List Word) (l : Nat) : Int := sbits (ftw ft (9 + 4 * l)) 63 32
/-- OSTR. -/
def ftOstr (ft : List Word) (l : Nat) : Int := sbits (ftw ft (10 + 4 * l)) 31 0
/-- GSTEP. -/
def ftGstep (ft : List Word) (l : Nat) : Int := sbits (ftw ft (10 + 4 * l)) 63 32
/-- PSTEP. -/
def ftPstep (ft : List Word) (l : Nat) : Int := sbits (ftw ft (11 + 4 * l)) 5 0
/-- OVW. -/
def ftOvw (ft : List Word) (l : Nat) : Bool := (ftw ft (11 + 4 * l)).getLsbD 8
/-- GBASE ≠ 0: gather mode. -/
def ftGather (ft : List Word) : Bool := bits (ftw ft 3) 18 0 != 0
/-- TR. -/
def ftTr (ft : List Word) : Bool := (ftw ft 4).getLsbD 6
/-- AF: MXFP4 activations. -/
def ftFp4 (ft : List Word) : Bool := (ftw ft 4).getLsbD 7
/-- HALF. -/
def ftHalf (ft : List Word) : Nat := b2n ((ftw ft 4).getLsbD 5)

/-- A must-be-zero bit of the table is set, or ACC is out of range (R341, R342, R345). -/
def ftIll (ft : List Word) : Bool :=
  let z := fun (k hi lo : Nat) => bits (ftw ft k) hi lo != 0
  z 0 63 19 || z 0 5 0 || z 1 63 19 || z 1 3 0 || z 2 63 16 || z 3 31 19 || z 3 1 0 || z 4 63 32 || z 4 15 10 ||
  z 5 63 0 || z 6 63 0 || z 7 63 0 || decide (2 ≤ bits (ftw ft 4) 9 8) ||
  (List.range 6).any fun l => z (8 + 4 * l) 63 16 || z (9 + 4 * l) 35 32 || z (9 + 4 * l) 5 0 || z (11 + 4 * l) 63 9 ||
    z (11 + 4 * l) 7 6

/-- A level with no iterations makes the nest empty (R342). -/
def ftEmpty (ft : List Word) : Bool := (List.range 6).any fun l => ftCnt ft l == 0

/-- Steps of a nest. -/
def ftSteps (ft : List Word) : Nat := (List.range 6).foldl (fun n l => n * ftCnt ft l) 1

/-- i_l of step number n, level 0 fastest (R343). -/
def ftIndex (ft : List Word) (n l : Nat) : Nat := n / (List.range l).foldl (fun m k => m * ftCnt ft k) 1 % ftCnt ft l

/-- A base plus the sum of the levels' strides at step n. -/
def ftAt (ft : List Word) (f : List Word → Nat → Int) (base : Int) (n : Nat) : Int :=
  (List.range 6).foldl (fun a l => a + ftIndex ft n l * f ft l) base

/-- Lowest and highest value of a base plus strides over the nest. -/
def ftSpan (ft : List Word) (f : List Word → Nat → Int) (base : Int) : Int × Int :=
  (List.range 6).foldl (fun a l =>
    let d := ((ftCnt ft l : Int) - 1) * f ft l
    (a.1 + min 0 d, a.2 + max 0 d)) (base, base)

/-- Elements of a step's vector (Table 14-3). -/
def ftElems (ft : List Word) : Nat := if ftTr ft then 512 else 2048
/-- Bytes of the elements of a vector. -/
def ftBytes (ft : List Word) : Nat := if ftFp4 ft then ftElems ft / 2 else ftElems ft
/-- Outputs of a step (Table 14-3). -/
def ftOuts (ft : List Word) (fp4 : Bool) : Nat := if ftTr ft then 2048 else if fp4 then 1024 else 512

/-- Reached plots of a nest, or nothing where one lies outside the sector (R345). -/
def ftPlots (ft : List Word) : Option (List Nat) :=
  let r := ftSpan ft ftPstep (bits (ftw ft 4) 4 0)
  if r.1 < 0 ∨ 31 < r.2 then none
  else
    let sums := (List.range 6).foldl (fun (acc : List Int) l =>
      let n := if ftPstep ft l = 0 then 1 else ftCnt ft l
      (acc.flatMap fun a => (List.range n).map fun (i : Nat) => a + (i : Int) * ftPstep ft l).eraseDups) [(bits (ftw ft 4) 4 0 : Int)]
    some (sums.map Int.toNat)

/-- The byte ranges of a nest in the scratchpad: activations, scales, and the index array (R344). Rows of a gather count for every
index below GCNT. -/
def ftReads (ft : List Word) : List (Int × Int) :=
  let g := ftGather ft
  let rows : Int := bits (ftw ft 4) 31 16
  let stretch := fun (q : Int × Int) (k : Int) (n : Nat) =>
    if g then (q.1, q.2 + (rows - 1) * k + n) else (q.1, q.2 + n)
  let a := stretch (ftSpan ft ftAstr (bits (ftw ft 0) 18 0)) (64 * (bits (ftw ft 3) 47 32 : Int)) (ftBytes ft)
  let b := stretch (ftSpan ft ftSstr (bits (ftw ft 1) 18 0)) (16 * (bits (ftw ft 3) 63 48 : Int)) (ftElems ft / 32)
  let i := ftSpan ft ftGstep 0
  let base : Int := bits (ftw ft 3) 18 0
  (if g ∧ rows = 0 then [] else [a, b]) ++ (if g then [(base + 4 * i.1, base + 4 * i.2 + 4)] else [])

/-- The A-store words of a nest (R344). -/
def ftWrites (ft : List Word) (fp4 : Bool) : List (Int × Int) :=
  if ftGather ft ∧ bits (ftw ft 4) 31 16 = 0 then []
  else
    let r := ftSpan ft ftOstr (bits (ftw ft 2) 15 0)
    [(r.1, r.2 + ftOuts ft fp4)]

/-! ## Issue of nests (R345, R346, R352) -/

/-- The shadow table of the current strand. -/
def State.shadowTable (s : State) : List Word := (List.range 32).map fun k => s.gr (8 + k)

/-- The first trap of FGO after ILL, in the order of R345. The range of the outputs counts 1,024 outputs for a step if the named half of any reached plot is
MXFP4, and else 512, also where a later check fails (DESIGN CHOICE, log 73). -/
def State.nestTrap (s : State) (ft : List Word) (rs : List Rng) : Option (BitVec 8) :=
  let plots := ((ftPlots ft).getD []).map (plotOfQ s.here)
  let st := fun n => s.plotIssued n
  if (ftReads ft).any (fun r => decide (r.1 < 0 ∨ 0x80000 < r.2)) ||
      (ftWrites ft (plots.any fun n => plFp4 (st n) (ftHalf ft))).any (fun r => decide (r.1 < 0 ∨ 65536 < r.2)) then some cBOUND
  else if rs.any s.rangeRefused then some cBANK
  else if (ftPlots ft).isNone || plots.any (fun n => !s.owns s.here n) then some cFOWN
  else if plots.any (fun n => s.plotQuarantined (plotTower n) (n % 256) || (st n).getLsbD 63) then some cENGINE
  else if plots.any (fun n => plAct (st n) != ftHalf ft || !plCompute (st n) (ftHalf ft)) ||
      (plots.any (fun n => plFp4 (st n) (ftHalf ft)) && plots.any (fun n => !plFp4 (st n) (ftHalf ft))) ||
      (ftTr ft && plots.any fun n => plFp4 (st n) (ftHalf ft)) then some cFBUSY
  else none

/-- FGO (R345, R346). -/
def State.fgo (s : State) : State :=
  let ft := s.shadowTable
  if ftIll ft then s.trapAt .e cILL 0#64 0#64
  else if ftEmpty ft then s
  else
    let fp4 := ((ftPlots ft).getD []).any fun q => plFp4 (s.plotIssued (plotOfQ s.here q)) (ftHalf ft)
    let rs : List Rng :=
      ((ftReads ft).map fun r => (locScratch s.here r.1.toNat, locScratch s.here r.2.toNat, false)) ++
      ((ftWrites ft fp4).map fun r => (locAstore s.here (4 * r.1.toNat), locAstore s.here (4 * r.2.toNat), true))
    match s.nestTrap ft rs with
    | some c => s.trapAt .e c 0#64 0#64
    | none =>
      if s.core.commits.any (fun n => n.x == s.me) || !s.sbRoom rs.length then s.block
      else
        let q := s.fresh
        let e := q.2.enter q.1 rs
        let n : Nest := { id := q.1, x := s.me, ft := ft, sbs := e.1, tag := s.ctx.r.tag, seg := s.inSeg }
        ((e.2.withCore fun c => { c with commits := c.commits ++ [n] }).opIssued q.1).queue { i := .nestStart, x := s.here }

/-! ## Plot order (R338) -/

/-- What the levels below l can add to the plot offset of a step (R343). -/
def ftSums (ft : List Word) (l : Nat) : List Int :=
  (List.range l).foldl (fun (acc : List Int) k =>
    let n := if ftPstep ft k = 0 then 1 else ftCnt ft k
    (acc.flatMap fun a => (List.range n).map fun (i : Nat) => a + (i : Int) * ftPstep ft k).eraseDups) [0]

/-- The number of the last step of the levels below l that adds r to the plot offset: the highest index of the highest level comes last. -/
def ftLast (ft : List Word) : Nat → Int → Nat
  | 0, _ => 0
  | l + 1, r =>
    let c := ftCnt ft l
    let i := if ftPstep ft l = 0 then c - 1
      else ((List.range c).reverse.find? fun (i : Nat) => (ftSums ft l).any (· == r - (i : Int) * ftPstep ft l)).getD 0
    i * (List.range l).foldl (fun m k => m * ftCnt ft k) 1 + ftLast ft l (r - (i : Int) * ftPstep ft l)

/-- A nest still has a step to run on plot n (R328, R338). -/
def Nest.reaches (G : Nat) (t : Nest) (n : Nat) : Bool :=
  ((ftPlots t.ft).getD []).any fun q => plotOfQ G q == n && decide (t.step ≤ ftLast t.ft 6 ((q : Int) - bits (ftw t.ft 4) 4 0))

/-- Two field operations touch a common part of their plot. -/
def FieldOp.meets (a b : FieldOp) : Bool :=
  a.plot == b.plot && (a.kind < 2 || b.kind < 2 || a.kind == 4 || b.kind == 4 || a.h == b.h)

/-- A field operation touches half h. -/
def FieldOp.touches (a : FieldOp) (h : Nat) : Bool := a.kind < 2 || a.kind == 4 || a.h == h

/-- The nests of a core, the running one first. -/
def Core.nests (c : Core) : List Nest := (match c.nest with
  | some n => [n]
  | none => []) ++ c.commits

/-- The operation's turn in plot order has come (R338): earlier operations on its parts have performed, and so have the steps of
earlier nests. -/
def State.fopReady (s : State) (op : FieldOp) : Bool :=
  (s.fops.takeWhile fun o => o.id != op.id).all (fun o => !o.meets op) &&
  !(s.coreAt op.core).nests.any fun t => decide (t.id < op.id) && t.reaches op.core op.plot && op.touches (ftHalf t.ft)

/-- Field operations on a plot that have not performed (Table 14-1, NPEND). -/
def State.plotPending (s : State) (n : Nat) : Nat :=
  let w := s.plotWord n
  let G := 192 * plotTower n + bits w 61 54
  (s.fops.filter fun o => o.plot == n).length +
    (if w.getLsbD 53 then ((s.coreAt G).nests.filter fun t => t.reaches G n).length else 0)

/-- The status word as FSTAT and FPLST give it (R328, R353). -/
def State.plotStatus (s : State) (n : Nat) : Word :=
  setBits (setBits (s.plotWord n) 62 62 (b2n (s.plotQuarantined (plotTower n) (n % 256)))) 52 48 (min 31 (s.plotPending n))

/-! ## Field instructions (R347 to R354) -/

/-- A field operation issued with its event. -/
def State.sendField (s : State) (ev : Instr) (n kind h v : Nat) (org : Word) : State :=
  let q := s.fresh
  { q.2.opIssued q.1 with
    fops := q.2.fops ++ [{ id := q.1, core := s.here, tfb := s.ctx.r.tfb, plot := n, kind := kind, h := h, v := v, org := org,
                           sup := s.ctx.r.sup }]
    agenda := q.2.agenda ++ [{ i := ev, y := q.1 }] }

/-- The plot that the operands name: q = s[a] + imm exactly; a q of 32 or more traps FIELD_OWN (R347). -/
def State.onPlot (s : State) (a : BitVec 6) (q : BitVec 5) (f : Nat → State → State) : State :=
  let n := (s.sr a).toNat + q.toNat
  if 32 ≤ n then s.trapAt .e cFOWN 0#64 0#64 else f (plotOfQ s.here n) s

/-- FMAP, bind (R348). -/
def State.fmap (n : Nat) (s : State) : State :=
  let mine := s.owns s.here n
  if !mine && (s.othersPlot s.here n || decide (8 ≤ s.plotsOwned s.here)) then s.trapAt .e cFOWN 0#64 0#64
  else if s.plotQuarantined (plotTower n) (n % 256) || (s.plotWord n).getLsbD 63 then s.trapAt .e cENGINE 0#64 0#64
  else if mine then s
  else s.sendField .fmapArrival n 0 0 0 0#64

/-- FMAP, release (R348). -/
def State.fmapRel (n : Nat) (s : State) : State :=
  if s.owns s.here n then s.sendField .plotReleasePerform n 1 0 0 0#64 else s

/-- FMODE (R349). -/
def State.fmode (comp : Bool) (h n : Nat) (s : State) : State :=
  let w := s.plotIssued n
  if !s.owns s.here n then s.trapAt .e cFOWN 0#64 0#64
  else if comp then (if plCompute w h then s else s.sendField .fmodePerform n 2 h 1 0#64)
  else if plLoading w h then s.trapAt .e cFBUSY 0#64 0#64
  else s.sendField .fmodePerform n 2 h 0 0#64

/-- FLOAD (R350). -/
def State.fload (org : Word) (fp4 : Bool) (h n : Nat) (s : State) : State :=
  let w := s.plotIssued n
  if !s.owns s.here n then s.trapAt .e cFOWN 0#64 0#64
  else if bits org 7 0 ≠ 0 then s.trapAt .e cALIGN org 0#64
  else if fixedBase < org.toNat + 0x108000 then s.trapAt .e cPROT org 0#64
  else if plAct w = h ∨ plLoading w h then s.trapAt .e cFBUSY 0#64 0#64
  else s.sendField .reloadStart n 3 h (b2n fp4) org

/-- FSWAP (R351). -/
def State.fswap (n : Nat) (s : State) : State :=
  let w := s.plotIssued n
  if !s.owns s.here n then s.trapAt .e cFOWN 0#64 0#64
  else if !plCompute w (1 - plAct w) then s.trapAt .e cFBUSY 0#64 0#64
  else s.sendField .fswapPerform n 4 0 0 0#64

/-- FSTAT at latency 2 (R353). -/
def State.fstat (i : Instr) (d : BitVec 6) (n : Nat) (s : State) : State :=
  s.land 2 .e i [.s d (s.plotStatus n)] (opd (s.plotStatus n)) 0#1024 0#1024 (s.guardMask i) 0#64

/-- The macro-half index of a macro of a plot. -/
def halfIndex (n mr mc h : Nat) : Nat := n * 128 + 16 * mr + 2 * mc + h

/-- The location of byte b of a macro half by its index (Table 2-3). -/
def halfLoc (x b : Nat) : Nat := 5 * regionSize + 0x8000 * x + b

/-- The spare of its group takes the place of a macro: every row of both halves is under refetch (R354). -/
def State.replaceMacro (s : State) (n mr mc : Nat) : State :=
  let k := if mr < 4 then 30 else 36
  let rows := (List.range 264).flatMap fun r => [(halfIndex n mr mc 0, r), (halfIndex n mr mc 1, r)]
  let t := s.setPlot n (setBits (s.plotWord n) (k + 5) k (32 + 8 * (mr % 4) + mc))
  { t with refetch := t.refetch ++ rows
           agenda := t.agenda ++ rows.map fun r => { i := .rowRefetchComplete, x := r.1, y := r.2 } }

/-- FREMAP; firmware records the remap (R354, R429). -/
def State.fremap (v : Word) (s : State) : State :=
  let n := 256 * twrOf s.here + bits v 7 0
  let mr := bits v 10 8
  let mc := bits v 13 11
  let w := s.plotWord n
  let k := if mr < 4 then 30 else 36
  if w.getLsbD 53 || plCompute w 0 || plCompute w 1 || plLoading w 0 || plLoading w 1 then s.trapAt .e cFBUSY 0#64 0#64
  else if w.getLsbD (k + 5) then s.setPlot n (setBits w 63 63 1)
  else { (s.replaceMacro n mr mc) with remaps := s.remaps ++ [(n, mr, mc)] }

/-- FMAP (R348). -/
def execFmap (g : BitVec 4) (a : BitVec 6) (q : BitVec 5) (s : State) : Out := whenOn g s fun t => t.onPlot a q State.fmap
/-- FMAP_REL (R348). -/
def execFmapRel (g : BitVec 4) (a : BitVec 6) (q : BitVec 5) (s : State) : Out := whenOn g s fun t => t.onPlot a q State.fmapRel
/-- FMODE (R349). -/
def execFmode (g : BitVec 4) (a : BitVec 6) (m h : BitVec 1) (q : BitVec 5) (s : State) : Out :=
  whenOn g s fun t => t.onPlot a q (State.fmode (m == 1#1) h.toNat)
/-- FLOAD (R350). -/
def execFload (g : BitVec 4) (d a : BitVec 6) (k h : BitVec 1) (q : BitVec 5) (s : State) : Out :=
  whenOn g s fun t => t.onPlot a q (State.fload (t.sr d) (k == 1#1) h.toNat)
/-- FSWAP (R351). -/
def execFswap (g : BitVec 4) (a : BitVec 6) (q : BitVec 5) (s : State) : Out := whenOn g s fun t => t.onPlot a q State.fswap
/-- FGO (R352). -/
def execFgo (g : BitVec 4) (s : State) : Out := whenOn g s State.fgo
/-- FSTAT (R353). -/
def execFstat (g : BitVec 4) (d a : BitVec 6) (q : BitVec 5) (s : State) : Out :=
  whenOn g s fun t => t.onPlot a q (State.fstat (.fstat g d a q) d)
/-- FREMAP (R354). -/
def execFremap (g : BitVec 4) (a : BitVec 6) (s : State) : Out := whenSup .e g s fun t => t.fremap (t.sr a)

/-! ## Steps (R227, R329 to R334, R343) -/

/-- The integer and exponent of an element code, in MXFP4 or MXINT8 (Table 9-3). -/
def fieldInt (fp4 : Bool) (x : Nat) : Int :=
  if fp4 then (match Mx.e2m1.val x with
    | .fin neg m _ => if neg then -(m : Int) else m
    | _ => 0)
  else (BitVec.ofNat 8 x).toInt
/-- The exponent. -/
def fieldExp (fp4 : Bool) : Int := if fp4 then -1 else -6

/-- The weight code at plot row k and logical column c of half h: its byte or nibble (R24, R44). -/
def State.weight (s : State) (n h : Nat) (fp4 : Bool) (k c : Nat) : Nat :=
  let pc := if fp4 then c / 2 else c
  let b := (s.byteAt (halfLoc (halfIndex n (k / 256) (pc / 64) h) (64 * (k % 256) + pc % 64))).toNat
  if fp4 then b / 16 ^ (c % 2) % 16 else b

/-- The weight scale of row block b and physical column c. -/
def State.weightScale (s : State) (n h b c : Nat) : Nat :=
  (s.byteAt (halfLoc (halfIndex n (b / 8) (c / 64) h) (0x4000 + 64 * (b % 8) + c % 64))).toNat

/-- The activation code at index k of the vector at scratchpad location l. -/
def State.activation (s : State) (fp4 : Bool) (l k : Nat) : Nat :=
  if fp4 then (s.byteAt (l + k / 2)).toNat / 16 ^ (k % 2) % 16 else (s.byteAt (l + k)).toNat

/-- One term of a chain: an exact block sum under two scale codes (R227). -/
def chainTerm (S : Int) (xa xw : Nat) (e : Int) : Term :=
  if xa = 0xff ∨ xw = 0xff then .nan else .num S ((xa : Int) - 127 + ((xw : Int) - 127) + e)

/-- Output c of a step on half h of plot n, with elements at la and scales at ls (R227, R331). -/
def State.chain (s : State) (n h : Nat) (wf af tr : Bool) (la ls c : Nat) : BitVec 32 :=
  let e := fieldExp af + fieldExp wf
  windowSum ((List.range (if tr then 16 else 64)).map fun b =>
    let S := (List.range 32).foldl (fun (acc : Int) i =>
      let k := 32 * b + i
      acc + fieldInt af (s.activation af la k) *
        fieldInt wf (if tr then s.weight n h wf c k else s.weight n h wf k c)) 0
    let xw := if tr then s.weightScale n h (c / 32) (32 * b) else s.weightScale n h b (if wf then c / 2 else c)
    chainTerm S (s.byteAt (ls + b)).toNat xw e)

/-- A row of a macro half is poisoned (R135). -/
def State.halfPoisoned (s : State) (x : Nat) : Bool := s.poisonedAt (halfLoc x 0) 0x4200

/-- Output c of a step comes from a poisoned half (R135). -/
def State.outPoisoned (s : State) (n h : Nat) (wf tr : Bool) (c : Nat) : Bool :=
  (List.range 8).any fun k => s.halfPoisoned
    (if tr then halfIndex n (c / 256) k h else halfIndex n k ((if wf then c / 2 else c) / 64) h)

/-- The addresses and plot of step k of a nest: plot, activation and scale locations, first output word, overwrite; nothing for a
skipped step (R333, R343). -/
def State.nestPoint (s : State) (G : Nat) (ft : List Word) (k : Nat) : Option (Nat × Nat × Nat × Nat × Bool) :=
  let q := (ftAt ft ftPstep (bits (ftw ft 4) 4 0) k).toNat
  let aa := ftAt ft ftAstr (bits (ftw ft 0) 18 0) k
  let sa := ftAt ft ftSstr (bits (ftw ft 1) 18 0) k
  let ow := (ftAt ft ftOstr (bits (ftw ft 2) 15 0) k).toNat
  let ovw := bits (ftw ft 4) 9 8 == 1 ||
    ((List.range 6).any (ftOvw ft) && (List.range 6).all fun l => !ftOvw ft l || ftIndex ft k l == 0)
  if ftGather ft then
    let g := ftAt ft ftGstep 0 k
    let idx := s.natAt (locScratch G ((bits (ftw ft 3) 18 0 : Int) + 4 * g).toNat) 4
    if bits (ftw ft 4) 31 16 ≤ idx then none
    else some (plotOfQ G q, locScratch G (aa + 64 * (bits (ftw ft 3) 47 32) * idx).toNat,
      locScratch G (sa + 16 * (bits (ftw ft 3) 63 48) * idx).toNat, ow, ovw)
  else some (plotOfQ G q, locScratch G aa.toNat, locScratch G sa.toNat, ow, ovw)

/-- The macro halves of half h of a plot. -/
def halvesOf (n h : Nat) : List Nat := (List.range 64).map fun k => halfIndex n (k / 8) (k % 8) h

/-- Macro halves whose row checks a close awaits, every row of each. -/
def owing (l : List (Nat × Nat)) (xs : List Nat) : List (Nat × Nat) :=
  (l.filter fun q => !xs.any (· == q.1)) ++ xs.map fun x => (x, 264)

/-- The storage-view offset of a row of a macro half, as records name it (R140). -/
def rowOffset (x row : Nat) : Word := BitVec.ofNat 64 (0x8000 * (x % 0x8000) + 64 * row)

/-- The segment has an error in a half that it computed with: it rewinds where it would close (R145 step 1). -/
def Seg.spoilt (g : Seg) (x row : Nat) : Seg := { g with bad := true, badAt := if g.bad then g.badAt else rowOffset x row }

/-- An error in a half that a segment closed by a swap computed with, of the strand of context X: logged with severity 4 (R145). -/
def State.oweError (s : State) (X x row : Nat) : State :=
  s.reportCode (twrOf (X / 4)) 10 4 (X / 4) (X % 4) false 0 (rowOffset x row)

/-- A nest step computes on its plot: its outputs wait for the collector, and its segment, or its strand once a swap has closed the
segment, remembers the halves, and the errors found in them since the nest began (R145, R343). -/
def State.stepNest (s : State) (G : Nat) (t : Nest) : State :=
  match s.nestPoint G t.ft t.step with
  | none => s.onCore G fun c => { c with nest := some { t with step := t.step + 1 } }
  | some (n, la, ls, ow, ovw) =>
    let h := plAct (s.plotWord n)
    let wf := plFp4 (s.plotWord n) h
    let tr := ftTr t.ft
    let outs := ftOuts t.ft wf
    let vals := (List.range outs).map fun c => s.chain n h wf (ftFp4 t.ft) tr la ls c
    let gather := ftGather t.ft && s.poisonedAt (locScratch G ((bits (ftw t.ft 3) 18 0 : Int) + 4 * ftAt t.ft ftGstep 0 t.step).toNat) 4
    let all := t.poi || gather || s.poisonedAt la (ftBytes t.ft) || s.poisonedAt ls (ftElems t.ft / 32)
    let bad := (List.range outs).map fun c => all || s.outPoisoned n h wf tr c
    let out := (locAstore G (4 * ow), 4 * outs)
    let xs := halvesOf n h
    let met := t.errs.filter fun e => xs.any (· == e.1)
    let s1 := s.onCore G fun c => { c with
      nest := some { t with
        step := t.step + 1
        poi := all
        outs := if t.outs.any (· == out) then t.outs else t.outs ++ [out]
        errs := t.errs.filter fun e => !xs.any (· == e.1) }
      coll := c.coll ++ [(ow, ovw, vals, bad)] }
    let s2 := if t.seg then s1.onCtx t.x fun c => { c with seg := c.seg.map fun g =>
        (met.foldl (fun (g : Seg) e => g.spoilt e.1 e.2) { g with halves := owing g.halves xs }) }
      else if t.away then met.foldl (fun (u : State) e => u.oweError t.x e.1 e.2)
        (s1.onStrand G t.tag fun c => { c with owed := owing c.owed xs })
      else s1
    s2.queue { i := .collectorApply, x := G }

/-- A nest step may issue: its plot's earlier operations have performed, its ranges are free, and no row of its half is under
refetch (R124, R134, R338). -/
def State.nestReady (s : State) (G : Nat) (t : Nest) : Bool :=
  !(s.coreAt G).opWaits t.sbs && (match s.nestPoint G t.ft t.step with
    | none => true
    | some (n, _, _, _, _) =>
      !(s.fops.any fun o => o.plot == n && decide (o.id < t.id) && o.touches (ftHalf t.ft)) &&
      !(s.refetch.any fun r => (halvesOf n (plAct (s.plotWord n))).any (· == r.1)))

/-- The collector applies the oldest result to the A-store, word by word (R138, R334). -/
def State.collect (s : State) (G : Nat) : State :=
  match (s.coreAt G).coll with
  | [] => s
  | (ow, ovw, vals, bad) :: rest =>
    let who := match (s.coreAt G).nest with
      | some t => (t.x, t.seg)
      | none => (0, false)
    let l := locAstore G (4 * ow)
    let old := fun k => BitVec.ofNat 32 (s.natAt (l + 4 * k) 4)
    let new := vals.zipIdx.flatMap fun q => natToBytes 4 (if ovw then q.1 else addF (old q.2) q.1).toNat
    let marks := bad.zipIdx.filterMap fun q => if q.1 || (!ovw && s.poisonedAt (l + 4 * q.2) 4) then some (l + 4 * q.2) else none
    let s1 := (s.onCore G fun c => { c with coll := rest }).engineWrite G who.1 l who.2 new
    if s1.segLost who.1 who.2 then s1 else marks.foldl State.setPoison s1

/-- The sequencer takes the oldest committed nest once no nest runs (R346). -/
def State.startNest (s : State) (G : Nat) : State :=
  match (s.coreAt G).nest, (s.coreAt G).commits with
  | none, n :: rest => (s.onCore G fun c => { c with nest := some n, commits := rest }).queue { i := .nestStep, x := G }
  | _, [] => s
  | some _, _ => s.queue s.ev

/-- Every A-store word that the nest's steps have written marked poisoned (R138). -/
def State.poisonOutputs (s : State) (t : Nest) : State := t.outs.foldl (fun (u : State) q => u.poisonRange q.1 q.2) s

/-- The first row check that the strand with a tag on core G is owed, once it has no nest left (R145). -/
def State.oweNext (s : State) (G : Nat) (tag : BitVec 8) : State :=
  let more := ((s.coreAt G).nest.toList ++ (s.coreAt G).commits).any fun n => n.tag == tag && n.away
  match s.findCtx fun c => c.r.tag == tag && !c.owed.isEmpty with
  | some (X, _, c) =>
    if more || X / 4 != G then s
    else (match c.owed with
      | [] => s
      | (h, n) :: _ => s.queue { i := .rowCheck, x := h, y := 264 - n })
  | none => s

/-- A nest ends: its entries are released, and the checks that it leaves owed begin (R145, R344). -/
def State.endNest (s : State) (G : Nat) : State :=
  match (s.coreAt G).nest with
  | none => s
  | some t =>
    let u := ((if t.poi then s.poisonOutputs t else s).onCore G fun c => { (c.finish t.sbs) with nest := none }).opEnded t.id
    if t.away then u.oweNext G t.tag else u

/-- The scoreboard entries of an operation that it only reads. -/
def Core.readEntries (c : Core) (ids : List Nat) : List Nat := (c.sb.filter fun e => !e.wr && setHas ids e.id).map (·.id)

/-- One turn of the running nest: its next step once that may issue; after the last its ranges are read and those entries are released, and
its completion is due (R124, R343, R346). -/
def State.turnNest (s : State) (G : Nat) : State :=
  match (s.coreAt G).nest with
  | none => s
  | some t =>
    if ftSteps t.ft ≤ t.step then
      (s.onCore G fun c => c.release (c.readEntries t.sbs)).queue { i := .nestComplete, x := G }
    else if s.nestReady G t then (s.stepNest G t).queue { i := .nestStep, x := G }
    else s.queue s.ev

/-- The nest is complete once every step has run and every result has been applied (R334, R344). -/
def State.finishNest (s : State) (G : Nat) : State :=
  match (s.coreAt G).nest with
  | none => s
  | some t => if t.step < ftSteps t.ft || !(s.coreAt G).coll.isEmpty then s.queue s.ev else s.endNest G

/-! ## Reload and refetch (R134, R335 to R337) -/

/-- The origin register of half h of a plot. -/
def State.setOrigin (s : State) (n h : Nat) (w : Word) (v : Bool) : State :=
  let t := s.setReg (oFORG (plotTower n) (n % 256) h) (setBits w 7 0 (b2n v))
  t.setPlot n (setBits (t.plotWord n) (4 * h) (4 * h) (b2n v))

/-- The place of image row j (512 B) in macro column mc: macro-half index and byte (R335). -/
def imagePlace (n h j mc : Nat) : Nat × Nat :=
  if j < 2048 then (halfIndex n (j / 256) mc h, 64 * (j % 256))
  else (halfIndex n ((j - 2048) / 8) mc h, 0x4000 + 64 * ((j - 2048) % 8))

/-- What a read of an origin image finds: bytes, poison, and the difference of a CRC that fails; a fault; or a wait (R101, R137, R337). -/
inductive Origin where
  | line (bs : List Byte) (poi : Bool) (crc : Option Word)
  | fault (cause : BitVec 8) (va : Word)
  | wait (q : Tried)
  deriving DecidableEq, Repr, Inhabited

/-- n bytes of a line of an origin image at va, read by tower T's stream for core G at a level, as the first read of the line or not; such reads
never allocate in the S-layer (R73, R337). -/
def State.originPart (s : State) (n : Nat) (first : Bool) (T G : Nat) (sup : Bool) (va : Nat) : State × Origin :=
  let q : Tried := ⟨.tower T, G, sup, .read, va, n⟩
  match s.tried q with
  | (t, .fault c a) => (t, .fault c a)
  | (t, .busy) => (t, .wait q)
  | (t, .ask a) => (t, .fault cPAGE a)
  | (t, .ok ps) =>
    if !ps.all (fun p => isHbm p.1) then (t, .fault cPAGE (BitVec.ofNat 64 va))
    else if t.piecesWait noStrand 1536 true ps then (t, .wait q)
    else
      let crc := (ps.find? fun p => t.badCrcAt p.1 p.2.1).map fun p => t.crcSynd p.1
      (if first then ps.foldl (fun (u : State) p => u.sectorReads p.1 p.2.1 false) t else t,
        .line (ps.flatMap fun p => t.bytesAt p.1 p.2.1) (t.piecesPoisoned ps) crc)

/-- The 64 B of an origin image at va. -/
def State.originLine (s : State) (T G : Nat) (sup : Bool) (va : Nat) : State × Origin := s.originPart 64 true T G sup va

/-- The 16 B parts of an origin image (R335, R336). -/
def reloadParts : Nat := 0x108000 / 16

/-- The part that stands i-th among the parts left, and the parts left without it. -/
def takePart : List (Nat × Nat) → Nat → Option (Nat × List (Nat × Nat))
  | [], _ => none
  | (lo, hi) :: t, i =>
    if i < hi - lo then
      let k := lo + i
      some (k, (if lo < k then [(lo, k)] else []) ++ (if k + 1 < hi then [(k + 1, hi)] else []) ++ t)
    else (takePart t (i - (hi - lo))).map fun q => (q.1, (lo, hi) :: q.2)

/-- Parts left. -/
def partsLeft (l : List (Nat × Nat)) : Nat := (l.map fun q => q.2 - q.1).sum

/-- The location of part k of the origin image in half h of plot n (R335). -/
def partLoc (n h k : Nat) : Nat :=
  let place := imagePlace n h (k / 32) (k / 4 % 8)
  halfLoc place.1 place.2 + 16 * (k % 4)

/-- The first of the four parts of a row of a macro half (R335). -/
def rowPart (x row : Nat) : Nat :=
  let mr := x / 16 % 8
  let j := if row < 256 then 256 * mr + row else 2048 + 8 * mr + (row - 256)
  4 * (8 * j + x / 2 % 8)

/-- The half of a row is under reload. -/
def State.underReload (s : State) (x : Nat) : Bool := plLoading (s.plotWord (x / 128)) (x % 2)

/-- The half of a row is under reload, which has not yet written the row (R336). -/
def State.unwritten (s : State) (x row : Nat) : Bool :=
  s.underReload x && s.fops.any fun o => o.kind == 3 && o.plot == x / 128 && o.h == x % 2 &&
    (!o.started || o.left.any fun q => decide (q.1 < rowPart x row + 4) && decide (rowPart x row < q.2))

/-- A load changed in the list of field operations. -/
def State.onFop (s : State) (id : Nat) (f : FieldOp → FieldOp) : State :=
  { s with fops := s.fops.map fun o => if o.id == id then f o else o }

/-- Part k of a reload's image read and written: the row is poisoned where the line is poisoned, fails its CRC or faults (R137, R336, R337); or the
resolution that has to wait (R102). -/
def State.reloadPart (s : State) (op : FieldOp) (k : Nat) : State × Option Tried :=
  let l := partLoc op.plot op.h k
  let va := op.org.toNat + 16 * k
  match s.originPart 16 (decide (k % 4 = 0)) (plotTower op.plot) op.core op.sup va with
  | (t, .wait q) => (t, some q)
  | (t, .fault c a) =>
    ((t.setPoison l).onFop op.id fun o => { o with
      bad := true
      flt := match o.flt with
        | some f => if f.2.toNat ≤ a.toNat then some f else some (c, a)
        | none => some (c, a) }, none)
  | (t, .line bs poi crc) =>
    let u := t.putBytes l bs
    let v := if (crc.isSome || poi) && !u.poisonedAt l 1 then
        u.report (plotTower op.plot) (if poi then 9 else 15) 2 1536 0 false 0 (BitVec.ofNat 64 va &&& ~~~63#64) (if poi then 0#64 else crc.getD 0#64)
          0#64 else u
    (if poi || crc.isSome then (v.setPoison l).onFop op.id fun o => { o with bad := true } else v, none)

/-- The reload is the next of its cluster's queue, which the loads enter in plot order, and fewer than two of the cluster run (R336, R350). -/
def State.reloadNext (s : State) (op : FieldOp) : Bool :=
  let mine := s.fops.filter fun o => o.kind == 3 && cluOf o.core == cluOf op.core
  decide ((mine.filter (·.started)).length < 2) && mine.all fun o => o.started || decide (op.id ≤ o.id) || !s.fopReady o

/-- A reload begins to run: every part of its image is to be read; what its rows were marked with is gone, since each is written anew
(R135, R336). -/
def State.openReload (s : State) (op : FieldOp) : State :=
  let mine := fun (x : Nat) => decide (x / 128 = op.plot) && decide (x % 2 = op.h)
  ({ s with
    poison := s.poison.filter fun g => !(decide (regionOf g = 5) && mine ((g - 5 * regionSize) / 0x8000))
    refetch := s.refetch.filter fun r => !mine r.1 } : State).onFop op.id fun o => { o with started := true, left := [(0, reloadParts)] }

/-- RELOAD_START: in plot order the half enters compute mode and sets LD; the reload then runs when its turn comes (R336, R350). -/
def State.startReload (s : State) (op : FieldOp) : State :=
  if !s.fopReady op then s.queue s.ev
  else
    let t := s.setPlot op.plot (setBits (s.plotWord op.plot) (4 * op.h + 3) (4 * op.h + 2) 3)
    if op.started then t
    else if t.reloadNext op then (t.openReload op).queue { i := .reloadComplete, y := op.id }
    else t.queue s.ev

/-- A bind, mode change, swap or release performs in plot order (R338, R348 to R351). -/
def State.performField (s : State) (op : FieldOp) : State :=
  if s.fopReady op then
    ({ (s.setPlot op.plot (plApply op (s.plotWord op.plot))) with fops := s.fops.filter fun o => o.id != op.id } : State).opEnded op.id
  else s.queue s.ev

/-- The field operation that the event names, done with f. -/
def State.withFop (s : State) (f : State → FieldOp → State) : State :=
  match s.fops.find? fun o => o.id == s.ev.y with
  | none => s
  | some op => f s op

/-- A reload completes: LD clears, the half has its format, and its origin where nothing was bad; a fault is due to the strand (R336, R337). -/
def State.closeReload (s : State) (op : FieldOp) : State :=
  let t := { s with fops := s.fops.filter fun o => o.id != op.id }
  let w := setBits (setBits (t.plotWord op.plot) (4 * op.h + 3) (4 * op.h + 3) 0) (4 * op.h + 1) (4 * op.h + 1) op.v
  let u := (t.setPlot op.plot w).setOrigin op.plot op.h op.org (!op.bad)
  match op.flt with
  | none => u.opEnded op.id
  | some (c, a) => u.queue { i := .reloadFault, x := op.core, y := op.id, z := c.toNat, v := a, w := op.tfb }

/-- One performing of RELOAD_COMPLETE: the next part, whose place among those left the spec leaves open; after the last, the reload is complete
(R336). -/
def State.turnReload (s : State) (op : FieldOp) : State :=
  match takePart op.left (Config.freeIndex s.free % partsLeft op.left) with
  | none => s.closeReload op
  | some (k, rest) =>
    match s.reloadPart op k with
    | (_, some q) => (s.kept (some q)).queue s.ev
    | (t, none) => (({ t with free := t.free + 1 } : State).onFop op.id fun o => { o with left := rest }).queue s.ev

/-- The origin address of a row of a macro half (R134, R335). -/
def originRow (org : Word) (x row : Nat) : Nat :=
  let mr := x / 16 % 8
  let mc := x / 2 % 8
  bits org 63 8 * 256 +
    (if row < 256 then 512 * (256 * mr + row) + 64 * mc else 0x100000 + 512 * (8 * mr + (row - 256)) + 64 * mc)

/-- A row under refetch is rewritten from its half's origin, or poisoned (R134). -/
def State.refetchRow (s : State) (x row : Nat) : State :=
  let n := x / 128
  let h := x % 2
  let org := s.reg (oFORG (plotTower n) (n % 256) h)
  let l := halfLoc x (64 * row)
  let done := fun (t : State) => { t with refetch := t.refetch.filter fun r => r != (x, row) }
  let log := fun (t : State) (sev : Nat) => t.reportCode (plotTower n) 10 sev 1536 0 false 0 (rowOffset x row)
  let lost := fun (t : State) => log (done (t.poisonRange l 64)) 2
  if !org.getLsbD 0 then lost s
  else match s.originLine (plotTower n) (192 * plotTower n) true (originRow org x row) with
    | (t, .wait _) => t
    | (t, .line bs false none) => log (done (t.write l bs)) 1
    | (t, _) => lost t

/-- A row marked as under refetch, with its refetch due (R134). -/
def State.beginRefetch (s : State) (x row : Nat) : State :=
  if s.refetch.any (· == (x, row)) then s
  else { s with refetch := s.refetch ++ [(x, row)], agenda := s.agenda ++ [{ i := .rowRefetchComplete, x := x, y := row }] }

/-- A check has found an error in a row that no reload is still to write: the row is marked under refetch; the segments whose nests used the half
are spoiled, those of running nests that come to it are spoiled then, and for a segment closed by a swap the error is logged with severity 4 (R134,
R145, R336). -/
def State.rowError (s : State) (x row : Nat) : State :=
  if s.unwritten x row then s
  else
    let f := fun (c : Ctx) => { c with seg := c.seg.map fun g => if g.halves.any (fun q => q.1 == x) then g.spoilt x row else g }
    let k := fun (co : Core) => { co with nest := co.nest.map fun n =>
      if n.seg || n.away then { n with errs := n.errs ++ [(x, row)] } else n }
    let t : State := { s with
      ctx := f s.ctx, ctxs := s.ctxs.map fun (q : Nat × Ctx) => (q.1, f q.2)
      core := k s.core, cores := s.cores.map fun (q : Nat × Core) => (q.1, k q.2) }
    let u := match t.findCtx fun c => c.owed.any fun q => q.1 == x with
      | some (X, _, _) => t.oweError X x row
      | none => t
    u.beginRefetch x row

/-- A row check of the sweep: each counts for the closes that wait for it, and an error is acted upon (R134, R145). -/
def State.checkRow (s : State) (x row : Nat) (bad : Bool) : State :=
  let seen := fun (g : Seg) => { g with halves := g.halves.map fun q => if q.1 == x && q.2 + row == 264 then (q.1, q.2 - 1) else q }
  let f := fun (c : Ctx) => { c with seg := c.seg.map seen }
  let t := if bad then s.rowError x row else s
  { t with ctx := f t.ctx, ctxs := t.ctxs.map fun (q : Nat × Ctx) => (q.1, f q.2) }

end Sys2Proof.Machine
end

