-- ==== Sys2Proof/Machine/Sequences.lean ====
section
/-! DEFINITION. Sequences, splice and repair (R371 to R398): issue of the SQ and RPR instructions, the units' access to memory, and
every operation as one atomic step of its home tower's unit. -/

namespace Sys2Proof.Machine

/-! ## A unit's access to memory (R54, R68, R109, R380) -/

/-- Invalidations of the lines of some pieces applied everywhere: what a seal at .mod waits for (R123). -/
def State.sealPieces (s : State) (ps : List (Nat × Nat × Bool)) : State :=
  let ls := ps.flatMap fun p => linesOf p.1 p.2.1
  { s with inval := s.inval.filter fun v => !ls.any (· == v.line) }

/-- The window of a buffer of an RPR instruction is one that the unit reaches (R54, R393). -/
def bufferWindow (G : Nat) (va : Word) : Bool :=
  match decodeByte G va.toNat with
  | some (.paged, _) => true
  | some (.bazaar, _) => true
  | some (.entrepot, _) => true
  | _ => false

/-- n bytes at va resolved with the privilege of the issuing strand: pages of KIND 0; for a buffer any page, the own bazaar or an entrepôt (R54, R380,
R393). -/
def State.unitResolve (s : State) (q : SeqReq) (buf : Bool) (need : Need) (va : Word) (n : Nat) :
    Except Stop (List (Nat × Nat × Bool) × State) :=
  if !(bufferWindow (q.x / 4) va && (buf || decide (va.toNat < fixedBase))) then .error (.fault cPROT va)
  else
    let y : Tried := ⟨.tower q.twr, q.x / 4, q.sup, need, va.toNat, n⟩
    match s.tried y with
    | (_, .fault c a) => .error (.fault c a false (some y))
    | (_, .busy) => .error (.wait (some y))
    | (_, .ask a) => if buf then .error (.ask a (some y)) else .error (.fault cPROT a)
    | (t, .ok ps) =>
      if !buf && ps.any fun p => decide (regionOf p.1 = 7 ∨ 8 ≤ regionOf p.1) then .error (.fault cPROT va)
      else if t.piecesWait noStrand 1536 true ps then .error (.wait (some y))
      else .ok (ps, t.noteLinks (q.x / 4) ps)

/-- n bytes read by a unit: POISON and INTEG on what it reads (R137, R139, R380). -/
def State.unitBytes (s : State) (q : SeqReq) (buf : Bool) (va : Word) (n : Nat) : Except Stop (List Byte × State) := do
  let r ← s.unitResolve q buf .read va n
  if r.2.piecesPoisoned r.1 then throw (.fault cPOISON va)
  if r.2.piecesBad r.1 then throw (.fault cINTEG va)
  return (r.1.flatMap fun p => r.2.bytesAt p.1 p.2.1, r.2.countPieces true r.1)

/-- A number of n bytes read by a unit. -/
def State.unitRead (s : State) (q : SeqReq) (va : Word) (n : Nat) : Except Stop (Nat × State) := do
  let r ← s.unitBytes q false va n
  return (bytesToNat r.1, r.2)

/-- Bytes written by a unit, performed at .mod with every cached copy invalidated (R123, R372). -/
def State.unitWrite (s : State) (q : SeqReq) (buf : Bool) (va : Word) (bs : List Byte) : Except Stop State := do
  let r ← s.unitResolve q buf .write va bs.length
  return (r.2.homePieces r.1 bs).sealPieces r.1

/-- A number of n bytes written by a unit. -/
def State.unitPut (s : State) (q : SeqReq) (va : Word) (n x : Nat) : Except Stop State := s.unitWrite q false va (natToBytes n x)

/-- Eight-byte words read one after another. -/
def wordsOfBytes (n : Nat) (bs : List Byte) : List Word :=
  (List.range n).map fun k => BitVec.ofNat 64 (bytesToNat ((bs.drop (8 * k)).take 8))

/-- Zeros written by a unit. -/
def State.unitZero (s : State) (q : SeqReq) (va : Word) (n : Nat) : Except Stop State :=
  s.unitWrite q false va (List.replicate n 0#8)

/-! ## Descriptors and pools (Tables 16-1 to 16-4) -/

/-- A descriptor with its 32 doublewords (Table 16-2). -/
structure Desc where
  va : Word
  /-- Its location. -/
  pa : Nat
  w : List Word
  deriving DecidableEq, Repr, Inhabited

/-- Doubleword k. -/
def Desc.at (d : Desc) (k : Nat) : Word := d.w.getD k 0#64
/-- The descriptor with doubleword k replaced. -/
def Desc.put (d : Desc) (k : Nat) (x : Word) : Desc := { d with w := d.w.set k x }
/-- CL. -/
def Desc.cl (d : Desc) : Nat := (d.at 0).toNat
/-- RL. -/
def Desc.rl (d : Desc) : Nat := (d.at 1).toNat
/-- MODE: window. -/
def Desc.window (d : Desc) : Bool := (d.at 2).getLsbD 63
/-- LAYERS. -/
def Desc.layers (d : Desc) : Nat := bits (d.at 2) 55 48
/-- KD. -/
def Desc.kd (d : Desc) : Nat := bits (d.at 2) 31 16
/-- S. -/
def Desc.sink (d : Desc) : Nat := bits (d.at 3) 63 32
/-- W. -/
def Desc.ring (d : Desc) : Nat := bits (d.at 3) 31 0
/-- POOL. -/
def Desc.pool (d : Desc) : Word := d.at 4
/-- BTAB. -/
def Desc.btab (d : Desc) : Word := d.at 5
/-- NBLK. -/
def Desc.nblk (d : Desc) : Nat := bits (d.at 6) 31 0
/-- LTAB. -/
def Desc.ltab (d : Desc) : Word := d.at 7
/-- HTAB. -/
def Desc.htab (d : Desc) : Word := d.at 8
/-- REFC. -/
def Desc.refc (d : Desc) : Nat := bits (d.at 11) 63 32
/-- STATE. -/
def Desc.st (d : Desc) : Nat := bits (d.at 12) 1 0
/-- FILL. -/
def Desc.fills (d : Desc) : Nat :=
  (d.at 13).toNat + (d.at 14).toNat * 2 ^ 64 + (d.at 15).toNat * 2 ^ 128 + (d.at 16).toNat * 2 ^ 192
/-- FILL replaced. -/
def Desc.putFills (d : Desc) (x : Nat) : Desc :=
  (((d.put 13 (BitVec.ofNat 64 x)).put 14 (BitVec.ofNat 64 (x / 2 ^ 64))).put 15 (BitVec.ofNat 64 (x / 2 ^ 128))).put 16
    (BitVec.ofNat 64 (x / 2 ^ 192))
/-- GEN raised by 1 (Table 16-2). -/
def Desc.bump (d : Desc) : Desc := d.put 11 (setBits (d.at 11) 31 0 (bits (d.at 11) 31 0 + 1))

/-- A must-be-zero field of the descriptor is set; all asks for the words that SQFORK replaces in a child too. -/
def Desc.ill (d : Desc) (all : Bool) : Bool :=
  (all && (bits (d.at 2) 62 56 != 0 || bits (d.at 2) 47 32 != 0 || bits (d.at 2) 15 0 != 0)) || bits (d.at 6) 63 32 != 0 ||
  (d.w.drop 18).any (· != 0#64)

/-- A descriptor read whole, its location taken. -/
def State.readDesc (s : State) (q : SeqReq) (va : Word) : Except Stop (Desc × State) := do
  let r ← s.unitBytes q false va 256
  let p ← r.2.unitResolve q false .read va 1
  return ({ va := va, pa := (p.1.headD (0, 0, true)).1, w := wordsOfBytes 32 r.1 }, p.2)

/-- A descriptor read with its must-be-zero fields checked (R10, R380). -/
def State.liveDesc (s : State) (q : SeqReq) (va : Word) : Except Stop (Desc × State) := do
  let r ← s.readDesc q va
  if r.1.ill true then throw (.fault cILL va)
  return r

/-- A descriptor written back. -/
def State.saveDesc (s : State) (q : SeqReq) (d : Desc) : Except Stop State :=
  s.unitWrite q false d.va (d.w.flatMap fun x => natToBytes 8 x.toNat)

/-- A pool's eight doublewords (Table 16-1). -/
abbrev Pool := List Word

/-- PGSH. -/
def pgsh (p : Pool) : Nat := bits (p.getD 1 0#64) 3 0
/-- log2 of the page size. -/
def poolLg (p : Pool) : Nat := 12 + pgsh p
/-- Virtual address of page k (R374). -/
def pageVa (p : Pool) (k : Nat) : Word := p.getD 0 0#64 + BitVec.ofNat 64 (k * 2 ^ poolLg p)
/-- FTOP. -/
def ftop (p : Pool) : Nat := bits (p.getD 4 0#64) 28 0
/-- Address of a page's count (R374). -/
def countVa (p : Pool) (k : Nat) : Word := p.getD 2 0#64 + BitVec.ofNat 64 (4 * k)
/-- Address of entry i of the free stack. -/
def stackVa (p : Pool) (i : Nat) : Word := p.getD 3 0#64 + BitVec.ofNat 64 (4 * i)
/-- A must-be-zero field of the pool is set. -/
def poolIll (p : Pool) : Bool :=
  bits (p.getD 1 0#64) 63 61 != 0 || bits (p.getD 1 0#64) 31 4 != 0 || bits (p.getD 4 0#64) 63 29 != 0 ||
  bits (p.getD 6 0#64) 63 6 != 0 || p.getD 7 0#64 != 0#64

/-- The pool of a descriptor: homed at its tower, or SEQ_ORDER; must-be-zero fields checked (R373, R380). -/
def State.readPool (s : State) (q : SeqReq) (d : Desc) : Except Stop (Pool × State) := do
  let r ← s.unitBytes q false d.pool 64
  let p ← r.2.unitResolve q false .read d.pool 1
  if hbmTower (p.1.headD (0, 0, true)).1 ≠ hbmTower d.pa then throw (.fault cSORD 0#64)
  let w := wordsOfBytes 8 r.1
  if poolIll w then throw (.fault cILL d.pool)
  return (w, p.2)

/-- A page's count (R374). -/
def State.pageCount (s : State) (q : SeqReq) (p : Pool) (k : Nat) : Except Stop (Nat × State) := s.unitRead q (countVa p k) 4

/-- A page's count raised by 1. -/
def State.pageUp (s : State) (q : SeqReq) (p : Pool) (k : Nat) : Except Stop State := do
  let r ← s.pageCount q p k
  r.2.unitPut q (countVa p k) 4 (r.1 + 1)

/-- FTOP stored. -/
def State.putTop (s : State) (q : SeqReq) (d : Desc) (n : Nat) : Except Stop State := s.unitPut q (d.pool + 0x20#64) 8 n

/-- A page taken from the free stack with count 1 (R374): the page, and the pool as it then stands. -/
def State.allocPage (s : State) (q : SeqReq) (d : Desc) (p : Pool) : Except Stop (Nat × Pool × State) := do
  let n := ftop p - 1
  let r ← s.unitRead q (stackVa p n) 4
  let s1 ← r.2.unitPut q (countVa p r.1) 4 1
  let s2 ← s1.putTop q d n
  return (r.1, p.set 4 (BitVec.ofNat 64 n), s2)

/-- Page k of a pool as one that an operation gives up or copies (R106). -/
def pageOut (p : Pool) (k : Nat) (free : Bool) : Nat × Nat × Bool := ((pageVa p k).toNat, poolLg p, free)

/-- A page's count lowered by 1; at 0 the page returns to the stack (R374). -/
def State.pageDown (s : State) (q : SeqReq) (d : Desc) (p : Pool) (k : Nat) : Except Stop (Pool × State) := do
  let r ← s.pageCount q p k
  let s1 ← r.2.unitPut q (countVa p k) 4 (r.1 - 1)
  if r.1 = 1 then
    let s2 ← s1.unitPut q (stackVa p (ftop p)) 4 k
    let s3 ← s2.putTop q d (ftop p + 1)
    return (p.set 4 (BitVec.ofNat 64 (ftop p + 1)), s3)
  else return (p, s1)

/-- The same, with the page among those given up (R106). -/
def State.giveUp (s : State) (q : SeqReq) (d : Desc) (r : Pool × List (Nat × Nat × Bool)) (k : Nat) :
    Except Stop ((Pool × List (Nat × Nat × Bool)) × State) := do
  let (p, t) ← s.pageDown q d r.1 k
  return ((p, r.2 ++ [pageOut p k (decide (ftop r.1 < ftop p))]), t)

/-! ## Tables (R371, R377 to R379) -/

/-- slot(p) (R371). -/
def seqSlot (d : Desc) (p : Nat) : Nat := if p < d.sink then p else d.sink + (p - d.sink) % d.ring
/-- The table's block of position block b (R377). -/
def tableBlock (d : Desc) (b : Nat) : Nat := if d.window then seqSlot d (64 * b) / 64 else b
/-- Address of a block table entry (R377). -/
def entryVa (d : Desc) (l b : Nat) : Word := d.btab + BitVec.ofNat 64 (8 * (l * d.nblk + b))
/-- Address of a label. -/
def labelVa (d : Desc) (b : Nat) : Word := d.ltab + BitVec.ofNat 64 (8 * b)
/-- Address of a hallmark. -/
def hallVa (d : Desc) (b : Nat) : Word := d.htab + BitVec.ofNat 64 (8 * b)
/-- A doubleword of a table. -/
def State.unitWord (s : State) (q : SeqReq) (va : Word) : Except Stop (Word × State) := do
  let r ← s.unitRead q va 8
  return (BitVec.ofNat 64 r.1, r.2)
/-- A doubleword of a table stored. -/
def State.unitSet (s : State) (q : SeqReq) (va x : Word) : Except Stop State := s.unitPut q va 8 x.toNat

/-- PAGE of an entry (Table 16-3). -/
def entPage (e : Word) : Nat := bits e 63 32
/-- V. -/
def entV (e : Word) : Bool := e.getLsbD 31
/-- SH. -/
def entSh (e : Word) : Bool := e.getLsbD 30
/-- OV. -/
def entOv (e : Word) : Bool := e.getLsbD 29
/-- ORIG. -/
def entOrig (e : Word) : Nat := bits e 28 0
/-- SPL of a hallmark (Table 16-4). -/
def hallSpl (h : Word) : Bool := h.getLsbD 3
/-- CLS. -/
def hallCls (h : Word) : Bool := h.getLsbD 2
/-- LEVEL. -/
def hallLevel (h : Word) : Nat := bits h 7 4

/-- Every layer paired with every block. -/
def layerBlocks (layers : Nat) (bs : List Nat) : List (Nat × Nat) :=
  (List.range layers).flatMap fun l => bs.map fun b => (l, b)

/-- Pages that an operation gives up or copies: address, log2 of the size, and whether the page returns to its pool (R106). -/
abbrev Pages := List (Nat × Nat × Bool)

/-- What an operation that does not fault leaves: the state, the values it delivers, and the pages whose cached positions it invalidates (R106). -/
abbrev SeqDone := State × List Word × Pages

/-- A plain value. -/
def seqAnswer (s : State) (v : Word) : SeqDone := (s, [v], [])

/-- The value of a count that may be negative. -/
def intWord (x : Int) : Word := BitVec.ofInt 64 x

/-! ## Creating, growing and rolling back (R381 to R385) -/

/-- A range check of SQNEW fails (R381). -/
def newRange (d : Desc) (p : Pool) : Bool :=
  !(decide (1 ≤ d.layers ∧ d.layers ≤ 128 ∧ 1 ≤ d.kd ∧ 256 * d.kd ≤ 2 ^ poolLg p) && decide (pgsh p ≤ 8) &&
    decide (bits (p.getD 6 0#64) 5 0 ≤ 20) && decide (1 ≤ bits (p.getD 1 0#64) 60 32) &&
    (if d.window then
      decide (d.sink % 64 = 0 ∧ d.ring % 64 = 0 ∧ 256 ≤ d.ring ∧ d.nblk = (d.sink + d.ring) / 64)
    else decide (d.sink = 0 ∧ d.ring = 0 ∧ 1 ≤ d.nblk ∧ d.nblk ≤ 2 ^ 31)))

/-- An alignment check of SQNEW fails (R381). -/
def newSkew (d : Desc) (p : Pool) : Bool :=
  !(aligned d.pool.toNat 64 && aligned d.btab.toNat 8 && (d.window || (aligned d.ltab.toNat 8 && aligned d.htab.toNat 8)) &&
    aligned (p.getD 0 0#64).toNat (2 ^ poolLg p) && aligned (p.getD 2 0#64).toNat 4 && aligned (p.getD 3 0#64).toNat 4 &&
    aligned (p.getD 5 0#64).toNat 8)

/-- The block table, labels and hallmarks zeroed. -/
def State.zeroTables (s : State) (q : SeqReq) (d : Desc) : Except Stop State := do
  let s1 ← s.unitZero q d.btab (8 * (d.layers * d.nblk))
  if d.window then return s1
  else
    let s2 ← s1.unitZero q d.ltab (8 * d.nblk)
    s2.unitZero q d.htab (8 * d.nblk)

/-- The unit's fields of a new sequence: lengths, parent, fork length, count 1 and STATE 1, all else zero (R381, R386). -/
def Desc.fresh (d : Desc) (len : Nat) (parent : Word) : Desc :=
  let v := BitVec.ofNat 64 len
  ((((((((d.put 0 v).put 1 v).put 9 parent).put 10 v).put 11 (1#64 <<< 32)).put 12 1#64).putFills
    0).put 17 0#64)

/-- SQNEW (R381). -/
def State.sqNew (s : State) (q : SeqReq) : Except Stop SeqDone := do
  let (d, s1) ← s.readDesc q q.a
  if d.st = 1 ∨ d.st = 2 then throw (.fault cSORD 0#64)
  if d.ill true then throw (.fault cILL q.a)
  let (p, s2) ← s1.readPool q d
  if newSkew d p then throw (.fault cSALIGN 0#64)
  if newRange d p then throw (.fault cSORD 0#64)
  let s3 ← s2.zeroTables q d
  let s4 ← s3.saveDesc q (d.fresh 0 0#64)
  return seqAnswer s4 0#64

/-- Address of the registry entry of a document (R379). -/
def registryVa (p : Pool) (doc : Nat) : Word :=
  p.getD 5 0#64 + BitVec.ofNat 64 (8 * (doc % 2 ^ bits (p.getD 6 0#64) 5 0))

/-- Every hallmark of the blocks is zero. -/
def State.hallsZero (s : State) (q : SeqReq) (d : Desc) (bs : List Nat) : Except Stop (Bool × State) :=
  bs.foldlM (fun (r : Bool × State) b => do
    let (h, t) ← r.2.unitWord q (hallVa d b)
    return (r.1 && h == 0#64, t)) (true, s)

/-- SQNEW.REG (R381). -/
def State.sqRegister (s : State) (q : SeqReq) : Except Stop SeqDone := do
  let (d, s1) ← s.liveDesc q q.a
  if d.st ≠ 1 ∨ d.window ∨ d.rl ≠ d.cl ∨ d.cl % 64 ≠ 0 ∨ d.cl = 0 then throw (.fault cSORD 0#64)
  let (z, s2) ← s1.hallsZero q d (List.range (d.cl / 64))
  if !z then throw (.fault cSORD 0#64)
  let (p, s3) ← s2.readPool q d
  let s4 ← s3.saveDesc q (d.put 12 (setBits q.b 7 0 2))
  let s5 ← s4.unitSet q (registryVa p (bits q.b 63 24)) (setBits q.b 7 0 1)
  return seqAnswer s5 0#64

/-- The position blocks that positions from lo up to hi touch. -/
def blocksOf (lo hi : Nat) : List Nat := if hi ≤ lo then [] else rangeFrom (lo / 64) ((hi - 1) / 64 + 1)

/-- The entries of the blocks that need a page: V = 0, or shared with a count above 1 (R382). -/
def State.needPages (s : State) (q : SeqReq) (d : Desc) (p : Pool) (l : List (Nat × Nat)) :
    Except Stop (List (Nat × Nat × Word) × State) :=
  l.foldlM (fun (r : List (Nat × Nat × Word) × State) lb => do
    let (e, t) ← r.2.unitWord q (entryVa d lb.1 lb.2)
    if !entV e then return (r.1 ++ [(lb.1, lb.2, e)], t)
    else if entSh e then
      let (n, u) ← t.pageCount q p (entPage e)
      return (if 1 < n then r.1 ++ [(lb.1, lb.2, e)] else r.1, u)
    else return (r.1, t)) ([], s)

/-- A whole page copied. -/
def State.copyPage (s : State) (q : SeqReq) (p : Pool) (a b : Nat) : Except Stop State := do
  let r ← s.unitBytes q false (pageVa p a) (2 ^ poolLg p)
  r.2.unitWrite q false (pageVa p b) r.1

/-- Pages given to the entries that need one (R382). -/
def State.givePages (s : State) (q : SeqReq) (d : Desc) (p : Pool) (u : List (Nat × Nat × Word)) : Except Stop (Pool × State) :=
  u.foldlM (fun (r : Pool × State) e => do
    let (n, p1, s1) ← r.2.allocPage q d r.1
    let s2 ← if entV e.2.2 then do
        let t ← s1.copyPage q p1 (entPage e.2.2) n
        let (c, t1) ← t.pageCount q p1 (entPage e.2.2)
        t1.unitPut q (countVa p1 (entPage e.2.2)) 4 (c - 1)
      else pure s1
    let s3 ← s2.unitSet q (entryVa d e.1 e.2.1) (setBits e.2.2 63 30 (n * 4 + 2))
    return (p1, s3)) (p, s)

/-- Labels and hallmarks of blocks made valid, in order (R378). -/
def State.newLabels (s : State) (q : SeqReq) (d : Desc) (bs : List Nat) : Except Stop State :=
  bs.foldlM (fun (t : State) b => do
    let (v, t1) ← if b = 0 then pure (0#64, t) else do
      let (x, u) ← t.unitWord q (labelVa d (b - 1))
      pure (x + 64#64, u)
    let t2 ← t1.unitSet q (labelVa d b) v
    t2.unitSet q (hallVa d b) 0#64) s

/-- SQRSV (R382). -/
def State.sqReserve (s : State) (q : SeqReq) : Except Stop SeqDone := do
  let (d, s1) ← s.liveDesc q q.a
  let n := q.b.toNat
  if d.st ≠ 1 then throw (.fault cSORD 0#64)
  if n = 0 then return seqAnswer s1 (d.at 1)
  if d.cl + 256 < d.rl + n then return seqAnswer s1 (intWord (-1))
  if !d.window ∧ 64 * d.nblk < d.rl + n then return seqAnswer s1 (intWord (-3))
  let (p, s2) ← s1.readPool q d
  let bs := ((blocksOf d.rl (d.rl + n)).map (tableBlock d)).eraseDups
  let (u, s3) ← s2.needPages q d p (layerBlocks d.layers bs)
  if ftop p < u.length then return seqAnswer s3 (intWord (-2))
  let (_, s4) ← s3.givePages q d p u
  let old := (u.filter fun e => entV e.2.2).map fun e => pageOut p (entPage e.2.2) false
  let made := bs.filter fun b => u.any fun e => e.2.1 == b && !entV e.2.2
  let s5 ← if d.window then pure s4 else s4.newLabels q d made
  let s6 ← s5.saveDesc q ((d.put 1 (BitVec.ofNat 64 (d.rl + n))).bump)
  return (s6, [d.at 1], old)

/-- Number of consecutive 1 bits from bit 0, of at most n. -/
def onesFrom (x : Nat) : Nat → Nat
  | 0 => 0
  | n + 1 => if x % 2 = 1 then 1 + onesFrom (x / 2) n else 0

/-- The bits from lo up to hi. -/
def span (lo hi : Nat) : Nat := (2 ^ (hi - lo) - 1) * 2 ^ lo

/-- SQCMT (R383). -/
def State.sqCommit (s : State) (q : SeqReq) : Except Stop SeqDone := do
  let (d, s1) ← s.liveDesc q q.a
  let base := q.b.toNat
  let n := q.c.toNat
  if d.st ≠ 1 then throw (.fault cSORD 0#64)
  if n = 0 then return seqAnswer s1 (d.at 0)
  if base < d.cl ∨ d.rl < base + n then throw (.fault cSORD 0#64)
  let m := span (base - d.cl) (base + n - d.cl)
  if d.fills &&& m ≠ 0 then throw (.fault cSORD 0#64)
  let f := d.fills ||| m
  let k := onesFrom f 256
  let d1 := (d.put 0 (BitVec.ofNat 64 (d.cl + k))).putFills (f / 2 ^ k)
  let s2 ← s1.saveDesc q (if k = 0 then d1 else d1.bump)
  return seqAnswer s2 (d1.at 0)

/-- The pages of the blocks given up, entry by entry (R384). -/
def State.dropBlocks (s : State) (q : SeqReq) (d : Desc) (p : Pool) (l : List (Nat × Nat)) : Except Stop (Pages × State) := do
  let r ← l.foldlM (fun (r : (Pool × Pages) × State) lb => do
    let (e, t) ← r.2.unitWord q (entryVa d lb.1 lb.2)
    if entV e then
      let (p1, t1) ← t.giveUp q d r.1 (entPage e)
      let t2 ← t1.unitSet q (entryVa d lb.1 lb.2) 0#64
      return (p1, t2)
    else return (r.1, t)) ((p, []), s)
  return (r.1.2, r.2)

/-- SQABN (R384). -/
def State.sqAbandon (s : State) (q : SeqReq) : Except Stop SeqDone := do
  let (d, s1) ← s.liveDesc q q.a
  let base := q.b.toNat
  if d.st ≠ 1 ∨ base < d.cl ∨ base + q.c.toNat ≠ d.rl then throw (.fault cSORD 0#64)
  if d.fills &&& span (base - d.cl) (d.rl - d.cl) ≠ 0 then throw (.fault cSORD 0#64)
  let d1 := d.put 1 q.b
  let bs := (blocksOf base d.rl).filter fun b => decide (base ≤ 64 * b)
  let (out, s2) ← if d.window ∨ bs = [] then pure (([] : Pages), s1) else do
    let (p, t) ← s1.readPool q d
    let (out, t1) ← t.dropBlocks q d p (layerBlocks d.layers bs)
    let u ← bs.foldlM (fun (u : State) b => do
      let u1 ← u.unitSet q (labelVa d b) 0#64
      u1.unitSet q (hallVa d b) 0#64) t1
    pure (out, u)
  let s3 ← s2.saveDesc q (if base = d.rl then d1 else d1.bump)
  return (s3, [q.b], out)

/-- SQLEN (R385). -/
def State.sqLength (s : State) (q : SeqReq) : Except Stop SeqDone := do
  let (d, s1) ← s.liveDesc q q.a
  if d.st = 0 ∨ d.st = 3 then throw (.fault cSORD 0#64)
  return seqAnswer s1 (d.at 0)

/-! ## Fork and drop (R386, R387) -/

/-- One block of one layer shared from a parent: the count, the parent's SH, the child's entry; true when SH changed. -/
def State.sharePage (s : State) (q : SeqReq) (p : Pool) (par ch : Desc) (l b : Nat) : Except Stop (Bool × State) := do
  let (e, s1) ← s.unitWord q (entryVa par l b)
  let s2 ← s1.pageUp q p (entPage e)
  let s3 ← s2.unitSet q (entryVa par l b) (e ||| 0x40000000#64)
  let s4 ← s3.unitSet q (entryVa ch l b) (BitVec.ofNat 64 (entPage e * 2 ^ 32 + 0xc0000000))
  return (!entSh e, s4)

/-- SQFORK (R386). -/
def State.sqFork (s : State) (q : SeqReq) : Except Stop SeqDone := do
  let (par, s1) ← s.liveDesc q q.a
  let (ch0, s2) ← s1.readDesc q q.b
  if ch0.ill false then throw (.fault cILL q.b)
  let len := q.c.toNat
  let nb := (len + 63) / 64
  if (par.st ≠ 1 ∧ par.st ≠ 2) ∨ par.window ∨ par.cl < len ∨ ch0.st = 1 ∨ ch0.st = 2 ∨ ch0.nblk < nb ∨
      hbmTower ch0.pa ≠ hbmTower par.pa then throw (.fault cSORD 0#64)
  if !(aligned ch0.btab.toNat 8 && aligned ch0.ltab.toNat 8 && aligned ch0.htab.toNat 8) then throw (.fault cSALIGN 0#64)
  let (p, s3) ← s2.readPool q par
  let ch := ((ch0.put 2 (par.at 2)).put 3 (par.at 3)).put 4 (par.at 4)
  let s4 ← s3.zeroTables q ch
  let (changed, s5) ← (layerBlocks par.layers (List.range nb)).foldlM (fun (r : Bool × State) lb => do
    let (c, t) ← r.2.sharePage q p par ch lb.1 lb.2
    return (r.1 || c, t)) (false, s4)
  let s6 ← (List.range nb).foldlM (fun (t : State) b => do
    let (x, t1) ← t.unitWord q (labelVa par b)
    let t2 ← t1.unitSet q (labelVa ch b) x
    let (h, t3) ← t2.unitWord q (hallVa par b)
    t3.unitSet q (hallVa ch b) h) s5
  let s7 ← s6.saveDesc q (ch.fresh len q.a)
  let par1 := par.put 11 (setBits (par.at 11) 63 32 (par.refc + 1))
  let s8 ← s7.saveDesc q (if changed then par1.bump else par1)
  return seqAnswer s8 0#64

/-- SQDROP (R387). -/
def State.sqDrop (s : State) (q : SeqReq) : Except Stop SeqDone := do
  let (d, s1) ← s.liveDesc q q.a
  if d.st = 0 ∨ d.st = 3 then throw (.fault cSORD 0#64)
  let n := BitVec.ofNat 32 (d.refc - 1)
  let d1 := d.put 11 (setBits (d.at 11) 63 32 n.toNat)
  if n ≠ 0#32 then
    let s2 ← s1.saveDesc q d1
    return seqAnswer s2 (n.setWidth 64)
  let (p, s2) ← s1.readPool q d
  let (out, s3) ← (layerBlocks d.layers (List.range d.nblk)).foldlM (fun (r : (Pool × Pages) × State) lb => do
    let (e, t) ← r.2.unitWord q (entryVa d lb.1 lb.2)
    if entV e then
      let (p1, t1) ← t.giveUp q d r.1 (entPage e)
      if entOv e then t1.giveUp q d p1 (entOrig e) else return (p1, t1)
    else return (r.1, t)) ((p, []), s2)
  let s4 ← s3.saveDesc q (d1.put 12 (setBits (d1.at 12) 1 0 3))
  let par := d.at 9
  let s5 := if par = 0#64 then s4 else
    let f := s4.fresh
    let r : SeqReq := { q with id := f.1, i := .sqdrop 0#4 0#6, a := par, quiet := true }
    { f.2 with sqq := f.2.sqq ++ [r], agenda := f.2.agenda ++ [{ i := .sequenceUnitOperation, x := q.twr, y := f.1 }] }
  return (s5, [0#64], out.2)

/-! ## SQPOS (R388 to R392) -/

/-- Position x is readable, or reserved for F = 1 (R388). -/
def readable (d : Desc) (f : Bool) (x : Nat) : Bool :=
  if f then decide (d.cl ≤ x ∧ x < d.rl)
  else if d.window then decide (x < d.cl ∧ (x < d.sink ∨ max d.sink (d.rl - d.ring) ≤ x))
  else decide (x < d.cl)

/-- The 64-bit mask of position block b (R389). -/
def posMask (d : Desc) (f : Bool) (b : Nat) : Word :=
  BitVec.ofNat 64 ((List.range 64).foldl (fun acc i => if readable d f (64 * b + i) then acc + 2 ^ i else acc) 0)

/-- The registry names the document and version of a hallmark (R392). -/
def State.registryOk (s : State) (q : SeqReq) (p : Pool) (h : Word) : Except Stop (Bool × State) := do
  let (r, t) ← s.unitWord q (registryVa p (bits h 63 24))
  return (r.getLsbD 0 && bits r 63 8 == bits h 63 8, t)

/-- A key of the position translation cache: descriptor, layer, block (R105). -/
def ptcKey (pa l b : Nat) : Nat := pa * 2 ^ 40 + l % 128 * 2 ^ 33 + b % 2 ^ 33

/-- A position cached by the core of a request, of 256 entries, the oldest given up first; with the page's physical address and the size of the
translation that gives it (R105, R390). -/
def State.ptcFill (s : State) (q : SeqReq) (va : Word) (lg key : Nat) (m : Word) : State :=
  match s.unitResolve q false .read va 1 with
  | .ok ((l, _, _) :: _, t) =>
    let G := q.x / 4
    let leaf := ((t.cached (.tower q.twr) .read va.toNat).map (·.lg)).getD 12
    let mine := t.ptc.filter fun e => e.core == G && e.key != key
    { t with ptc := ⟨G, key, va, l, lg, leaf, m⟩ :: mine.take 255 ++ t.ptc.filter fun e => e.core != G }
  | _ => s

/-- SQPOS at the unit (R389). -/
def State.sqPosition (s : State) (q : SeqReq) (f w : Bool) : Except Stop SeqDone := do
  let (d, s1) ← s.liveDesc q q.a
  let l := q.c.toNat % 128
  if (d.st ≠ 1 ∧ d.st ≠ 2) ∨ d.layers ≤ l then throw (.fault cSORD 0#64)
  let b := q.b.toNat / 64
  if !d.window ∧ d.nblk ≤ b then return (s1, [0#64, 0#64], [])
  let blk := tableBlock d b
  let (h, s2) ← if d.window then pure (0#64, s1) else s1.unitWord q (hallVa d blk)
  let (p, s3) ← s2.readPool q d
  let s4 ← if hallSpl h then do
      let (ok, t) ← s3.registryOk q p h
      if !ok then throw (.fault cSSTALE 0#64)
      if w && !((hallLevel h != 15 && decide (l ≤ hallLevel h)) || hallCls h) then throw (.wait)
      pure t
    else pure s3
  let (e, s5) ← s4.unitWord q (entryVa d l blk)
  let va := if entV e then pageVa p (entPage e) else 0#64
  let m := posMask d f b
  let s6 := if !f && !d.window && !hallSpl h && decide (64 * b + 64 ≤ d.cl) && entV e then
    s5.ptcFill q va (poolLg p) (ptcKey d.pa l b) m else s5
  return (s6, [va, m], [])

/-! ## Splice and repair (R391 to R397) -/

/-- BLK0 of qg4. -/
def qgBlk (g : List Word) : Nat := bits (g.getD 4 0#64) 63 32
/-- NBK. -/
def qgCount (g : List Word) : Nat := bits (g.getD 4 0#64) 31 16
/-- LAY. -/
def qgLayer (g : List Word) : Nat := bits (g.getD 4 0#64) 6 0

/-- SQSPLC (R391). -/
def State.sqSplice (s : State) (q : SeqReq) : Except Stop SeqDone := do
  let (d, s1) ← s.liveDesc q q.a
  let k0 := qgBlk q.stg
  let n := qgCount q.stg
  if d.window ∨ d.st ≠ 1 ∨ d.rl ≠ d.cl then throw (.fault cSORD 0#64)
  if d.cl % 64 ≠ 0 then throw (.fault cSALIGN 0#64)
  let (src, s2) ← s1.liveDesc q q.b
  if src.st ≠ 2 ∨ src.pool ≠ d.pool ∨ src.layers ≠ d.layers ∨ src.kd ≠ d.kd ∨ src.cl / 64 < k0 + n ∨
      d.nblk < d.cl / 64 + n ∨ hbmTower src.pa ≠ hbmTower d.pa then throw (.fault cSORD 0#64)
  if n = 0 then return seqAnswer s2 (d.at 0)
  let (p, s3) ← s2.readPool q d
  let s4 ← (List.range n).foldlM (fun (t : State) k => do
    let b := d.cl / 64 + k
    let t1 ← (List.range d.layers).foldlM (fun (u : State) l => do
      let (e, u1) ← u.unitWord q (entryVa src l (k0 + k))
      let u2 ← u1.pageUp q p (entPage e)
      u2.unitSet q (entryVa d l b) (BitVec.ofNat 64 (entPage e * 2 ^ 32 + 0xc0000000))) t
    let t2 ← t1.unitSet q (labelVa d b) (q.c + BitVec.ofNat 64 (64 * k))
    t2.unitSet q (hallVa d b) (setBits (src.at 12) 7 0 0xf8)) s3
  let v := BitVec.ofNat 64 (d.cl + 64 * n)
  let s5 ← s4.saveDesc q (((d.put 0 v).put 1 v).bump)
  return seqAnswer s5 v

/-- The checks that RPRCHK and RPRINS make of each named block before any work; lvl gives the level that it must hold, or any
(R394, R395). -/
def State.repairCheck (s : State) (q : SeqReq) (d : Desc) (bs : List Nat) (lvl : Option Nat) : Except Stop State :=
  bs.foldlM (fun (t : State) b => do
    if d.nblk ≤ b ∨ d.cl < 64 * b + 64 then throw (.fault cRORD 0#64)
    let (h, t1) ← t.unitWord q (hallVa d b)
    if !hallSpl h then throw (.fault cRORD 0#64)
    match lvl with
    | some v => if hallCls h ∨ hallLevel h ≠ v then throw (.fault cRORD 0#64)
    | none => pure ()
    return t1) s

/-- The named blocks. -/
def namedBlocks (q : SeqReq) : List Nat := (List.range (qgCount q.stg)).map (· + qgBlk q.stg)

/-- Address of row j of a buffer (R393). -/
def rowVa (q : SeqReq) (k j : Nat) : Word := q.stg.getD k 0#64 + BitVec.ofNat 64 (j * bits (q.stg.getD 1 0#64) 31 0)

/-- The largest deviation of a stored key row from a recomputed one (R394). -/
def deviation (kd : Nat) (kr ks : List Byte) : BitVec 32 :=
  let el := fun (l : List Byte) e => Fmt.bf16.val (bytesToNat ((l.drop (2 * e)).take 2))
  (List.range kd).foldl (fun (acc : BitVec 32) e => nanmax acc (toF32 ((el kr e).add (el ks e).neg).abs)) 0#32

/-- RPRCHK of one block: the bitmap (R394). -/
def State.checkBlock (s : State) (q : SeqReq) (d : Desc) (p : Pool) (b : Nat) : Except Stop (Nat × State) := do
  let (e, s1) ← s.unitWord q (entryVa d (qgLayer q.stg) b)
  let thr := valF ((q.stg.getD 5 0#64).setWidth 32)
  (List.range 64).foldlM (fun (r : Nat × State) o => do
    let (kr, t) ← r.2.unitBytes q true (rowVa q 0 (64 * (b - qgBlk q.stg) + o)) (2 * d.kd)
    let (ks, t1) ← t.unitBytes q false (pageVa p (entPage e) + BitVec.ofNat 64 (o * 2 * d.kd)) (2 * d.kd)
    let dev := valF (deviation d.kd kr ks)
    return (if dev.isNan || thr.lt dev then r.1 + 2 ^ o else r.1, t1)) (0, s1)

/-- RPRCHK (R394). -/
def State.repairMeasure (s : State) (q : SeqReq) : Except Stop SeqDone := do
  let (d, s1) ← s.liveDesc q q.a
  if d.st ≠ 1 then throw (.fault cSORD 0#64)
  if d.window ∨ (d.layers ≤ qgLayer q.stg ∧ 0 < qgCount q.stg) then throw (.fault cRORD 0#64)
  let s2 ← s1.repairCheck q d (namedBlocks q) none
  let (p, s3) ← s2.readPool q d
  let (n, s4) ← (namedBlocks q).foldlM (fun (r : Nat × State) b => do
    let (m, t) ← r.2.checkBlock q d p b
    let t1 ← t.unitWrite q true (q.stg.getD 2 0#64 + BitVec.ofNat 64 (8 * (b - qgBlk q.stg))) (natToBytes 8 m)
    return (r.1 + popCount m 64, t1)) (0, s3)
  return seqAnswer s4 (BitVec.ofNat 64 n)

/-- The rows of one repaired block written into its new page (R395). -/
def State.installRows (s : State) (q : SeqReq) (d : Desc) (p : Pool) (page k m : Nat) : Except Stop State :=
  (List.range 64).foldlM (fun (t : State) o => do
    if bitOf m o then
      let (kr, t1) ← t.unitBytes q true (rowVa q 0 (64 * k + o)) (2 * d.kd)
      let (vr, t2) ← t1.unitBytes q true (rowVa q 3 (64 * k + o)) (2 * d.kd)
      let t3 ← t2.unitWrite q false (pageVa p page + BitVec.ofNat 64 (o * 2 * d.kd)) kr
      t3.unitWrite q false (pageVa p page + BitVec.ofNat 64 (2 ^ poolLg p / 2 + o * 2 * d.kd)) vr
    else return t) s

/-- RPRINS (R395). -/
def State.repairInstall (s : State) (q : SeqReq) : Except Stop SeqDone := do
  let (d, s1) ← s.liveDesc q q.a
  let l := qgLayer q.stg
  let n := qgCount q.stg
  if d.st ≠ 1 then throw (.fault cSORD 0#64)
  if d.window ∨ (0 < n ∧ (15 ≤ l ∨ d.layers ≤ l)) then throw (.fault cRORD 0#64)
  let s2 ← s1.repairCheck q d (namedBlocks q) (some (if l = 0 then 15 else l - 1))
  let (p, s3) ← s2.readPool q d
  if ftop p < n then return seqAnswer s3 (1#64 <<< 63)
  let (out, s4) ← (namedBlocks q).foldlM (fun (r : (Pool × Pages) × State) b => do
    let k := b - qgBlk q.stg
    let (m, t0) ← r.2.unitBytes q true (q.stg.getD 2 0#64 + BitVec.ofNat 64 (8 * k)) 8
    let (page, p1, t1) ← t0.allocPage q d r.1.1
    let (e, t2) ← t1.unitWord q (entryVa d l b)
    let t3 ← t2.copyPage q p1 (entPage e) page
    let t4 ← t3.installRows q d p1 page k (bytesToNat m)
    let t5 ← t4.unitSet q (entryVa d l b) (BitVec.ofNat 64 (page * 2 ^ 32 + 0xa0000000 + entPage e % 2 ^ 29))
    let (h, t6) ← t5.unitWord q (hallVa d b)
    let t7 ← t6.unitSet q (hallVa d b) (setBits h 7 4 l)
    return ((p1, r.1.2 ++ [pageOut p (entPage e) false]), t7)) ((p, []), s3)
  let d1 := d.put 17 (setBits (d.at 17) 63 32 (bits (d.at 17) 63 32 + n))
  let s5 ← s4.saveDesc q (if n = 0 then d1 else d1.bump)
  return (s5, [BitVec.ofNat 64 n], out.2)

/-- LOW of RPRSTAT: 0xFF with no open block, 0xF while one has no layer repaired, else the lowest level (R396). -/
def lowLevel (open' : List Word) : Nat :=
  if open'.isEmpty then 0xff
  else if open'.any fun h => hallLevel h == 15 then 15
  else open'.foldl (fun m h => min m (hallLevel h)) 15

/-- RPRSTAT (R396). -/
def State.repairStatus (s : State) (q : SeqReq) (cls : Bool) : Except Stop SeqDone := do
  let (d, s1) ← s.liveDesc q q.a
  if d.st = 0 ∨ d.st = 3 ∨ d.st = 2 then throw (.fault cSORD 0#64)
  let (hs, s2) ← (if d.window then [] else List.range d.nblk).foldlM (fun (r : List (Nat × Word) × State) b => do
    let (h, t) ← r.2.unitWord q (hallVa d b)
    return (if hallSpl h && !hallCls h then r.1 ++ [(b, h)] else r.1, t)) (([] : List (Nat × Word)), s1)
  let v := BitVec.ofNat 64 (bits (d.at 17) 63 32 * 2 ^ 32 + min hs.length 65535 * 2 ^ 16 + lowLevel (hs.map (·.2)))
  if cls && !hs.isEmpty then
    let s3 ← hs.foldlM (fun (t : State) bh => t.unitSet q (hallVa d bh.1) (bh.2 ||| 4#64)) s2
    let s4 ← s3.saveDesc q d.bump
    return seqAnswer s4 v
  else return seqAnswer s2 v

/-! ## Arrival at the unit (R372, R380) -/

/-- The operation of a request. -/
def State.seqOp (s : State) (q : SeqReq) : Except Stop SeqDone :=
  match q.i with
  | .sqnew _ _ => s.sqNew q
  | .sqnewReg _ _ _ => s.sqRegister q
  | .sqrsv _ _ _ => s.sqReserve q
  | .sqcmt _ _ _ _ _ => s.sqCommit q
  | .sqabn _ _ _ _ => s.sqAbandon q
  | .sqfork _ _ _ _ => s.sqFork q
  | .sqdrop _ _ => s.sqDrop q
  | .sqlen _ _ => s.sqLength q
  | .sqpos _ _ _ _ x w => s.sqPosition q (x == 1#1) (w == 1#1)
  | .sqsplc _ _ _ _ => s.sqSplice q
  | .rprchk _ _ => s.repairMeasure q
  | .rprins _ _ => s.repairInstall q
  | .rprstat _ _ c => s.repairStatus q (c == 1#1)
  | _ => .error (.wait)

/-- The values of an operation on their way to the ALQ entries, in ring order (R120, R389). -/
def State.seqReply (s : State) (q : SeqReq) (vs : List Word) : State :=
  if q.quiet then s
  else vs.zipIdx.foldl (fun (t : State) v => t.answer q.x (q.slot + BitVec.ofNat 4 v.2) (q.id + v.2) v.1 0) s

/-- A fault of an operation; that of an SQPOS marks both of its entries as it arrives (R380). -/
def State.seqFault (s : State) (q : SeqReq) (cause : BitVec 8) (va : Word) : State :=
  if q.quiet then s else s.answerFault q.x q.slot q.id cause va

/-- A store of the strand c that was issued up to bundle bc, or that a drain in progress or interrupted by a trap waits for, has not performed at
a scope (R108, R116, R126). -/
def State.storesLeft (s : State) (G : Nat) (c : Ctx) (bc : Word) (sc : Nat) : Bool :=
  c.flight.any (fun a => !isLoadInstr a.i && (c.drn.getLsbD 0 || decide (a.bc.toInt ≤ bc.toInt))) ||
  c.drnBack.any (fun d => d.1.getLsbD 0) ||
  s.inval.any fun v => v.src == strandOn G c.r.tag && !v.acc && inScope sc G v.core

/-- A request may be performed: earlier ones of its context at the tower have arrived but for an SQPOS that waits, and the drain of
an SQCMT has ended (R126, R372, R383). -/
def State.seqReady (s : State) (q : SeqReq) : Bool :=
  let first := (s.sqq.takeWhile fun r => r.id != q.id).all fun r => r.x != q.x || r.twr != q.twr || (match r.i with
    | .sqpos _ _ _ _ _ w => w == 1#1
    | _ => false)
  let drained := match q.i with
    | .sqcmt _ _ _ _ c =>
      (match s.findCtx (Ctx.hasEntry q.id) with
        | some (x, _, k) => !s.storesLeft (x / 4) k q.bc c.toNat
        | none => true)
    | _ => true
  first && drained

/-! ## Issue (R380, R393) -/

/-- The checks of s[a] (R380). -/
def State.descTrap (s : State) (a : Word) : Option (BitVec 8) :=
  match decodeByte s.here a.toNat with
  | none => some cBOUND
  | some (.paged, _) => if aligned a.toNat 256 then none else some cALIGN
  | some _ => if badRange s.here a 1 then some cBOUND else some cPROT

/-- The staging registers qg0 to qg5 as read at issue. -/
def State.qgs (s : State) : List Word := (List.range 6).map fun k => s.gr (48 + k)

/-- The checks of R393 on the registers that an RPR instruction reads: the cause and the buffer's address. -/
def repairTrap (G : Nat) (g : List Word) (ins : Bool) : Option (BitVec 8 × Word) :=
  let w := fun k => g.getD k 0#64
  let odd := fun (x : Word) => x.getLsbD 0
  let bufs := if ins then [w 0, w 2, w 3] else [w 0, w 2]
  if bits (w 1) 63 32 != 0 || bits (w 4) 15 7 != 0 || (!ins && bits (w 5) 63 32 != 0) then some (cILL, 0#64)
  else if let some x := bufs.find? fun x => badRange G x 1 then some (cBOUND, x)
  else if odd (w 0) then some (cALIGN, w 0)
  else if odd (w 1) then some (cALIGN, 0#64)
  else if !aligned (w 2).toNat 8 then some (cALIGN, w 2)
  else if ins && odd (w 3) then some (cALIGN, w 3)
  else (bufs.find? fun x => !bufferWindow G x).map fun x => (cPROT, x)

/-- A request sent to the unit of the descriptor's home, with n ALQ entries reserved for its values (R372, R380). -/
def State.sendSeq (s : State) (i : Instr) (a b c : Word) (stg : List Word) (n : Nat) : State :=
  let twr := match (translate s (.core s.here) a.toNat s.ctx.r.sup .read).2 with
    | .ok l _ => hbmTower l % 8
    | _ => twrOf s.here
  let r := s.reserve .e i a b c stg
  let t := if n = 2 then (r.2.2.reserve .e i a b c stg).2.2 else r.2.2
  let q : SeqReq := { id := r.1, bc := s.ctx.r.bc, twr := twr, x := s.me, slot := r.2.1, i := i, a := a, b := b, c := c,
                      stg := stg, sup := s.ctx.r.sup }
  { t with sqq := t.sqq ++ [q], agenda := t.agenda ++ [{ i := .sequenceUnitOperation, x := twr, y := r.1 }] }

/-- An SQ or RPR instruction at issue: its traps, room in the ALQ, the close of an open segment, then the request; trap gives the
checks that follow those of s[a], drain the scope of an implicit DRAIN.S (R126, R144, R380, R393). -/
def State.seqIssue (s : State) (i : Instr) (a b d : BitVec 6) (stg : List Word) (n : Nat)
    (trap : Option (BitVec 8 × Word)) (drain : Option Nat := none) : State :=
  match s.descTrap (s.sr a) with
  | some c => s.trapAt .e c (s.sr a) 0#64
  | none =>
    match trap with
    | some c => s.trapAt .e c.1 c.2 0#64
    | none =>
      if 16 < s.ctx.r.alq.length + n then s.block
      else afterClose s fun t =>
        match drain with
        | none => t.sendSeq i (t.sr a) (t.sr b) (t.sr d) stg n
        | some sc => t.afterDrain 1#3 sc fun u => u.sendSeq i (u.sr a) (u.sr b) (u.sr d) stg n

/-- SQNEW (R381). -/
def execSqnew (g : BitVec 4) (a : BitVec 6) (s : State) : Out :=
  whenOn g s fun t => t.seqIssue (.sqnew g a) a 0#6 0#6 [] 1 none
/-- SQNEW.REG (R381). -/
def execSqnewReg (g : BitVec 4) (a b : BitVec 6) (s : State) : Out :=
  whenOn g s fun t => t.seqIssue (.sqnewReg g a b) a b 0#6 [] 1 none
/-- SQRSV (R382). -/
def execSqrsv (g : BitVec 4) (a b : BitVec 6) (s : State) : Out :=
  whenOn g s fun t => t.seqIssue (.sqrsv g a b) a b 0#6 [] 1 none
/-- SQCMT: its DRAIN.S, of the scope that it names, freezes issue; the stores of its own bundle are waited for before the next (R126, R383,
Table 5-4). -/
def execSqcmt (g : BitVec 4) (d a b : BitVec 6) (c : BitVec 3) (s : State) : Out :=
  whenOn g s fun t => t.seqIssue (.sqcmt g d a b c) a b d [] 1 none (some c.toNat)
/-- SQABN (R384). -/
def execSqabn (g : BitVec 4) (d a b : BitVec 6) (s : State) : Out :=
  whenOn g s fun t => t.seqIssue (.sqabn g d a b) a b d [] 1 none
/-- SQFORK (R386). -/
def execSqfork (g : BitVec 4) (d a b : BitVec 6) (s : State) : Out :=
  whenOn g s fun t => t.seqIssue (.sqfork g d a b) a b d [] 1 none
/-- SQDROP (R387). -/
def execSqdrop (g : BitVec 4) (a : BitVec 6) (s : State) : Out :=
  whenOn g s fun t => t.seqIssue (.sqdrop g a) a 0#6 0#6 [] 1 none
/-- SQLEN (R385). -/
def execSqlen (g : BitVec 4) (a : BitVec 6) (s : State) : Out :=
  whenOn g s fun t => t.seqIssue (.sqlen g a) a 0#6 0#6 [] 1 none
/-- SQPOS: x is F and w is W (R389). -/
def execSqpos (g : BitVec 4) (d a b : BitVec 6) (x w : BitVec 1) (s : State) : Out :=
  whenOn g s fun t => t.seqIssue (.sqpos g d a b x w) a b d [] 2 none
/-- SQSPLC: qg4's must-be-zero bits and layer field trap ILL (R391, R393). -/
def execSqsplc (g : BitVec 4) (d a b : BitVec 6) (s : State) : Out :=
  whenOn g s fun t => t.seqIssue (.sqsplc g d a b) a b d t.qgs 1 (if bits (t.gr 52) 15 0 != 0 then some (cILL, 0#64) else none)
/-- RPRCHK (R394). -/
def execRprchk (g : BitVec 4) (a : BitVec 6) (s : State) : Out :=
  whenOn g s fun t => t.seqIssue (.rprchk g a) a 0#6 0#6 t.qgs 1 (repairTrap t.here t.qgs false)
/-- RPRINS (R395). -/
def execRprins (g : BitVec 4) (a : BitVec 6) (s : State) : Out :=
  whenOn g s fun t => t.seqIssue (.rprins g a) a 0#6 0#6 t.qgs 1 (repairTrap t.here t.qgs true)
/-- RPRSTAT (R396). -/
def execRprstat (g : BitVec 4) (a : BitVec 6) (c : BitVec 1) (s : State) : Out :=
  whenOn g s fun t => t.seqIssue (.rprstat g a c) a 0#6 0#6 t.qgs 1 none

end Sys2Proof.Machine
end

