-- ==== Sys2Proof/Machine/Channel.lean ====
section
/-! DEFINITION. The channel table of a tower's dispatcher (R169, R170). -/

namespace Sys2Proof.Machine

/-- The pipeline in slot pid of tower T. -/
def State.pipeAt (s : State) (T pid : Nat) : Option Pipe := s.pipes.find? fun p => p.twr == T && p.pid == pid

/-- The pipeline in a slot changed. -/
def State.onPipe (s : State) (T pid : Nat) (f : Pipe → Pipe) : State :=
  { s with pipes := s.pipes.map fun p => if p.twr == T && p.pid == pid then f p else p }

/-- Channel c of the pipeline in a slot. -/
def State.chanAt (s : State) (T pid c : Nat) : Option Chan := (s.pipeAt T pid).bind fun p => p.chans[c]?

/-- A channel changed. -/
def State.onChan (s : State) (T pid c : Nat) (f : Chan → Chan) : State :=
  s.onPipe T pid fun p => { p with chans := p.chans.modify c f }

/-- The channel holds CAP entries (R170). -/
def Chan.full (c : Chan) : Bool := decide (c.cap ≤ c.tail - c.head)

/-- Every entry that a CHENQ has claimed a CHDEQ has claimed (R170). -/
def Chan.empty (c : Chan) : Bool := c.deq == c.tail

/-- Available entries that no CHDEQ has claimed (R170). -/
def Chan.occupancy (c : Chan) : Nat := c.avail - c.deq

/-- Bytes of an entry. -/
def Chan.entryBytes (c : Chan) : Nat := (c.esz + 1) * 64

/-- The window address of entry k (R169). -/
def Chan.entryVa (c : Chan) (k : Nat) : Word :=
  (if c.kind then c.base else 0xffffffffe0000000#64 + c.base) + BitVec.ofNat 64 (k % c.cap * c.entryBytes)

/-- Entries become available in entry order (R170). -/
def Chan.publish : Nat → Chan → Chan
  | 0, c => c
  | n + 1, c => if setHas c.fin c.avail then Chan.publish n { c with fin := setDel c.fin c.avail, avail := c.avail + 1 } else c

/-- HEAD advances over dequeued entries in entry order (R170). -/
def Chan.retire : Nat → Chan → Chan
  | 0, c => c
  | n + 1, c => if setHas c.freed c.head then Chan.retire n { c with freed := setDel c.freed c.head, head := c.head + 1 } else c

/-- The bytes of entry k have performed: it becomes available in its turn (R299). -/
def State.entryWritten (s : State) (T pid c k : Nat) : State :=
  (s.onChan T pid c fun ch => { ch with fin := setIns ch.fin k }).queue { i := .channelEntryAvailable, x := T, y := pid, z := c }

/-- Entry k has been dequeued (R300). -/
def State.entryRead (s : State) (T pid c k : Nat) : State :=
  s.onChan T pid c fun ch => (Chan.retire (ch.freed.length + 1) { ch with freed := setIns ch.freed k })

/-- The stage record of the current strand, when it is a task (R168). -/
def State.myStage (s : State) : Option Stage :=
  if s.ctx.task then
    (s.pipeAt s.ctx.home (s.ctx.r.stage.toNat / 16)).bind fun p => p.stages[s.ctx.r.stage.toNat % 16]?
  else none

/-- Slot of the current task's pipeline. -/
def State.myPid (s : State) : Nat := s.ctx.r.stage.toNat / 16

end Sys2Proof.Machine
end

