-- ==== Sys2Proof/Machine/Copy.lean ====
section
/-! DEFINITION. The copy engines (R207 to R209, R399 to R404): the queue of a context, the checks at issue, the payload in 16 B
parts, seals, faults and resumption. -/

namespace Sys2Proof.Machine

/-! ## The virtual engine queue (R208, Table 8-10) -/

/-- Doublewords stored in a strand's queue area; a store of it that faults is lost, and one that waits stops the operation (log 23). -/
def State.eqStore (s : State) (v : Via) (G : Nat) (tfb : Word) (off : Nat) (ws : List Word) : Except Stop State :=
  match s.putWordsVA v G (tfb + BitVec.ofNat 64 (0x7b00 + off)) ws with
  | .error (.fault _ _ _ u) => .ok (s.kept u)
  | r => r

/-- The strand holds command id. -/
def Ctx.hasCmd (id : Nat) (c : Ctx) : Bool := c.eq.any fun q => q.id == id

/-- A command changed wherever its strand is held. -/
def State.onCmd (s : State) (id : Nat) (f : Cmd → Cmd) : State :=
  s.mapCtx (Ctx.hasCmd id) fun c => { c with eq := c.eq.map fun q => if q.id == id then f q else q }

/-- The context's queue has no room for another command (R399). -/
def State.eqFull (s : State) : Bool := decide (16 ≤ s.ctx.eq.length)

/-- A command with its FORM bits written at bit lo of its first word (R400, R406). -/
def formWord (w : Word) (lo form : Nat) : Word := setBits w (lo + 1) lo form

/-- A command enters the queue of the current context and its record is written (R208). While a page of the queue is BUSY issue is frozen, and
while it is asked of the host the strand is blocked (R98, R102). -/
def State.pushCmd (s0 s : State) (c : Cmd) (ev : Instr) : State :=
  let k := s.ctx.eqHead + s.ctx.eq.length
  let tfb := s.ctx.r.tfb
  let push := fun (t : State) => (t.withCtx fun x => { x with eq := x.eq ++ [c] }).queue { i := ev, x := s.me, y := c.id }
  match (s.eqStore (.core s.here) s.here tfb (0x100 + 64 * (k % 16)) c.w).bind fun t =>
      t.eqStore (.core s.here) s.here tfb 0 [BitVec.ofNat 64 s.ctx.eqHead, BitVec.ofNat 64 (k + 1)] with
  | .ok t => push t
  | .error (.ask va u) => (s0.kept u).sleepHere va (fun _ => push s) State.block
  | .error e => (s0.after' e).freeze

/-! ## Rows of a command (R400, R402) -/

/-- Bytes of a row. -/
def copyLen (w : List Word) : Nat := bits (w.getD 0 0#64) 31 0

/-- Number of rows. -/
def copyRows (i : Instr) (w : List Word) : Nat :=
  match i with
  | .cpy2 _ => bits (w.getD 0 0#64) 47 32
  | .cpyg _ => bits (w.getD 0 0#64) 47 32
  | .cpyf _ => bits (w.getD 0 0#64) 47 32
  | _ => 1

/-- CPYG indexes its destination. -/
def copyXside (w : List Word) : Bool := (w.getD 7 0#64).getLsbD 32

/-- Source and destination address of row r, whose index of CPYG is i, in exact arithmetic (R402). -/
def copyRow (op : Instr) (w : List Word) (r i : Nat) : Int × Int :=
  let src : Int := (w.getD 1 0#64).toNat
  let dst : Int := (w.getD 2 0#64).toNat
  let ist : Int := bits (w.getD 7 0#64) 31 0
  match op with
  | .cpyg _ =>
    if copyXside w then (src + (r : Int) * copyLen w, dst + (i : Int) * ist)
    else (src + (i : Int) * ist, dst + (r : Int) * copyLen w)
  | .cpy2 _ => (src + (r : Int) * sbits (w.getD 3 0#64) 63 32, dst + (r : Int) * sbits (w.getD 3 0#64) 31 0)
  | .cpyf _ => (src, dst + (r : Int) * sbits (w.getD 3 0#64) 31 0)
  | _ => (src, dst)

/-- The rows of a side that the checks at issue look at; an indexed side gives its span over every index (R401). -/
def sideRows (op : Instr) (w : List Word) (dst : Bool) : List (Int × Int) :=
  let n := copyRows op w
  let len := copyLen w
  let pick := fun (q : Int × Int) => if dst then q.2 else q.1
  let indexed := match op with
    | .cpyg _ => copyXside w == dst
    | _ => false
  if n = 0 ∨ len = 0 then []
  else if indexed then [(pick (copyRow op w 0 0), pick (copyRow op w 0 (2 ^ 32 - 1)) + len)]
  else (List.range n).map fun r => (pick (copyRow op w r 0), pick (copyRow op w r 0) + len)

/-- The span of some rows. -/
def spanOf (l : List (Int × Int)) : Int × Int :=
  match l with
  | [] => (0, 0)
  | a :: t => t.foldl (fun q b => (min q.1 b.1, max q.2 b.2)) a

/-- One side of a copy as the checks find it: a local range, the windows of a remote side's rows, or a failing check. -/
inductive Side where
  | near (r : Rng)
  | far (ws : List Win)
  | bad
  deriving DecidableEq, Repr, Inhabited

/-- A side of a command checked for BOUND (R401). -/
def copySide (G : Nat) (op : Instr) (w : List Word) (dst : Bool) : Side :=
  let base := (w.getD (if dst then 2 else 1) 0#64).toNat
  let rows := sideRows op w dst
  let sp := spanOf rows
  match decodeByte G base with
  | none => .bad
  | some (v, l) =>
    if v.isLocal then
      (if rows.isEmpty then .near (l, l, dst)
       else if sp.1 < 0 ∨ 2 ^ 64 < sp.2 then .bad
       else match decodeRange G sp.1.toNat (sp.2 - sp.1).toNat with
        | some (u, l0) => if u = v then .near (l0, l0 + (sp.2 - sp.1).toNat, dst) else .bad
        | none => .bad)
    else if rows.all fun r => rowWhole G r.1 r.2 then
      .far (v :: rows.filterMap fun r => (decodeByte G r.1.toNat).map (·.1))
    else .bad

/-- Windows that the remote side may name (R49, R54). -/
def farOk (dst : Bool) : Win → Bool
  | .paged => true
  | .bazaar => true
  | .entrepot => true
  | .fieldv => !dst
  | _ => false

/-- A seal address lies in the paged region, the own bazaar or an entrepôt (R401). -/
def sealOk (G : Nat) (a : Word) : Bool :=
  match decodeByte G a.toNat with
  | some (w, _) => farOk true w
  | none => false

/-- A must-be-zero field of a copy's staging words is set, or its SCOPE is out of range (Table 17-1). -/
def copyIll (op : Instr) (w : List Word) : Bool :=
  let g := w.getD 0 0#64
  decide (6 ≤ bits g 63 61) || bits g 59 56 != 0 || bits g 53 48 != 0 || bits (w.getD 7 0#64) 63 33 != 0 ||
  (match op with
    | .cpy _ => bits g 47 32 != 0
    | _ => false)

/-- The index list of CPYG: its range in the scratchpad, or nothing. -/
def indexRange (G : Nat) (op : Instr) (w : List Word) : Option Rng :=
  let n := 4 * copyRows op w
  match decodeRange G (w.getD 6 0#64).toNat (max n 1) with
  | some (.scratch, l) => some (l, l + n, false)
  | _ => none

/-- A copy's checks at issue: a cause and address, or its local ranges (R401). -/
def State.copyCheck (s : State) (op : Instr) (w : List Word) : Except (BitVec 8 × Word) (List Rng) :=
  let fill := match op with
    | .cpyf _ => true
    | _ => false
  let gather := match op with
    | .cpyg _ => true
    | _ => false
  let se := (w.getD 0 0#64).getLsbD 60
  let src := if fill then Side.far [.paged] else copySide s.here op w false
  let dst := copySide s.here op w true
  let near := fun (x : Side) => match x with
    | .near r => [r]
    | _ => []
  let bad := fun (x : Side) => x == Side.bad
  let far := fun (x : Side) (d : Bool) => match x with
    | .far vs => vs.any fun v => !farOk d v
    | _ => false
  let rs := near src ++ near dst
  if copyIll op w then .error (cILL, 0#64)
  else if bad src then .error (cBOUND, w.getD 1 0#64)
  else if bad dst then .error (cBOUND, w.getD 2 0#64)
  else if gather && badRange s.here (w.getD 6 0#64) (max (4 * copyRows op w) 1) then .error (cBOUND, w.getD 6 0#64)
  else if se && badRange s.here (w.getD 4 0#64) 1 then .error (cBOUND, w.getD 4 0#64)
  else if se && !aligned (w.getD 4 0#64).toNat 8 then .error (cALIGN, w.getD 4 0#64)
  else if gather && !aligned (w.getD 6 0#64).toNat 4 then .error (cALIGN, w.getD 6 0#64)
  else if (!fill && rs.length != 1) || far src false then .error (cPROT, w.getD 1 0#64)
  else if far dst true then .error (cPROT, w.getD 2 0#64)
  else if gather && (indexRange s.here op w).isNone then .error (cPROT, w.getD 6 0#64)
  else if se && !sealOk s.here (w.getD 4 0#64) then .error (cPROT, w.getD 4 0#64)
  else
    let all := rs ++ (if gather then (indexRange s.here op w).toList else [])
    match all.find? fun r => s.rangeRefused r with
    | some _ => .error (cBANK, 0#64)
    | none => .ok (all.filter fun r => decide (r.1 < r.2.1))

/-- The eight copy staging registers. -/
def State.cgs (s : State) : List Word := (List.range 8).map fun k => s.gr k

/-- A copy instruction at issue (R399 to R401). -/
def State.copy (s : State) (op : Instr) (form : Nat) : State :=
  let w := s.cgs
  match s.copyCheck op w with
  | .error c => s.trapAt .e c.1 c.2 0#64
  | .ok rs =>
    if s.eqFull || !s.sbRoom rs.length then s.block
    else
      let q := s.fresh
      let e := q.2.enter q.1 rs
      s.pushCmd e.2 { id := q.1, i := op, w := w.set 0 (formWord (w.getD 0 0#64) 54 form), x := s.me, core := s.here, sup := s.ctx.r.sup, bc := s.ctx.r.bc, sbs := e.1, seg := s.inSeg } .copyCommandStart

/-- CPY (R401). -/
def execCpy (g : BitVec 4) (s : State) : Out := whenOn g s fun t => t.copy (.cpy g) 0
/-- CPY2 (R401). -/
def execCpy2 (g : BitVec 4) (s : State) : Out := whenOn g s fun t => t.copy (.cpy2 g) 1
/-- CPYG (R401). -/
def execCpyg (g : BitVec 4) (s : State) : Out := whenOn g s fun t => t.copy (.cpyg g) 2
/-- CPYF (R401). -/
def execCpyf (g : BitVec 4) (s : State) : Out := whenOn g s fun t => t.copy (.cpyf g) 3

/-! ## Access of the engines (R45 to R47, R54, R137, R138) -/

/-- A command of the copy engines, not of the collective engine. -/
def isCopy : Instr → Bool
  | .cpy _ | .cpy2 _ | .cpyg _ | .cpyf _ | .chenq _ _ _ | .chdeq _ _ _ => true
  | _ => false

/-- The translation caches that a command's engine goes through: its cluster's copy engines, or its tower's collective engine (Table 4-5). -/
def Cmd.via (c : Cmd) : Via := if isCopy c.i then .cluster (cluOf c.core) else .tower (twrOf c.core)

/-- n bytes of a command's side resolved for its strand's level (R54, R91, R402). -/
def State.sideResolve (s : State) (c : Cmd) (need : Need) (va n : Nat) : Except Stop (List (Nat × Nat × Bool) × State) :=
  let wr := decide (need = .write)
  let at' := BitVec.ofNat 64 va
  let q : Tried := ⟨c.via, c.core, c.sup, need, va, n⟩
  match s.tried q with
  | (_, .fault k a) => .error (.fault k a wr (some q))
  | (_, .busy) => .error (.wait (some q))
  | (_, .ask a) => .error (.ask a (some q))
  | (t, .ok ps) =>
    if ps.any fun p => t.waitsAt p.1 p.2.1 then .error (.wait (some q))
    else if ps.any fun p => decide (regionOf p.1 = 5) && !c.sup && !t.ownsPlot c.core (plotOf p.1).1 (plotOf p.1).2 then
      .error (.fault cFOWN at' wr (some q))
    else if t.piecesBusy ps then .error (.fault cFBUSY at' wr (some q))
    else if t.piecesRefetch ps then .error (.wait (some q))
    else .ok (ps, t)

/-- A location lies in local memory. -/
def isLocal (l : Nat) : Bool := decide (regionOf l = 1 ∨ regionOf l = 2)

/-- The location of byte k of some pieces. -/
def pieceByte : List (Nat × Nat × Bool) → Nat → Nat
  | [], _ => 0
  | (l, n, _) :: t, k => if k < n then l + k else pieceByte t (k - n)

/-- Bytes written by an engine at the memory side, by a part of its row, the first or not; cov as in writeCover (R109, R138). -/
def State.homeCover (s : State) (first : Bool) (cov : Option Bool) (l : Nat) (bs : List Byte) : State :=
  if s.isFenced l then s
  else
    let s1 := if cov.isNone then s.noteMerge l bs.length else s
    let s2 := (linesOf l bs.length).foldl (fun (t : State) a => t.recallLine noStrand a) s1
    let s3 := (requested first l bs.length).foldl (fun (t : State) a => t.countSector a) s2
    let s4 := (linesOf l bs.length).foldl (fun (t : State) a => t.sectorDirty a (t.bytesAt a 64)) s3
    (s4.writeCover cov l bs).wakeMonitors l bs.length

/-- Bytes written by an engine: local memory under the undo log of the command's segment, remote memory at its home (R144); cov as in
writeCover. -/
def State.engineStore (s : State) (c : Cmd) (first : Bool) (cov : Option Bool) : List (Nat × Nat × Bool) → List Byte → State
  | [], _ => s
  | (l, n, _) :: ps, bs =>
    let t := if isLocal l then s.engineWrite c.core c.x l c.seg (bs.take n) else s.homeCover first cov l (bs.take n)
    if t.segLost c.x c.seg then t else t.engineStore c first cov ps (bs.drop n)

/-- The remote lines that a command has written, with some more (R123). -/
def Cmd.addWrote (c : Cmd) (ps : List (Nat × Nat × Bool)) : Cmd :=
  { c with wrote := c.wrote ++ ((ps.flatMap fun p => if isLocal p.1 then [] else linesOf p.1 p.2.1).filter fun l => !setHas c.wrote l) }

/-- n bytes moved from src to dst with their poison; what goes into local memory or over a link from a line that fails its CRC arrives poisoned,
into local memory with a record of class 15, and poison found there is reported with the class of its place (R137, R138, R212, log 51); cov as
in writeCover. -/
def State.moveBytes (s : State) (c : Cmd) (src dst n : Nat) (first : Bool) (cov : Option Bool) : Except Stop State := do
  let (ss, s1) ← s.sideResolve c .read src n
  let (ds, s2) ← s1.sideResolve c .write dst n
  let s2 := (s2.noteLinks c.core (ss ++ ds)).enginePieces (twrOf c.core) first ss
  let bs := ss.flatMap fun p => s2.bytesAt p.1 p.2.1
  let toLocal := ds.any fun p => isLocal p.1
  let toLink := ds.any fun p => decide (8 ≤ regionOf p.1)
  let leaves := ds.any fun p => isLocal p.1 || decide (8 ≤ regionOf p.1)
  let poi := fun (k : Nat) =>
    let l := pieceByte ss k
    s2.poisonedAt l 1 || s2.isFenced l || (leaves && s2.badCrcAt l 1)
  let s3 := s2.engineStore c first cov ds bs
  if s3.segLost c.x c.seg then return s3
  let s4 := ((List.range n).filter poi).foldl (fun (t : State) k => t.setPoison (pieceByte ds k)) s3
  let note := fun (t : State) (cls : Nat) (synd : Word) =>
    t.report (twrOf c.core) cls 2 c.core (c.x % 4) c.seg 0 (BitVec.ofNat 64 src) synd 0#64
  let s5 := if !toLocal && !toLink then s4
    else if s2.piecesPoisoned ss then note s4 (classOf (pieceByte ss 0)) 0#64
    else if toLocal && s2.piecesBad ss then note s4 15 (s2.crcSynd (pieceByte ss 0))
    else s4
  return s5.onCmd c.id fun q => q.addWrote ds

/-- n bytes at dst filled with the pattern (R402). -/
def State.fillBytes (s : State) (c : Cmd) (dst n : Nat) (first : Bool) (cov : Option Bool) : Except Stop State := do
  let (ds, s1) ← s.sideResolve c .write dst n
  let pat := natToBytes 8 (c.w.getD 6 0#64).toNat
  let bs := (List.range n).map fun k => pat.getD ((dst + k) % 8) 0#8
  return ((s1.noteLinks c.core ds).engineStore c first cov ds bs).onCmd c.id fun q => q.addWrote ds

/-- The index of row r of CPYG, read once for the row (R402). -/
def State.rowIndex (s : State) (c : Cmd) (r : Nat) : Nat :=
  match findKey c.idx r with
  | some i => i
  | none =>
    match indexRange c.core c.i c.w with
    | some q => s.natAt (q.1 + 4 * r) 4
    | none => 0

/-- The command with the index of row r read, and the indices of rows that no resumption comes back to forgotten (R209, R402). -/
def State.readIndex (s : State) (c : Cmd) (r : Nat) : Cmd :=
  match c.i with
  | .cpyg _ => { c with idx := putKey (c.idx.filter fun q => decide (c.prog / 256 * 256 < (q.1 + 1) * copyLen c.w)) r (s.rowIndex c r) }
  | _ => c

/-- Bytes of a command's payload. -/
def Cmd.total (c : Cmd) : Nat := copyRows c.i c.w * copyLen c.w

/-- The bytes of row r of a command replace the 64 B granule of destination byte k0, and no source byte of it is poisoned: how a part that
ends at byte k1 writes it (R138). -/
def State.partCover (s : State) (c : Cmd) (q : Int × Int) (k0 k1 : Nat) : Option Bool :=
  let d := q.2.toNat
  let g := (d + k0) / 64 * 64
  if decide (d ≤ g) && decide (g + 64 ≤ d + copyLen c.w) then
    let clean := match c.i with
      | .cpyf _ => true
      | _ =>
        match s.sideResolve c .read (q.1.toNat + (g - d)) 64 with
        | .ok (ps, t) => !t.piecesPoisoned ps
        | .error _ => false
    if clean then some (decide (d + k1 = g + 64)) else none
  else none

/-- Where the next part of a command ends, counted in bytes of its payload: at a 16 B boundary of its destination or at the end of its row
(R117, R402). -/
def State.partEnd (s : State) (c : Cmd) : Nat :=
  let len := copyLen c.w
  let r := c.prog / len
  let k := c.prog % len
  let d := (copyRow c.i c.w r (s.rowIndex c r)).2.toNat + k
  c.prog + min (16 - d % 16) (len - k)

/-- The next part of a command's payload: at most 16 B, aligned at its destination; the parts perform in ascending order (R117, R402,
log 52). -/
def State.copyStep (s : State) (c : Cmd) : Except Stop State :=
  let len := copyLen c.w
  let r := c.prog / len
  let k0 := c.prog % len
  let k1 := k0 + (s.partEnd c - c.prog)
  let q := copyRow c.i c.w r (s.rowIndex c r)
  let cov := s.partCover c q k0 k1
  let t := s.onCmd c.id fun d => { d with idx := (s.readIndex c r).idx }
  match c.i with
  | .cpyf _ => t.fillBytes c (q.2.toNat + k0) (k1 - k0) (decide (k0 = 0)) cov
  | _ => t.moveBytes c (q.1.toNat + k0) (q.2.toNat + k0) (k1 - k0) (decide (k0 = 0)) cov

/-! ## Completion, seals and faults (R123, R209, R301, R403) -/

/-- A command's payload has performed at its seal's scope: every core inside it that held a copy of its remote lines has accepted the
invalidation (R109, R123). -/
def State.sealReady (s : State) (scope G : Nat) (ls : List Nat) : Bool :=
  !s.inval.any fun v => !v.acc && inScope scope G v.core && ls.any (· == v.line)

/-- Accepted invalidations of a command's remote lines applied inside the seal's scope (R123). -/
def State.sealLines (s : State) (scope G : Nat) (ls : List Nat) : State :=
  { s with inval := s.inval.filter fun v => !(inScope scope G v.core && ls.any (· == v.line)) }

/-- A command leaves its queue; its scoreboard entries go, and a channel transfer has its effect on its channel (R209, R301). -/
def State.endCmd (s : State) (c : Cmd) : Except Stop State :=
  match s.findCtx (Ctx.hasCmd c.id) with
  | none => .ok s
  | some (x, _, k) => do
    let s1 := s.finishSb c.core c.sbs
    let s2 ← s1.eqStore (.cluster (cluOf c.core)) (x / 4) k.r.tfb 0
      [BitVec.ofNat 64 (k.eqHead + 1), BitVec.ofNat 64 (k.eqHead + k.eq.length), 0#64]
    let s3 := s2.mapCtx (Ctx.hasCmd c.id) fun q => { q with eq := q.eq.filter fun d => d.id != c.id, eqHead := q.eqHead + 1 }
    return match c.i with
      | .chenq _ _ _ => s3.entryWritten c.twr c.pid c.ch c.entry
      | .chdeq _ _ _ => (s3.entryRead c.twr c.pid c.ch c.entry).answer x c.slot (c.id + 1) (BitVec.ofNat 64 c.entry) 0
      | _ => s3

/-- The seal of a command: nothing where it has none; the doubleword at the seal address k, with value and scope, once the payload has performed
at the scope; the command remembers its lines (R123, R399, R403). -/
def State.writeSeal (s : State) (c : Cmd) (k : Nat) : Except Stop State := do
  let w := c.w.getD 0 0#64
  if !w.getLsbD 60 then return s
  if !s.sealReady (bits w 63 61) c.core c.wrote then throw (.wait none)
  let a := c.w.getD k 0#64
  let (ps, t) ← s.sideResolve c .write a.toNat 8
  let u := (t.noteLinks c.core ps).sealLines (bits w 63 61) c.core c.wrote
  return (u.homePieces ps (natToBytes 8 (c.w.getD (k + 1) 0#64).toNat)).onCmd c.id fun q =>
    { q with sealed := some (ps.flatMap fun p => linesOf p.1 p.2.1) }

/-- A command whose seal is written, or that has none, is complete once the seal has performed at its scope (R399). -/
def State.sealEnd (s : State) (c : Cmd) : Except Stop State :=
  let ls := ((s.findCtx (Ctx.hasCmd c.id)).bind fun q => (q.2.2.eq.find? fun d => d.id == c.id).bind (·.sealed)).getD []
  if s.sealReady (bits (c.w.getD 0 0#64) 63 61) c.core ls then s.endCmd c else .ok (s.queue s.ev)

/-- A try of a command's event: its new state; a fault on its way; or another try. -/
def State.cmdTry (s : State) (id : Nat) (q : Except Stop State) : State :=
  match q with
  | .ok t => t
  | .error (.fault k a wr u) =>
    (s.kept u).queue { i := .engineCommandFault, x := s.ev.x, y := id, z := k.toNat, v := a, w := BitVec.ofNat 64 (b2n wr) }
  | .error (.wait u) => (s.kept u).queue s.ev
  | .error (.ask a u) =>
    let T := ((s.findCtx (Ctx.hasCmd id)).bind fun q => q.2.2.eq.find? fun c => c.id == id).map fun c => twrOf c.core
    (s.kept u).sleepOn (T.getD 0) a fun t =>
      t.queue { i := .engineCommandFault, x := s.ev.x, y := id, z := cPAGE.toNat, v := a }

/-- A fault of a command (R209): the queue stops at the last whole 256 B step; an asynchronous trap of its strand, or a notice for one that has
exited or is held outside a context. ENGINE ends the command. -/
def State.cmdFault (s : State) (id : Nat) (cause : BitVec 8) (va : Word) (wr : Bool) : State :=
  let kind := if wr then 5 else 4
  match s.findCtx (Ctx.hasCmd id) with
  | none => s
  | some (x, away, k) =>
    let c := (k.eq.find? fun q => q.id == id).getD default
    let done := if c.prog < c.total then c.prog / 256 * 256 else c.prog
    s.cmdTry id ((s.eqStore (.cluster (cluOf c.core)) (x / 4) k.r.tfb 0x10 [BitVec.ofNat 64 done, 1#64]).map fun s1 =>
      let again : Ev := { i := if isCopy c.i then .copyCommandStart else .collectiveArrival, x := x, y := id }
      let s2 := ((s1.queue again).onCmd id fun q =>
        { q with running := false, faulted := true, prog := done, ended := q.ended || cause == cENGINE }).mapCtx
        (Ctx.hasCmd id) fun q => { q with eqStop := true }
      if k.gone || away then s2.notice (twrOf (x / 4)) cause x k.r.stage k.r.tfb k.r.pc va
      else
        (s2.onCtx x fun q => { q.wake (s.cycAt x) with
          due := q.due ++ [{ kind := .async, cause := cause, slot := 3#2, faddr := va, finfo := finfo kind 16, eng := true,
                             eidx := BitVec.ofNat 4 k.eqHead }] }).queue { i := .trapEntry, x := x })

/-- Scoreboard entries of a command that are no longer needed: all once its payload is complete; the index list's once its last index has been
read (R124, R402). -/
def Cmd.doneSbs (c : Cmd) : List Nat :=
  if c.total ≤ c.prog then c.sbs
  else match c.i with
    | .cpyg _ => if c.total - copyLen c.w < c.prog then c.sbs.drop 1 else []
    | _ => []

/-- One performing of COPY_COMMAND_COMPLETE: the next part; after the last, the seal, and once that has performed the command is complete. A seal
withheld by an open segment waits for the close, and that of a displaced strand for its stores (R144, R145, R403). -/
def State.copyAdvance (s : State) (id : Nat) : State :=
  match s.findCtx (Ctx.hasCmd id) with
  | none => s
  | some (x, away, k) =>
    match k.eq.find? fun q => q.id == id with
    | none => s
    | some c =>
      if !c.running then s
      else if c.prog < c.total then
        s.cmdTry id (do
          let t ← s.copyStep c
          let hi := s.partEnd c
          let u := t.onCmd id fun q => { q with prog := hi }
          let v ← if hi / 256 = c.prog / 256 then pure u
            else u.eqStore (.cluster (cluOf c.core)) (x / 4) k.r.tfb 0x10 [BitVec.ofNat 64 (hi / 256 * 256)]
          return (v.releaseSb c.core ({ c with prog := hi } : Cmd).doneSbs).queue s.ev)
      else if away && k.flight.any (fun a => !isLoadInstr a.i) then s.queue s.ev
      else if c.seg && (c.w.getD 0 0#64).getLsbD 60 then s.onCmd id fun q => { q with sealOnly := true }
      else
        match c.i with
        | .chenq _ _ _ =>
          let sc := if (s.chanAt c.twr c.pid c.ch).any (·.kind) then 4 else 2
          if s.sealReady sc c.core c.wrote then s.cmdTry id ((s.sealLines sc c.core c.wrote).endCmd c) else s.queue s.ev
        | .chdeq _ _ _ => s.cmdTry id (s.endCmd c)
        | _ => s.cmdTry id ((if c.sealed.isSome then .ok s else s.writeSeal c (if isCopy c.i then 4 else 3)).bind fun t => t.sealEnd c)

/-! ## Start and resumption (R209, R399) -/

/-- The commands that stand at the head of a queue of some strand, with their contexts. -/
def State.heads (s : State) : List (Ctx × Cmd) :=
  let one := fun (c : Ctx) => match c.eq with
    | q :: _ => [(c, q)]
    | [] => []
  let sh := fun (co : Core) => match co.shadow with
    | some h => one h.c
    | none => []
  one s.ctx ++ s.ctxs.flatMap (fun c => one c.2) ++ sh s.core ++ s.cores.flatMap (fun (q : Nat × Core) => sh q.2) ++
    s.spilled.flatMap (fun q => one q.c) ++ s.past.flatMap fun q => one q.2

/-- Commands that the engines of a cluster are running (R399). -/
def State.enginesBusy (s : State) (clu : Nat) : Nat :=
  (s.heads.filter fun h => isCopy h.2.i && h.2.running && cluOf h.2.core == clu && !h.2.sealOnly).length

/-- The command's local ranges are free of earlier entries, and the implicit drain of a CHENQ has ended (R124, R299). -/
def State.cmdFree (s : State) (k : Ctx) (c : Cmd) : Bool :=
  !(s.coreAt c.core).opWaits c.sbs && (match c.i with
    | .chenq _ _ _ => !s.storesLeft c.core k c.bc (if (s.chanAt c.twr c.pid c.ch).any (·.kind) then 4 else 2)
    | _ => true)

/-- The context order of a cluster's round-robin: by tower core number and then by context, from the last one served on
(R399). -/
def turnAfter (last x : Nat) : Nat := (x + 96 - 1 - last % 96) % 96

/-- The command is the one that the cluster's engines take next: it waits at the head of its queue, and no other waiting one comes
before it in the round (R399). -/
def State.nextInTurn (s : State) (c : Cmd) : Bool :=
  let clu := cluOf c.core
  let last := ((s.served.find? fun q => q.1 == clu).map (·.2)).getD 95
  s.heads.all fun h => !(isCopy h.2.i && !h.2.running && !h.2.faulted && !h.1.eqStop && cluOf h.2.core == clu &&
    s.cmdFree h.1 h.2 && decide (turnAfter last (h.2.x % 96) < turnAfter last (c.x % 96)))

/-- A stopped queue goes on once EQSTOP reads 0 (R209). -/
def State.tryResume (s : State) (c : Cmd) (x : Nat) (k : Ctx) : State :=
  s.cmdTry c.id ((match s.getWordsVA (.cluster (cluOf c.core)) (x / 4) (k.r.tfb + 0x7b18#64) 1 with
    | .ok ([0#64], t) => .ok ((t.mapCtx (Ctx.hasCmd c.id) fun q => { q with eqStop := false }).queue s.ev)
    | .ok (_, t) => .ok (t.queue s.ev)
    | .error (.fault _ _ _ u) => .ok ((s.kept u).queue s.ev)
    | .error e => .error e))

/-- The record of a command as the queue in memory holds it; one that cannot be read is taken as captured (R208, log 23). -/
def State.cmdRecord (s : State) (c : Cmd) (x : Nat) (k : Ctx) : Except Stop (List Word × State) :=
  match s.getWordsVA (.cluster (cluOf c.core)) (x / 4) (k.r.tfb + BitVec.ofNat 64 (0x7c00 + 64 * (k.eqHead % 16))) 8 with
  | .error (.fault _ _ _ u) => .ok (c.w, s.kept u)
  | r => r

/-- A command at the head of its queue begins with the words of its record; one that had stopped and whose record reads zero in its first word has
been ended by the handler (R208, R209). -/
def State.withRecord (s : State) (c : Cmd) (x : Nat) (k : Ctx) (f : State → Cmd → State) : State :=
  match s.cmdRecord c x k with
  | .error e => s.cmdTry c.id (.error e)
  | .ok (w, t) =>
    if c.faulted && (c.ended || w.headD 0#64 == 0#64) then t.cmdTry c.id (t.endCmd c)
    else
      let d := { c with w := w, faulted := false }
      f (t.onCmd c.id fun _ => d) d

/-- COPY_COMMAND_START: a command that is next in turn begins, or a stopped one resumes (R209, R399). -/
def State.copyStart (s : State) (id : Nat) : State :=
  match s.findCtx (Ctx.hasCmd id) with
  | none => s
  | some (x, _, k) =>
    match k.eq with
    | [] => s
    | c :: _ =>
      if c.id != id then s.queue s.ev
      else if k.eqStop then s.tryResume c x k
      else if c.running then s
      else if !c.faulted && (4 ≤ s.enginesBusy (cluOf c.core) || !s.cmdFree k c || !s.nextInTurn c) then s.queue s.ev
      else s.withRecord c x k fun t d =>
        if c.faulted then t.queue s.ev
        else
          let s1 := { t with served := putKey t.served (cluOf c.core) (c.x % 96) }
          (s1.onCmd id fun _ => { d with running := true }).queue { i := .copyCommandComplete, x := s.ev.x, y := id }

end Sys2Proof.Machine
end

