-- ==== Sys2Proof/Machine/Collect.lean ====
section
/-! DEFINITION. Collectives (R405 to R408), the random-bit instructions (R409) and ASSAY (R150, R410 to R412). -/

namespace Sys2Proof.Machine

/-! ## Collectives at issue (R406, R407) -/

/-- The eight collective staging registers. -/
def State.kgs (s : State) : List Word := (List.range 8).map fun k => s.gr (56 + k)

/-- LEN of kg0. -/
def kgLen (w : List Word) : Nat := bits (w.getD 0 0#64) 31 0
/-- NPART. -/
def kgParts (w : List Word) : Nat := bits (w.getD 0 0#64) 55 48 + 1
/-- RANK. -/
def kgRank (w : List Word) : Nat := bits (w.getD 0 0#64) 47 40
/-- OP. -/
def kgOp (w : List Word) : Nat := bits (w.getD 0 0#64) 59 56

/-- FORM of the captured record (Table 17-5). -/
def collForm : Instr → Nat
  | .cred _ _ => 0
  | .cbcst _ => 1
  | .cagth _ => 2
  | _ => 3

/-- The root form of CRED. -/
def collRoot : Instr → Bool
  | .cred _ r => r == 1#1
  | _ => false

/-- Rank r of a form reads its SRC, and has its DST written (Table 17-6). -/
def collUses (i : Instr) (r : Nat) : Bool × Bool :=
  match i with
  | .cbcst _ => (decide (r = 0), true)
  | .cred _ k => (true, decide (k ≠ 1#1 ∨ r = 0))
  | _ => (true, true)

/-- The bytes that rank r of a form reads at its SRC (Table 17-6). -/
def collReads (i : Instr) (w : List Word) (r : Nat) : Nat :=
  match i with
  | .ca2a _ => kgParts w * kgLen w
  | _ => if (collUses i r).1 then kgLen w else 0

/-- The bytes that are written at rank r's DST (Table 17-6). -/
def collWrites (i : Instr) (w : List Word) (r : Nat) : Nat :=
  match i with
  | .cagth _ => kgParts w * kgLen w
  | .ca2a _ => kgParts w * kgLen w
  | _ => if (collUses i r).2 then kgLen w else 0

/-- ILL of R407. -/
def collIll (i : Instr) (w : List Word) : Bool :=
  let g := w.getD 0 0#64
  let op := match i with
    | .cred _ _ => decide (4 ≤ kgOp w)
    | _ => kgOp w != 0
  decide (6 ≤ bits g 63 61) || bits g 37 32 != 0 || op || decide (bits g 55 48 < kgRank w)

/-- A range of a collective lies in the paged region or an entrepôt. -/
def collWindow (G : Nat) (a n : Nat) : Bool :=
  match decodeRange G a (max n 1) with
  | some (.paged, _) => true
  | some (.entrepot, _) => true
  | _ => false

/-- A collective's checks at issue: the first that fails, with its address; a range that the rank's form ignores is not checked, and an empty
one counts as its first byte (R407). -/
def State.collTrap (s : State) (i : Instr) (w : List Word) : Option (BitVec 8 × Word) :=
  let g := fun k => w.getD k 0#64
  let r := kgRank w
  let u := collUses i r
  let se := (g 0).getLsbD 60
  let used := (if u.1 then [(g 1, collReads i w r)] else []) ++ (if u.2 then [(g 2, collWrites i w r)] else []) ++ [(g 5, 8)]
  let all := used ++ (if se then [(g 3, 8)] else [])
  if collIll i w then some (cILL, 0#64)
  else match all.find? fun a => !rowWhole s.here a.1.toNat (a.1.toNat + max a.2 1 : Nat) with
    | some a => some (cBOUND, a.1)
    | none =>
      if u.1 && !aligned (g 1).toNat 64 then some (cALIGN, g 1)
      else if u.2 && !aligned (g 2).toNat 64 then some (cALIGN, g 2)
      else if se && !aligned (g 3).toNat 8 then some (cALIGN, g 3)
      else if !aligned (g 5).toNat 8 then some (cALIGN, g 5)
      else if kgLen w % 64 ≠ 0 then some (cALIGN, 0#64)
      else match used.find? fun a => !collWindow s.here a.1.toNat a.2 with
        | some a => some (cPROT, a.1)
        | none => if se && !sealOk s.here (g 3) then some (cPROT, g 3) else none

/-- A collective instruction at issue: irrevocable, so an open segment closes first (R144, R407). -/
def State.collective (s : State) (i : Instr) : State :=
  let w := s.kgs
  match s.collTrap i w with
  | some c => s.trapAt .e c.1 c.2 0#64
  | none =>
    if s.eqFull then s.block
    else afterClose s fun t =>
      let q := t.fresh
      t.pushCmd q.2 { id := q.1, i := i, w := w.set 0 (formWord (w.getD 0 0#64) 38 (collForm i)), x := t.me, core := t.here,
                      sup := t.ctx.r.sup, bc := t.ctx.r.bc } .collectiveArrival

/-- CRED: r is the root form (R407). -/
def execCred (g : BitVec 4) (r : BitVec 1) (s : State) : Out := whenOn g s fun t => t.collective (.cred g r)
/-- CBCST (R407). -/
def execCbcst (g : BitVec 4) (s : State) : Out := whenOn g s fun t => t.collective (.cbcst g)
/-- CAGTH (R407). -/
def execCagth (g : BitVec 4) (s : State) : Out := whenOn g s fun t => t.collective (.cagth g)
/-- CA2A (R407). -/
def execCa2a (g : BitVec 4) (s : State) : Out := whenOn g s fun t => t.collective (.ca2a g)

/-! ## The home's collective engine (R405, R408) -/

/-- Ranks that have arrived at an instance. -/
def Coll.ranks (g : Coll) : List Nat := g.mem.map (·.2.2) ++ g.out.map (·.1)

/-- Every rank has arrived. -/
def Coll.full (g : Coll) : Bool := (List.range (kgParts [g.w0])).all fun r => g.ranks.any (· == r)

/-- A command of a form with first staging word w0 fits the instance (R408). -/
def Coll.fits (g : Coll) (i : Instr) (w0 : Word) : Bool :=
  let same := fun (hi lo : Nat) => bits g.w0 hi lo == bits w0 hi lo
  collForm g.i == collForm i && collRoot g.i == collRoot i && same 59 56 && same 55 48 && same 31 0 &&
  !g.ranks.any (· == kgRank [w0])

/-- The home tower of a key on this module has no room for another instance, or is fenced (R155, R405). -/
def State.collsShut (s : State) (key : Nat) : Bool :=
  (towerOfLoc key).any fun T => s.fenced.getLsbD T || decide (64 ≤ (s.colls.filter fun g => towerOfLoc g.key == some T).length)

/-- An arrival at the instance at a key, which opens with the first one; an instance with every rank may complete. Nothing where it cannot open; no
state where the command does not fit (R405, R408). -/
def State.collSeat (s : State) (key : Nat) (i : Instr) (w0 : Word) (add : Coll → Coll) : Option (Option State) :=
  let done := fun (t : State) (g : Coll) => if g.full then t.queue { i := .collectiveComplete, x := g.id } else t
  match s.colls.find? fun g => g.key == key with
  | some g =>
    if g.fits i w0 then
      some (some (done { s with colls := s.colls.map fun h => if h.key == key then add g else h } (add g)))
    else some none
  | none =>
    if s.collsShut key then none
    else
      let g := add { id := s.uid + 1, key := key, i := i, w0 := w0, mem := [] }
      some (some (done { s with colls := s.colls ++ [g], uid := s.uid + 1 } g))

/-- The record of a command that does not fit, written by a home on this module: severity 2 and class 13 (R408). -/
def State.collMismatch (s : State) (key G X : Nat) (va : Word) : State :=
  match towerOfLoc key with
  | some T => s.report T 13 2 G X false 0 va 0#64 0#64
  | none => s

/-- Where the key of an instance lies now: a member of this module translates it anew; else where the last translation or a migration left it (R96,
R101). -/
def State.keyNow (s : State) (g : Coll) : Nat :=
  (g.mem.findSome? fun m => (s.findCtx (Ctx.hasCmd m.2.1)).bind fun k => (k.2.2.eq.find? fun c => c.id == m.2.1).bind fun c =>
    match s.sideResolve c .write (c.w.getD 5 0#64).toNat 8 with
    | .ok (ps, _) => some (pieceByte ps 0)
    | .error _ => none).getD g.key

/-- A command joins the instance at its key; a mismatch ends it with ENGINE (R405, R408). -/
def State.collJoin (s0 : State) (c : Cmd) (key : Nat) : State :=
  let s : State := { s0 with colls := s0.colls.map fun g => ({ g with key := s0.keyNow g } : Coll) }
  match s.collSeat key c.i (c.w.getD 0 0#64) fun g => { g with mem := g.mem ++ [(c.x, c.id, kgRank c.w)] } with
  | none => s.queue s.ev
  | some none =>
    (s.collMismatch key c.core (c.x % 4) (c.w.getD 5 0#64)).queue
      { i := .engineCommandFault, x := s.ev.x, y := c.id, z := cENGINE.toNat }
  | some (some t) => t.onCmd c.id fun q => { q with joined := true, faulted := false }

/-- The collective instruction of a captured first word: its FORM, and the root form for CRED (Table 17-5). -/
def collOf (w0 : Word) (root : Bool) : Instr :=
  match bits w0 39 38 with
  | 0 => .cred 0#4 (BitVec.ofBool root)
  | 1 => .cbcst 0#4
  | 2 => .cagth 0#4
  | _ => .ca2a 0#4

/-- A participant of another module arrives: State.ev names x the key's location, v its captured kg0, z nonzero for the root form, bytes the source
that it contributes and then one byte for each 64 B of it, nonzero where it is poisoned. Its own module writes its destination and its seal, and
ends a mismatch; one that a migrating home refuses it sends again once it has translated anew (R101, R405, R408). -/
def State.collForeign (s : State) : State :=
  let i := collOf s.ev.v (s.ev.z != 0)
  let n := collReads i [s.ev.v] (kgRank [s.ev.v])
  let data := (List.range n).map fun k => s.ev.bytes.getD k 0#8
  let marks := (List.range n).map fun k => s.ev.bytes.getD (n + k / 64) 0#8 != 0#8
  if s.migrating s.ev.x then s
  else match s.collSeat s.ev.x i s.ev.v fun g => { g with out := g.out ++ [(kgRank [s.ev.v], data, marks)] } with
  | none => s.queue s.ev
  | some none => s.collMismatch s.ev.x 1536 0 0#64
  | some (some t) => t

/-- A command that has joined goes on after its queue was stopped: with its seal, or its instance may complete again (R209, R408). -/
def State.collAgain (s : State) (c : Cmd) : State :=
  if c.sealOnly then (s.onCmd c.id fun q => { q with running := true }).queue { i := .copyCommandComplete, x := s.ev.x, y := c.id }
  else match s.colls.find? fun g => g.mem.any fun m => m.2.1 == c.id with
    | some g => if g.full then s.queue { i := .collectiveComplete, x := g.id } else s
    | none => s

/-- COLLECTIVE_ARRIVAL: the head command reaches its key's home, where it joins or opens an instance; an instance with every rank may complete
(R405, R408). -/
def State.collArrive (s : State) (id : Nat) : State :=
  match s.findCtx (Ctx.hasCmd id) with
  | none => s
  | some (x, _, k) =>
    match k.eq with
    | [] => s
    | c :: _ =>
      if c.id != id then s.queue s.ev
      else if k.eqStop then s.tryResume c x k
      else s.withRecord c x k fun t d =>
        if c.joined then t.collAgain d
        else match t.sideResolve d .write (d.w.getD 5 0#64).toNat 8 with
          | .error e => t.cmdTry id (.error e)
          | .ok (ps, u) => u.collJoin d (pieceByte ps 0)

/-- One element combined (R407). -/
def combine (op : Nat) (a x : BitVec 32) : BitVec 32 :=
  match op with
  | 0 => addF a x
  | 1 => maxF a x
  | 2 => a + x
  | _ => maxS a x

/-- The reduction of the ranks' bytes, element by element in rank order (R407). -/
def reduceBytes (op : Nat) : List (List Byte) → List Byte
  | [] => []
  | x :: t => (List.range (x.length / 4)).flatMap fun e =>
      let el := fun (l : List Byte) => BitVec.ofNat 32 (bytesToNat ((l.drop (4 * e)).take 4))
      natToBytes 4 (t.foldl (fun acc y => combine op acc (el y)) (el x)).toNat

/-- The poison of a reduction's bytes: of any rank's byte at the place. -/
def reduceMarks : List (List Bool) → List Bool
  | [] => []
  | x :: t => t.foldl (fun acc y => List.zipWith (· || ·) acc y) x

/-- What a rank contributes or receives: its bytes, the poison of each, and for each line the CRC that it carries where that is not the CRC of its bytes
(R136, R138). -/
structure Share where
  bytes : List Byte := []
  marks : List Bool := []
  crcs : List (Option (BitVec 32)) := []
  deriving DecidableEq, Repr, Inhabited

/-- The n bytes from byte k, whole lines. -/
def Share.part (q : Share) (k n : Nat) : Share := ⟨(q.bytes.drop k).take n, (q.marks.drop k).take n, (q.crcs.drop (k / 64)).take (n / 64)⟩

/-- Several one after another. -/
def Share.join (l : List Share) : Share := ⟨l.flatMap (·.bytes), l.flatMap (·.marks), l.flatMap (·.crcs)⟩

/-- The poison with which the bytes enter a reduction: a line that fails its CRC counts as poisoned (DESIGN CHOICE, log 51). -/
def Share.toReduce (q : Share) : List Bool := q.marks.zipIdx.map fun m => m.1 || (q.crcs.getD (m.2 / 64) none).isSome

/-- What rank j receives from the ranks' sources in rank order (Table 17-6). -/
def collResult (i : Instr) (w : List Word) (j : Nat) (xs : List Share) : Share :=
  match i with
  | .cred _ k => if k = 1#1 ∧ j ≠ 0 then {} else ⟨reduceBytes (kgOp w) (xs.map (·.bytes)), reduceMarks (xs.map Share.toReduce), []⟩
  | .cbcst _ => xs.headD {}
  | .cagth _ => Share.join xs
  | _ => Share.join (xs.map fun q => q.part (j * kgLen w) (kgLen w))

/-- A rank's source read with its poison and CRCs, over a link where away holds (R136 to R138, R212, R408). -/
def State.collRead (s : State) (c : Cmd) (away : Bool) : Except (Nat × Stop) (Share × State) :=
  let n := collReads c.i c.w (kgRank c.w)
  if n = 0 then .ok ({}, s)
  else match s.sideResolve c .read (c.w.getD 1 0#64).toNat n with
    | .error e => .error (c.id, e)
    | .ok (ps, t) =>
      let bad := fun (k : Nat) => t.badCrcAt (pieceByte ps k) 1
      let u := if away then ps.foldl (fun (u : State) p => u.poisonLeft p.1 p.2.1) t else t
      .ok (⟨ps.flatMap fun p => t.bytesAt p.1 p.2.1,
            (List.range n).map fun k => t.poisonedAt (pieceByte ps k) 1 || t.isFenced (pieceByte ps k) || (away && bad k),
            (List.range (n / 64)).map fun j => if !away && bad (64 * j) then some (t.crcOf (pieceByte ps (64 * j))) else none⟩,
          (u.noteLinks c.core ps).countPieces true ps)

/-- A rank's destination written with its poison and CRCs; what fails its CRC arrives poisoned over a link (R136 to R138, R407). -/
def State.collWrite (s : State) (c : Cmd) (q : Share) : Except (Nat × Stop) State :=
  if q.bytes.isEmpty then .ok s
  else match s.sideResolve c .write (c.w.getD 2 0#64).toNat q.bytes.length with
    | .error e => .error (c.id, e)
    | .ok (ps, t) =>
      let t1 := (t.noteLinks c.core ps).homePieces ps q.bytes
      let t2 := (q.marks.zipIdx.filter (·.1)).foldl (fun (u : State) m => u.setPoison (pieceByte ps m.2)) t1
      let t3 := q.crcs.zipIdx.foldl (fun (u : State) m =>
        let l := lineOf (pieceByte ps (64 * m.2))
        match m.1 with
        | none => u
        | some k => if 8 ≤ regionOf l then u.setPoison l else u.carryCrc l k) t2
      .ok (t3.onCmd c.id fun k => { k with wrote := ps.flatMap fun p => linesOf p.1 p.2.1 })

/-- The member commands of an instance in rank order; nothing where one has ended or is stopped. -/
def State.collMembers (s : State) (g : Coll) : Option (List Cmd) :=
  ((List.range (kgParts [g.w0])).filterMap fun r => g.mem.find? fun m => m.2.2 == r).mapM fun m =>
    (s.findCtx (Ctx.hasCmd m.2.1)).bind fun k =>
      (k.2.2.eq.find? fun c => c.id == m.2.1).bind fun c => if c.faulted || k.2.2.eqStop then none else some c

/-- What rank r contributes: the source of its command, or what it brought from another module (R407). -/
def State.collPart (s : State) (g : Coll) (cs : List Cmd) (r : Nat) : Except (Nat × Stop) (Share × State) :=
  match cs.find? fun c => kgRank c.w == r with
  | some c => s.collRead c (decide (8 ≤ regionOf g.key))
  | none => .ok (((g.out.find? fun m => m.1 == r).map fun m => (⟨m.2.1, m.2.2, []⟩ : Share)).getD {}, s)

/-- The key of an instance as it completes: the location that its first member of this module translates to now (R96, R101). -/
def State.collKey (s : State) (g : Coll) (cs : List Cmd) : Except (Nat × Stop) (Nat × State) :=
  match cs with
  | [] => .ok (g.key, s)
  | c :: _ =>
    match s.sideResolve c .write (c.w.getD 5 0#64).toNat 8 with
    | .error e => .error (c.id, e)
    | .ok (ps, t) => .ok (pieceByte ps 0, t.noteLinks c.core ps)

/-- The remote lines that a command has written. -/
def State.wroteBy (s : State) (id : Nat) : List Nat :=
  ((s.findCtx (Ctx.hasCmd id)).bind fun k => (k.2.2.eq.find? fun c => c.id == id).map (·.wrote)).getD []

/-- COLLECTIVE_COMPLETE: every source read, every destination of this module written, the key raised by 1; then each participant's seal is left to
write, once every destination has performed at its scope (R405, R408). A rank that faults stops, and the instance waits for it. -/
def State.collFinish (s : State) (id : Nat) : State :=
  match s.colls.find? fun g => g.id == id with
  | none => s
  | some g =>
    match s.collMembers g with
    | none => s
    | some cs =>
      let run := do
        let (xs, t) ← (List.range (kgParts [g.w0])).foldlM (fun (q : List Share × State) r => do
          let (x, u) ← q.2.collPart g cs r
          return (q.1 ++ [x], u)) (([] : List Share), s)
        let u ← cs.foldlM (fun (u : State) c => u.collWrite c (collResult g.i c.w (kgRank c.w) xs)) t
        u.collKey g cs
      match run with
      | .error (id, .fault c a wr u) =>
        (s.kept u).queue { i := .engineCommandFault, x := ((g.mem.find? fun m => m.2.1 == id).map (·.1)).getD 0, y := id, z := c.toNat,
                           v := a, w := BitVec.ofNat 64 (b2n wr) }
      | .error (_, .wait u) => (s.kept u).queue s.ev
      | .error (id, .ask a u) =>
        let c := (cs.find? fun c => c.id == id).getD default
        (s.kept u).sleepOn (twrOf c.core) a fun t =>
          t.queue { i := .engineCommandFault, x := c.x, y := id, z := cPAGE.toNat, v := a }
      | .ok (key, t) =>
        if t.waitsAt key 8 then s.queue s.ev
        else
        let n := t.natAt key 8
        let t1 := t.homePieces [(key, 8, true)] (natToBytes 8 (n + 1))
        let t2 := { t1 with colls := t1.colls.filter fun h => h.id != id }
        let all := (cs.flatMap fun c => t2.wroteBy c.id).eraseDups
        cs.foldl (fun (u : State) c =>
          (u.onCmd c.id fun q => { q with sealOnly := true, running := true, prog := q.total, wrote := all }).queue
            { i := .copyCommandComplete, x := c.x, y := c.id }) t2

/-! ## Random bits (R409) -/

/-- RBSEED (R409). -/
def execRbseed (g : BitVec 4) (a b : BitVec 6) (s : State) : Out :=
  whenOn g s fun t => t.withRegs fun r => { r with rbKey := r.sreg a }.rbStart ((r.sreg b).setWidth 128)
/-- RBCTR: s[a] is the low half (R409). -/
def execRbctr (g : BitVec 4) (a b : BitVec 6) (s : State) : Out :=
  whenOn g s fun t => t.withRegs fun r => r.rbStart (r.sreg b ++ r.sreg a : BitVec 128)
/-- RBRD at latency 2; the popped word stays with the unlanded result (R196, R409). -/
def execRbrd (g : BitVec 4) (d : BitVec 6) (s : State) : Out :=
  whenOn g s fun t =>
    let q := t.ctx.r.rbPop
    let w : Word := q.1.setWidth 64
    (t.withRegs fun _ => q.2).land 2 .e (.rbrd g d) [.s d w] 0#1024 0#1024 0#1024 (t.pr g) (BitVec.ofNat 64 (t.ctx.r.rbRot.toNat * 2 ^ 32) ||| w)

/-! ## ASSAY (R150, R410 to R412) -/

/-- The first n elements of the pattern of a seed (R411). -/
def assayElems (seed n : Nat) : List Int :=
  ((List.range ((n + 15) / 16)).flatMap fun j =>
    (philox (BitVec.ofNat 128 (j + 2 ^ 32 * seed)) 0x9e3779b97f4a7c15#64).flatMap fun w =>
      (List.range 4).map fun k =>
        let v := (w.extractLsb' (8 * k) 8).toInt
        if v = -128 then -127 else v).take n

/-- The weight of assay column a at plot row k (R411). -/
def assayWeight (a k : Nat) : Int := if a = 0 then ((37 * k % 255 : Nat) : Int) - 127 else 127 - ((53 * k % 255 : Nat) : Int)

/-- The sixteen outputs of the plot form in the order 2mc + a: the macro columns hold the same assay weights (R227, R411). -/
def assayPlot (seed : Nat) : List (BitVec 32) :=
  let x := assayElems seed 2048
  let chain := fun (a : Nat) => windowSum ((List.range 64).map fun b =>
    chainTerm ((List.range 32).foldl (fun (acc : Int) i => acc + x.getD (32 * b + i) 0 * assayWeight a (32 * b + i)) 0)
      127 127 (fieldExp false + fieldExp false))
  (List.range 8).flatMap fun _ => [chain 0, chain 1]

/-- The 4,096 outputs of the NMU form (R228, R411): MXINT8 elements under scale codes of 127, added to zero tiles with Z = 1. -/
def assayNmu (seed : Nat) : List (BitVec 32) :=
  let x := assayElems seed 8192
  let rd := fun (o : Nat) =>
    if o < 4096 then (BitVec.ofInt 8 (x.getD o 0)).toNat
    else if o < 8192 then (BitVec.ofInt 8 (x.getD o 0)).toNat
    else 127
  let ng : List Word := [BitVec.ofNat 64 (64 * 2 ^ 32), BitVec.ofNat 64 (64 * 2 ^ 32 + 4096), BitVec.ofNat 64 (2 * 2 ^ 32 + 8192),
    BitVec.ofNat 64 (64 * 2 ^ 32 + 8320)]
  let h : Shape := ⟨64, 64, 64, 0, 0, true⟩
  let t := product rd ng h 0 0 true Tile.reset
  (List.range 64).flatMap fun r => (List.range 64).map fun c => t.el r c

/-- The digest of a unit that computes as the spec says (R411). -/
def assayDigest (q seed : Nat) : BitVec 32 :=
  crc32c ((if q = 32 then assayNmu seed else assayPlot seed).flatMap fun w => natToBytes 4 w.toNat)

/-- ASSAY at issue: its stop bit has been checked by the decoder; FIELD_OWN at user level on a plot that the core does not own
(R412). -/
def State.assay (s : State) (q seed : Nat) (dig : BitVec 32) : State :=
  if q < 32 && !s.ctx.r.sup && !s.owns s.here (plotOfQ s.here q) then s.trapAt .e cFOWN 0#64 0#64
  else
    let f := s.fresh
    (f.2.withCtx fun c => { c with assays := c.assays ++ [⟨f.1, q, seed, dig, s.inSeg⟩] }).queue
      { i := .assayOutcome, x := s.me, y := f.1 }

/-- ASSAY (R410). -/
def execAssay (g : BitVec 4) (q : BitVec 5) (nmu : BitVec 1) (seed : BitVec 6) (dig : BitVec 32) (s : State) : Out :=
  whenOn g s fun t => t.assay (if nmu = 1#1 then 32 else q.toNat) seed.toNat dig

/-- The strand waits for assay id. -/
def Ctx.hasAssay (id : Nat) (c : Ctx) : Bool := c.assays.any fun a => a.id == id

/-- The tested unit is quarantined, with a record of severity 5 whose class is that of engines for an NMU and of field rows for a plot (R150, Table
6-11). DESIGN CHOICE: the class, log 54. -/
def State.quarantine (s : State) (x q : Nat) (sego : Bool) (rwc : Nat) : State :=
  let G := x / 4
  let T := twrOf G
  let n := plotOfQ G q % 256
  if q = 32 then
    let o := oNQUAR T (tcoreOf G / 64)
    (s.setReg o (s.reg o ||| (1#64 <<< (tcoreOf G % 64)))).report T 13 5 G (x % 4) sego rwc 0#64 0#64 (BitVec.ofNat 64 (tcoreOf G))
  else
    let o := oFQUAR T (n / 64)
    (s.setReg o (s.reg o ||| (1#64 <<< (n % 64)))).report T 10 5 G (x % 4) sego rwc 0#64 0#64 (BitVec.ofNat 64 n)

/-- ASSAY_OUTCOME: a match has no effect; a mismatch, of the constant or of a faulty unit, quarantines the unit; then the after-issue
trap ASSAY, or in a segment a rewind and the trap at the segment entry with the segment open (R150, R412). The strand stays at the boundary after
its ASSAY until then, and in its context. -/
def State.assayEnds (s : State) (id : Nat) (faulty : Bool) : State :=
  match s.findCtx (Ctx.hasAssay id) with
  | none => s
  | some (x, _, c) =>
    match c.assays.find? fun a => a.id == id with
    | none => s
    | some a =>
      let s1 := s.mapCtx (Ctx.hasAssay id) fun k => { k with assays := k.assays.filter fun b => b.id != id }
      if !faulty && assayDigest a.q a.seed == a.dig then s1
      else
        let s2 := s1.quarantine x a.q c.seg.isSome (((c.seg.map (·.rewinds)).getD 0) + b2n a.seg)
        let t : Trap := { kind := .after, cause := cASSAY, slot := 3#2 }
        let s3 := if a.seg && c.seg.isSome then
            s2.asCtx x fun u => (u.rewind (if a.q = 32 then 13 else 10) 0#64).withCtx fun k =>
              { k with phase := if k.phase = .left then .left else .normal }
          else s2
        if c.r.deep then s3.machineCheck x 0#64
        else s3.onCtx x fun k => { k with due := k.due ++ [t] }

/-! ## Pages in use (R106) -/

/-- Two ranges of n and m bytes meet. -/
def rangesMeet (a n b m : Int) : Bool := decide (a < b + m) && decide (b < a + n)

/-- The bytes that a command may reach at remote memory: its rows on both sides, its source and destination as a collective, its seal and key
(R402, R407). -/
def Cmd.reaches (c : Cmd) : List (Int × Int) :=
  let at' := fun (k : Nat) => (((c.w.getD k 0#64).toNat : Int))
  if isCopy c.i then
    (match c.i with
      | .cpyf _ => []
      | _ => sideRows c.i c.w false) ++ sideRows c.i c.w true ++ [(at' 4, at' 4 + 8)]
  else
    [(at' 1, at' 1 + collReads c.i c.w (kgRank c.w)), (at' 2, at' 2 + collWrites c.i c.w (kgRank c.w)), (at' 3, at' 3 + 8), (at' 5, at' 5 + 8)]

/-- The parts of an access that have not performed meet a range. -/
def Access.meetsRange (a : Access) (va n : Nat) : Bool := (leftParts a).any fun p => rangesMeet va n p.1.toNat p.2.2

/-- An operation of a core that meets a test still uses the page at va of 2^lg bytes: a remote access in flight or a store held in an open segment, a
copy or collective command, or an FLOAD (R106). -/
def State.pageHeld (s : State) (core : Nat → Bool) (va lg : Nat) : Bool :=
  let n := 2 ^ lg
  let held := fun (c : Ctx) => (c.seg.map fun g => g.held.any fun h => match h with
    | .access a => core a.core && ({ a with left := List.range (unitsOf a).length } : Access).meetsRange va n
    | .marker => false).getD false
  let one := fun (c : Ctx) => (c.flight.any fun a => core a.core && a.meetsRange va n) || held c ||
    c.eq.any fun q => core q.core && q.reaches.any fun b => rangesMeet va n b.1 (b.2 - b.1)
  let shadow := fun (co : Core) => match co.shadow with
    | some h => one h.c
    | none => false
  one s.ctx || s.ctxs.any (fun c => one c.2) || s.past.any (fun c => one c.2) || s.spilled.any (fun c => one c.c) ||
    shadow s.core || (s.cores.any fun c => shadow c.2) ||
    s.fops.any fun o => o.kind == 3 && core o.core && (!o.started || !o.left.isEmpty) && rangesMeet va n o.org.toNat 0x108000

/-- An operation of core G still uses the page (R106). -/
def State.pageUsed (s : State) (G va lg : Nat) : Bool := s.pageHeld (· == G) va lg

/-- Position translations of a page leave every cache once the operations that used them have retired (R106). -/
def State.dropPtc (s : State) (va lg : Nat) : State :=
  if (s.ptc.filter fun t => t.va.toNat == va).any fun t => s.pageUsed t.core va lg then s.queue s.ev
  else { s with ptc := s.ptc.filter fun t => t.va.toNat != va }

/-! ## A request reaches its sequence unit (R106, R372) -/

/-- Those of the pages that some core has cached (R106). -/
def State.ptcPages (s : State) (ps : Pages) : List (Nat × Nat) :=
  ((ps.filter fun p => s.ptc.any fun t => t.va.toNat == p.1).map fun p => (p.1, p.2.1)).eraseDups

/-- A page that is to return to its pool is still used: a core that acknowledges its invalidation does so once what used the page has retired, whether
or not it has cached the page still (R106). -/
def State.pagesUsed (s : State) (ps : Pages) : Bool := ps.any fun p => p.2.2 && s.pageHeld (fun _ => true) p.1 p.2.1

/-- A request reaches its unit (R372): performed whole, or not at all where it faults. Before pages are copied or freed, every core acknowledges
their invalidation (R106). A request that waits is tried again. -/
def State.performSeq (s : State) (id : Nat) : State :=
  let again := fun (t : State) => t.queue s.ev
  match s.sqq.find? fun q => q.id == id with
  | none => s
  | some q =>
    if !s.seqReady q then again s
    else
      let drop := fun (t : State) => { t with sqq := t.sqq.filter fun r => r.id != id }
      match s.seqOp q with
      | .error (.wait u) => again (s.kept u)
      | .error (.ask va u) => (s.kept u).sleepOn q.twr va fun t => (drop t).seqFault q cPAGE va
      | .error (.fault c va _ u) => (drop (s.kept u)).seqFault q c va
      | .ok (t, vs, d) =>
        let ps := s.ptcPages d
        if ps.isEmpty then (if s.pagesUsed d then again s else (drop t).seqReply q vs)
        else
          let new := ps.filter fun p => !s.agenda.any fun (e : Ev) => e.i == Instr.ptcInvalidation && e.v == BitVec.ofNat 64 p.1
          again { s with agenda := s.agenda ++ new.map fun p => { i := .ptcInvalidation, v := BitVec.ofNat 64 p.1, z := p.2 } }

end Sys2Proof.Machine
end

