-- ==== Sys2Proof/Machine/Return.lean ====
section
/-! DEFINITION. Returning from a trap (R200, R269): the frame's checks, the restored state, the re-issue of a faulted ALQ entry and
the re-injection of the replay queue. -/

namespace Sys2Proof.Machine

/-- The instruction that a replay word names: its position and the slot word with its lent bits, or nothing where a must-be-zero
bit is set or the word is no legal instruction of its position (R196, R200). -/
def insOf (w : Word) : Option (Pos × Instr) :=
  if bits w 63 42 != 0 then none
  else
    let p : Pos := match bits w 41 40 with
      | 0 => .x
      | 1 => .s
      | 2 => .v
      | _ => .e
    let hx := BitVec.ofNat 8 (bits w 39 32)
    (decodeSlot p (if hx = 0#8 then none else lend p hx) (w.setWidth 32)).map fun q => (p, q.1)

/-- The result that a KIND 3 entry writes: OPA under GM and NM, at the destination of its instruction (R196, R200). -/
def suppliedWrites (i : Instr) (opa : Vec) (gm : BitVec 32) (nm : Nat) : List Write :=
  let one := fun (w : Write) => match w with
    | .s d _ => Write.s d (low opa)
    | .v d _ _ => .v d opa (maskOf gm nm)
    | .p d _ _ => .p d (opa.setWidth 32) gm
    | a => a
  match i with
  | .mov _ d _ => [.s d (low opa)]
  | .vmov _ d _ => [.v d opa (maskOf gm nm)]
  | .pmov _ d _ => [.p d (opa.setWidth 32) gm]
  | _ => (resultOf i opa 0#1024 0#1024 gm 0#64).map one

/-- The access of a KIND 1 entry with its captured addresses and data (R196). -/
def accessOf (p : Pos) (i : Instr) (gm : BitVec 32) (l : List Word) : Access :=
  let one : Bool := match i with
    | .vld _ _ _ _ | .vst _ _ _ _ | .vldb _ _ _ _ => true
    | _ => p == .s || p == .e
  { id := 0, bc := 0#64, pos := p, i := i, core := 0, sup := false, gm := gm,
    addrs := if one then [l.getD 16 0#64] else (l.drop 16).take 32,
    data := if p == .s then vecAt l 32 else vecAt l 48 }

/-- An entry of the replay queue read from its 64 doublewords; nothing where its checks fail (R196, R200). -/
def entryOf (l : List Word) : Option Replay :=
  let w := l.getD 1 0#64
  let kind := bits w 9 8
  let d := bits w 3 0
  let rbw := l.getD 3 0#64
  let nm := l.getD 5 0#64
  let gm := (l.getD 4 0#64).setWidth 32
  let dOk := match kind with
    | 0 => decide (1 ≤ d ∧ d ≤ 11)
    | 1 => d == 0
    | _ => decide (d ≤ 11)
  let zero := bits w 63 12 == 0 && bits w 7 4 == 0 && bits rbw 63 37 == 0 &&
    (if kind == 3 then bits nm 63 8 == 0 else nm == 0#64) && ((l.drop 6).take 10).all (· == 0#64)
  match insOf (l.getD 0 0#64) with
  | none => none
  | some (p, i) =>
    if kind == 2 || !dOk || !zero then none
    else if kind == 1 then some (.access (accessOf p i gm l))
    else
      let a := vecAt l 16
      let b := vecAt l 32
      let c := vecAt l 48
      let ws := if kind == 3 then suppliedWrites i a gm (bits nm 7 0) else resultOf i a b c gm rbw
      some (.pend { left := d, bc := 0#64, pos := p, i := i, ws := ws, a := a, b := b, c := c, gm := gm, rbw := rbw,
                    supplied := kind == 3 })

/-- The replay entries of a frame at va, n of them: nothing where a check fails. -/
def State.readEntries (s : State) (G : Nat) (va : Word) : Nat → Except Stop (Option (List Replay) × State)
  | 0 => .ok (some [], s)
  | n + 1 => do
    let (l, t) ← s.getWordsVA (.core G) G va 64
    let (r, u) ← t.readEntries G (va + 0x200#64) n
    return ((entryOf l).bind fun e => r.map fun k => e :: k, u)

/-- The plot of an FPLST offset, module-wide, if it is one (R328). -/
def plotOfReg (off : Nat) : Option Nat :=
  let o := off % 0x100000
  if off < 0x800000 ∧ 0xc000 ≤ o ∧ o < 0xc800 ∧ o % 8 = 0 then some (256 * (off / 0x100000) + (o - 0xc000) / 8) else none

/-- What a read of the register at a window offset returns: its readable fields (R52); a plot's status as FSTAT gives it (R328). -/
def State.readReg (s : State) (off : Nat) : Word :=
  match plotOfReg off with
  | some n => s.plotStatus n &&& (csrAccess off).rd
  | none => s.reg off &&& (csrAccess off).rd

/-! ## Replayed accesses (R39, R45, R53, R113, R124, R128) -/

/-- The local parts of a load or store with their locations (R113). -/
def State.localParts (s : State) (a : Access) : List (Part × Nat) :=
  if isReduction a.i || isMaint a.i then []
  else
    (accessParts a).filterMap fun p => match decodeByte s.here p.1.toNat with
      | some (w, l) => if w.isLocal then some (p, l) else none
      | none => none

/-- What the local lanes of a load read (R113). -/
def State.localPart (s : State) (a : Access) : Vec :=
  if isLoadInstr a.i then BitVec.ofNat 1024 ((s.localParts a).foldl (fun acc p => acc + s.natAt p.2 p.1.2.2 * 2 ^ (8 * p.1.2.1)) 0) else 0#1024

/-- The kind of access that an instruction makes (Table 2-2). -/
def aKind (p : Pos) (i : Instr) : AKind :=
  if isReduction i || isAtomicInstr i then .atomic else if p = .v then .vector else .scalar

/-- The first lane of a replayed access, in lane order, that the checks of issue refuse now; its cause and address (R35 to R37, R39, R45, R323). -/
def State.replayTrap (s : State) (a : Access) : Option (BitVec 8 × Word) :=
  if isMaint a.i then none
  else (accessParts a).findSome? fun p => match s.target (aKind a.pos a.i) p.1 p.2.2 with
    | .trap c => some (c, p.1)
    | _ => none

/-- A local lane of a replayed load is poisoned: its class and address (R139). -/
def State.replayPoison (s : State) (a : Access) : Option (Nat × Word) :=
  if isLoadInstr a.i then ((s.localParts a).find? fun p => s.poisonedAt p.2 p.1.2.2).map fun p => (classOf p.2, p.1.1) else none

/-- The local lanes of a replayed store written again; a full undo buffer unwinds the segment (R149, R323). -/
def State.storeLocal (s : State) (a : Access) : State :=
  if isLoadInstr a.i then s
  else
    let ls := (s.localParts a).map fun p => (p.1.2.1 / 4, p.2)
    (s.writeLanes a.data (ls.map (·.2)) ls).getD (s.overflowSeg .v)

/-- One replay entry re-injected (R200 step 5): a result lands D bundles on; an access is issued again, after what the handler issued (R128),
its local lanes too, and one whose lanes are refused or poisoned faults again. A load of the register window reads it again (R53). -/
def State.reinject (s : State) (bc : Word) : Replay → State
  | .pend q =>
    if q.left = 0 && !s.ctx.holds { q with bc := bc } then s.withRegs fun r => r.puts q.ws
    else s.withRegs fun r => { r with pend := r.pend ++ [{ q with bc := bc }] }
  | .access a =>
    let q := s.fresh
    let data := match decodeByte s.here (a.addrs.headD 0#64).toNat with
      | some (.csr, off) => if isLoadInstr a.i then opd (s.readReg off) else a.data
      | _ => a.data
    let b := { a with id := q.1, bc := bc, core := s.here, sup := s.ctx.r.sup, data := data, fence := s.uid, floor := s.ctx.trapId,
                      pre := s.localPart a }
    match s.replayTrap a, s.replayPoison a with
    | some c, _ => (q.2.withCtx fun k => { k with flight := k.flight ++ [b] }).accessFault b c.1 c.2
    | none, some p =>
      ((q.2.reportHere p.1 3 p.2 0#64 0#64).withCtx fun k => { k with flight := k.flight ++ [b] }).accessFault b cPOISON p.2
    | none, none =>
      let u := q.2.storeLocal a
      if !isLoadInstr a.i && (remoteParts b).isEmpty then u else u.launch u.me b

/-- The replay queue re-injected in order: entry j of n counts as issued at bundle BC − 64 − n + j, before the results of the frame's image and
the strand's own. -/
def State.reinjectAll (s : State) (l : List Replay) : State :=
  l.zipIdx.foldl (fun (t : State) q => t.reinject (s.ctx.r.bc - BitVec.ofNat 64 (64 + l.length) + BitVec.ofNat 64 q.2) q.1) s

/-- The frame's first 256 bytes break no rule of R200 step 1. -/
def frameOk (h : List Word) : Bool :=
  let w := h.getD 0 0#64
  let info := h.getD 4 0#64
  bits w 63 40 == 0 && bits w 17 16 == 0 && bits w 9 8 == 0 && h.getD 5 0#64 == 0#64 && h.getD 23 0#64 == 0#64 &&
    bits info 63 16 == 0 && !info.getLsbD 7 && !info.getLsbD 3 &&
    decide (bits w 31 26 ≤ 48)

/-- The oldest ALQ entry changed. -/
def State.onOldest (s : State) (f : AlqEntry → AlqEntry) : State := s.withRegs fun r => { r with alq := r.alq.modify 0 f }

/-- The value-returning operations whose faults are ALQ-delivered: atomics, SQ and RPR instructions, MIGR and PROMO (R98, R103, R286, R380). -/
def isProducer : Instr → Bool
  | .sqnew _ _ | .sqnewReg _ _ _ | .sqrsv _ _ _ | .sqcmt _ _ _ _ _ | .sqabn _ _ _ _ | .sqfork _ _ _ _ | .sqdrop _ _ | .sqlen _ _
  | .sqpos _ _ _ _ _ _ | .sqsplc _ _ _ _ | .rprchk _ _ | .rprins _ _ | .rprstat _ _ _ | .migr _ _ _ | .promo _ _ _ => true
  | i => isAtomicInstr i

/-- A faulted producer re-issued into the same entry with the frame's operands and the staging values of its capture record; an address that an atomic
may not reach faults the entry again (R36, R199, R200 step 3, R286). -/
def State.reissue (s : State) (p : Pos) (i : Instr) (h : List Word) (stg : List Word) : State :=
  let q1 := s.fresh
  let q2 := q1.2.fresh
  let s2 := q2.2
  let a := h.getD 19 0#64
  let b := h.getD 20 0#64
  let c := h.getD 22 0#64
  let entry := fun (id : Nat) => ({ id := id, pos := p, i := i, opa := a, opb := b, opc := c, stg := stg } : AlqEntry)
  let s3 := s2.onOldest fun _ => entry q1.1
  let move : State := { s3 with
    moves := s3.moves ++ [{ id := q1.1, slot := s.ctx.r.alqh, i := i, x := s.me, target := a.toNat, va := b }]
    agenda := s3.agenda ++ [{ i := .tableWalk, x := s.me, y := q1.1, v := a }] }
  if isAtomicInstr i then
    match s.target .atomic (h.getD 3 0#64) (accessWidth i) with
    | .trap k => s3.answerFault s.me s.ctx.r.alqh q1.1 k (h.getD 3 0#64)
    | .here _ => s3.answerFault s.me s.ctx.r.alqh q1.1 cPROT (h.getD 3 0#64)
    | .remote _ _ => s3.launch s.me
      { id := q1.1, bc := s.ctx.r.bc, pos := .s, i := i, core := s.here, sup := s.ctx.r.sup, gm := s.ctx.r.alqh.setWidth 32,
        addrs := [h.getD 3 0#64], data := opd a ||| (b.setWidth 1024 <<< 64) }
  else match i with
    | .migr _ _ _ => move
    | .promo _ _ _ => move
    | _ =>
      let two := match i with
        | .sqpos _ _ _ _ _ _ => true
        | _ => false
      let s4 := if two then s3.withRegs fun r => { r with alq := r.alq.modify 1 fun _ => entry q2.1 } else s3
      let twr := match (translate s (.core s.here) a.toNat s.ctx.r.sup .read).2 with
        | .ok l _ => hbmTower l % 8
        | _ => twrOf s.here
      let r : SeqReq := { id := q1.1, bc := s.ctx.r.bc, twr := twr, x := s.me, slot := s.ctx.r.alqh, i := i, a := a, b := b, c := c,
                          stg := stg, sup := s.ctx.r.sup }
      { s4 with sqq := s4.sqq ++ [r], agenda := s4.agenda ++ [{ i := .sequenceUnitOperation, x := twr, y := q1.1 }] }

/-- The faulted entry filled with FIXV; the second entry of an SQPOS with 0 (R200 step 3, R380). -/
def State.fixEntry (s : State) (v : Word) : State :=
  let two := match (s.ctx.r.alq.headD {}).i with
    | .sqpos _ _ _ _ _ _ => true
    | _ => false
  let done := fun (e : AlqEntry) (x : Word) => { e with valid := true, faulted := false, poisoned := false, crc := false, value := x }
  let s1 := s.onOldest fun e => done e v
  if two then s1.withRegs fun r => { r with alq := r.alq.modify 1 fun e => done e 0#64 } else s1

/-- The faulted ALQ entry of an ALQ-delivered trap, re-issued or filled (R200 step 3); nothing where RETRY names no legal
producer. -/
def State.settleEntry (s : State) (h : List Word) : Except Stop (Option State) :=
  let qins := h.getD 18 0#64
  let e := s.ctx.r.alq.headD {}
  if qins == 0#64 || !e.faulted || bits (h.getD 0 0#64) 39 36 != s.ctx.r.alqh.toNat then .ok (some s)
  else if (h.getD 0 0#64).getLsbD 19 then
    match insOf qins with
    | none => .ok none
    | some (p, i) =>
      if !isProducer i then .ok none
      else (s.getWordsVA (.core s.here) s.here (captureAt s.ctx.r.tfb s.ctx.r.alqh) 10).map fun r => some (r.2.reissue p i h (r.1.drop 4))
  else .ok (some (s.fixEntry (h.getD 21 0#64)))

/-- The registers that a frame restores (R200 step 2). -/
def Regs.restore (r : Regs) (h : List Word) : Regs :=
  let w := h.getD 0 0#64
  let loops := (List.range 12).map fun k => Write.l (BitVec.ofNat 4 k) (h.getD (6 + k) 0#64)
  let save := (List.range 8).map fun k => Write.s (BitVec.ofNat 6 (56 + k)) (h.getD (24 + k) 0#64)
  { (r.puts (loops ++ save)) with
    lact := BitVec.ofNat 4 (bits w 23 20)
    ssm := w.getLsbD 24
    ssq := w.getLsbD 25
    pc := h.getD 1 0#64
    bc := h.getD 2 0#64
    sup := w.getLsbD 12
    deep := false }

/-- The virtual engine queue resumes (R200 step 4, R209). -/
def State.resumeQueue (s : State) (h : List Word) : Except Stop State :=
  if (h.getD 0 0#64).getLsbD 14 then
    (s.eqStore (.core s.here) s.here s.ctx.r.tfb 0x18 [0#64]).map fun t => t.withCtx fun c => { c with eqStop := false }
  else .ok s

/-- The drain that the trap had interrupted, with what is re-injected among what it waits for, and what follows it (R116, R128). -/
def State.resumeDrain (s : State) : State :=
  s.withCtx fun c =>
    let k := { c with post := c.postBack, postBack := [] }
    match c.drnBack with
    | none => k
    | some (d, sc, _) => { k with drn := d, drnScope := sc, drnId := s.uid, drnBack := none }

/-- The return from a frame whose checks have passed (R200 steps 2 to 6). -/
def State.returnFrom (s : State) (h : List Word) (l : List Replay) : Except Stop (Option State) := do
  let s1 := s.withCtx fun c => { c with
    r := (tickPend c.r).restore h
    npc := none
    lset := 0#4
    phase := .done
    ahead := []
    markDue := false
    due := if (h.getD 0 0#64).getLsbD 18 then c.due ++ [{ kind := .after, cause := cSSTEP }] else c.due }
  match ← s1.settleEntry h with
  | none => return none
  | some s2 =>
    let s3 ← s2.resumeQueue h
    return some (s3.reinjectAll l).resumeDrain.endGroup

/-- ERET has to wait: a variable-latency result of the handler has not landed (R201), or an access to the frame has not performed (R200 reads the
frame after every access of the handler, R128). -/
def State.handlerBusy (s : State) : Bool :=
  (s.core.nmuq.any fun q => s.ownOp q.x q.tag && decide (s.ctx.trapId < q.id)) ||
  s.ctx.flight.any fun a => decide (s.ctx.trapId < a.id) &&
    (isLoadInstr a.i || (leftParts a).any fun p => decide ((p.1 - s.ctx.r.tfb).toNat < 0x8000))

/-- The accesses of a replay queue. -/
def replayAccesses (l : List Replay) : List Access := l.filterMap fun e => match e with
  | .access a => some a
  | .pend _ => none

/-- The replay queue has to wait: a local lane conflicts with the scoreboard (R124), or its accesses would exceed the 28 that may be
outstanding (R198). -/
def State.replayWaits (s : State) (l : List Replay) : Bool :=
  let as := replayAccesses l
  (as.any fun a => (s.localParts a).any fun p => s.conflicts s.here p.2 p.1.2.2 (!isLoadInstr a.i)) ||
  (decide (0 < s.ctx.outstanding) && decide (28 < s.ctx.outstanding + as.length))

/-- What stops an ERET from reading its frame: a fault kills the strand, and a wait freezes it (R98, R102, R194). -/
def State.eretStop (s : State) : Stop → State
  | .fault _ va _ u => (s.kept u).machineCheck s.me va
  | .wait u => (s.kept u).freeze
  | .ask va u => (s.kept u).sleepHere va (fun t => t.machineCheck t.me va) State.freeze

/-- ERET at trap depth 1 once the handler's variable-latency results have landed and its stores to the frame have performed (R200, R201): a bad
frame is an ILL in a handler, which is a double trap; a frame that cannot be read kills the strand too. -/
def State.eret (s : State) : State :=
  let ill := s.trapAt .x cILL 0#64 0#64
  if !s.ctx.r.deep then ill
  else if s.handlerBusy then s.freeze
  else
    let run : Except Stop State := do
      let (h, t) ← s.getWordsVA (.core s.here) s.here s.ctx.r.tfb 32
      if !frameOk h then return ill
      match ← t.readEntries s.here (s.ctx.r.tfb + 0x100#64) (bits (h.getD 0 0#64) 31 26) with
      | (none, _) => return ill
      | (some l, u) =>
        if u.replayWaits l then return u.freeze
        else return (← u.returnFrom h l).getD ill
    match run with
    | .ok t => t
    | .error e => s.eretStop e

/-- ERET (R200, R269). -/
def execEret (g : BitVec 4) (s : State) : Out := whenSup .x g s fun t => t.eret

end Sys2Proof.Machine
end

