-- ==== Sys2Proof/Machine/Sched.lean ====
section
/-! DEFINITION. Which strand of a core issues (R158 to R162), and shadow bank swaps, spills, saved and reinstated images (R22, R145,
R181, R182, R202 to R206, R305). -/

namespace Sys2Proof.Machine

/-! ## Rank and run (R160 to R162) -/

/-- The stage of a strand, when it is a task. -/
def State.stageOf (s : State) (c : Ctx) : Option Stage :=
  if c.task then (s.pipeAt c.home (c.r.stage.toNat / 16)).bind fun p => p.stages[c.r.stage.toNat % 16]? else none

/-- Effective rank (R162). -/
def State.effRank (s : State) (c : Ctx) : Nat :=
  if c.agent then 7
  else match s.stageOf c with
    | some g => min 7 (g.rank + c.age)
    | none => min 7 c.age

/-- Yield budget: that of the stage, or YMAX (R160, R162). -/
def State.yieldBudget (s : State) (c : Ctx) : Nat :=
  match s.stageOf c with
  | some g => g.ybud
  | none => 65536

/-- The place of a candidate in the order of R161 and R162: effective rank, tasks before other strands before the agent, the
round-robin of stage ids after the one last chosen at that rank, and the context number. Where none has been chosen at a rank the lowest stage id
comes first (DESIGN CHOICE, log 56). -/
def State.yieldKey (s : State) (X : Nat) (c : Ctx) : Nat :=
  let e := s.effRank c
  let cls := if c.agent then 2 else if c.task then 0 else 1
  let last := ((findKey s.core.last e).getD 63)
  let turn := if c.task then (c.r.stage.toNat + 63 - last % 64) % 64 else 0
  (((7 - e) * 3 + cls) * 64 + turn) * 4 + X

/-- A candidate inserted by its place. -/
def insByKey (e : Nat × Nat × Ctx) : List (Nat × Nat × Ctx) → List (Nat × Nat × Ctx)
  | [] => [e]
  | a :: t => if e.1 < a.1 then e :: a :: t else a :: insByKey e t

/-- The candidates of a yield point in order, with their context numbers: the yielding strand where it takes part, and every ready
strand; can names blocked strands whose cause has cleared (R161). -/
def State.candidates (s : State) (self : Bool) (can : Nat → Bool) : List (Nat × Nat × Ctx) :=
  [0, 1, 2, 3].foldl (fun (acc : List (Nat × Nat × Ctx)) X =>
    if X = s.core.cur.toNat then (if self then insByKey (s.yieldKey X s.ctx, X, s.ctx) acc else acc)
    else match findKey s.ctxs (4 * s.here + X) with
      | none => acc
      | some c =>
        if !c.gone && (c.st = .ready || (c.st = .blocked && can X)) then insByKey (s.yieldKey X c, X, c) acc else acc) []

/-- Cycles left in the slice (R161). -/
def State.sliceLeft (s : State) : Nat := s.core.sliceEnd.toNat - (s.cycOf (twrOf s.here)).toNat

/-- Length of a slice: DSPCTL.SLICE as of the last tick, at least 65,536 (R190). -/
def State.sliceLen (s : State) : Nat := max 65536 (bits (s.dsp.getD (twrOf s.here) 0#64) 43 24)

/-- Context X of the core in its turn takes issue; the stage chosen at its rank is remembered (R161, R162). -/
def State.choose (s : State) (X : Nat) (c : Ctx) : State :=
  let s1 := if c.task then s.withCore fun k => { k with last := putKey k.last (s.effRank c) c.r.stage.toNat } else s
  if X = s.core.cur.toNat then s1.withCtx fun k => { k with st := .running, age := 0 }
  else
    let s2 := s1.withCtx fun k => if k.st = .running then { k with st := .ready, since := s.cycOf (twrOf s.here), age := 0 } else k
    s2.turnTo s.here (BitVec.ofNat 2 X)

/-- The candidates of a yield point of a strand that stays: at a PAUSE the strand itself is one only if no other fits the slice (R161, R265). -/
def State.staying (s : State) (can : Nat → Bool) (n : Nat) : List (Nat × Nat × Ctx) :=
  let others := s.candidates false can
  if n = 0 && others.any (fun e => decide (e.2.2.r.run.toNat ≤ s.sliceLeft)) then others else s.candidates true can

/-- The pick of a yield point: the first candidate that fits the slice, or the first of all in a new slice (R161). -/
def State.pick (s : State) (l : List (Nat × Nat × Ctx)) : State :=
  match l.find? fun e => decide (e.2.2.r.run.toNat ≤ s.sliceLeft) with
  | some e => s.choose e.2.1 e.2.2
  | none =>
    match l with
    | [] => s
    | e :: _ => (s.withCore fun k => { k with sliceEnd := s.cycOf (twrOf s.here) + BitVec.ofNat 64 s.sliceLen }).choose e.2.1 e.2.2

/-! ## Leaving a context (R145, R202) -/

/-- The held stores of a segment that its strand leaves: batch after batch, each waiting for what went before (R127, R145). -/
def fenceHeld : List Held → Nat → Nat → List Access
  | [], _, _ => []
  | .marker :: t, _, last => fenceHeld t last last
  | .access a :: t, f, last => { a with fence := f } :: fenceHeld t f (max last a.id)

/-- The open segment of a strand that leaves its context: the held stores are sent, seals withheld no more, the undo log
discarded; a field error already found is logged, and row checks still to come are remembered (R145). -/
def State.closeAway (s : State) (x : Nat) : State :=
  match s.ctxAt x with
  | none => s
  | some c =>
    match c.seg with
    | none => s
    | some g =>
      let seals := (c.eq.filter (·.sealOnly)).map fun q => ({ i := .copyCommandComplete, x := x, y := q.id } : Ev)
      let owed := g.halves.filter fun h => h.2 != 0
      let newest := c.flight.foldl (fun m a => max m a.id) 0
      let k : Ctx := { c with seg := none, owed := c.owed ++ owed, eq := c.eq.map fun q => { q with seg := false } }
      let off := fun (co : Core) => { co with
        undo := co.undo.filter fun u => u.x != x
        nmuq := co.nmuq.map fun q => if q.x == x then { q with seg := false } else q
        nest := co.nest.map fun n => if n.x == x then { n with seg := false, away := n.away || n.seg } else n
        commits := co.commits.map fun n => if n.x == x then { n with seg := false, away := n.away || n.seg } else n }
      let s1 := ((s.putCtx x k).onCore (x / 4) off)
      let s2 := (fenceHeld g.held 0 newest).foldl (fun (t : State) a => t.launchHeld x a) s1
      let s3 := ({ s2 with agenda := s2.agenda ++ seals } : State).oweNext (x / 4) c.r.tag
      if g.bad then s3.reportCode (twrOf (x / 4)) 10 4 (x / 4) (x % 4) false 0 g.badAt else s3

/-- A row check that a segment closed by a swap still awaited: the next check follows (R145). -/
def State.checkOwed (s : State) (x row : Nat) : State :=
  let waits := fun (c : Ctx) => c.owed.any fun q => q.1 == x && q.2 + row == 264
  match s.findCtx waits with
  | none => s
  | some (_, _, c) =>
    let rest := (c.owed.map fun q => if q.1 == x && q.2 + row == 264 then (q.1, q.2 - 1) else q).filter fun q => q.2 != 0
    let s1 := s.mapCtx waits fun k => { k with owed := (k.owed.map fun q =>
      if q.1 == x && q.2 + row == 264 then (q.1, q.2 - 1) else q).filter fun q => q.2 != 0 }
    match rest with
    | [] => s1
    | (h, n) :: _ => s1.queue { i := .rowCheck, x := h, y := 264 - n }

/-- Fixed-latency results computed and kept as pending results with their distances (R202). -/
def Regs.imaged (r0 : Regs) : Regs :=
  let r := r0.settle
  { r with pend := r.pend.flatMap fun q => q.ws.map fun w =>
      { q with pos := (standIn w).1, i := (standIn w).2, ws := [w], supplied := true, b := 0#1024, c := 0#1024, rbw := 0#64,
               a := (match w with
                 | .s _ v => opd v
                 | .v _ v _ => v
                 | .p _ v _ => v.setWidth 1024
                 | _ => 0#1024)
               gm := (match w with
                 | .v _ _ m => lanesOfMask m
                 | .p _ _ m => m
                 | _ => 0#32) } }

/-! ## The swap (R22, R202) -/

/-- Context X of core G takes issue; the context that held it becomes ready with its run unchanged (R202). -/
def State.takeIssue (s : State) (G : Nat) (X : BitVec 2) : State :=
  let old := 4 * G + (s.coreAt G).cur.toNat
  let x := 4 * G + X.toNat
  let s1 := if old = x then s
    else s.onCtx old fun c => if c.st = .running then { c with st := .ready, since := s.cycOf (twrOf G), age := 0 } else c
  let s2 := s1.onCtx x fun c => { c with st := .running, age := 0 }
  if G = s.here then (if old = x then s2 else s2.bring G X) else s2.onCore G fun co => { co with cur := X }

/-- The staged strand of core G waits for the strand of context x to leave. -/
def State.staged (s : State) (G : Nat) : Option Shadow :=
  (s.coreAt G).shadow.bind fun h => if h.out || h.swapping then none else some h

/-- The strand may be replaced by a swap (R178, R202). -/
def Ctx.replaceable (c : Ctx) : Bool := !c.r.sup && !c.agent && !c.gone

/-- The strand stands at a boundary where a swap or CTXSV may take it: no trap is due there, which would come first, and no assay is still to
answer there (R191, R202, R206, R412). -/
def Ctx.settled (c : Ctx) : Bool := c.firstDue.isNone && c.assays.isEmpty

/-- A strand as it leaves its context: its results are computed, and a YIELD that its last bundle executed declares its run (R160, R202). -/
def State.leaving (s : State) (c : Ctx) : Ctx :=
  let run := match c.yreq with
    | none => c.r.run
    | some 0 => c.r.run
    | some n => BitVec.ofNat 32 (min n (s.yieldBudget c))
  { c with r := { c.r.imaged with run := run }, st := .ready, phase := .normal, npc := none, lset := 0#4, mon := none, yreq := none,
           ahead := [] }

/-- A swap begins: the victim's segment closes and its image is in the shadow bank; its context holds no strand until the swap ends
(R202). -/
def State.beginSwap (s : State) (G : Nat) (h : Shadow) : State :=
  let x := 4 * G + h.x
  let s1 := s.closeAway x
  match s1.ctxAt x with
  | none => s
  | some v =>
    let out := s.leaving v
    let s2 := s1.onCore G fun co => { co with
      shadow := some { c := out, x := h.x, out := true, urgent := h.urgent, swapping := true, next := some h.c, src := h.src } }
    let s3 := (s2.freeCtx x).queue { i := .swapEnd, x := G }
    if x = s.me then s3.switch else s3

/-- SHADOW_BANK_SWAP: the staged strand enters a context that has been freed; or the swap begins while the victim is blocked, parked
or ready, or for an urgent one at any boundary; else it waits (R178, R179, R182). -/
def State.trySwap (s : State) (G : Nat) : State :=
  match s.staged G with
  | none => s
  | some h =>
    match s.ctxAt (4 * G + h.x) with
    | none =>
      (s.putCtx (4 * G + h.x) { h.c with st := .ready, since := s.cycOf (twrOf G), age := 0 }).onCore G fun co => { co with shadow := none }
    | some v => if v.replaceable && v.settled && (h.urgent || v.st != .running) then s.beginSwap G h else s.queue s.ev

/-- SWAP_END: the incoming strand is in the context and takes issue; the outgoing image spills (R181, R202). -/
def State.endSwap (s : State) (G : Nat) : State :=
  match (s.coreAt G).shadow with
  | none => s
  | some h =>
    if !h.swapping then s
    else
      let s1 := (s.onCore G fun co => { co with shadow := some { h with urgent := false, swapping := false, next := none, src := none } }).queue
        { i := .spillComplete, x := G }
      match h.next with
      | none => s1
      | some c => (s1.putCtx (4 * G + h.x) { c with st := .ready, since := s.cycOf (twrOf G), age := 0 }).takeIssue G (BitVec.ofNat 2 h.x)

/-! ## The yield point (R160, R161, R176) -/

/-- A yield point of the current strand: n is the declared run, 0 keeps the remaining one. A marked task parks; a staged swap of
this context begins; and the core picks the next strand. -/
def State.yieldPoint (s : State) (can : Nat → Bool) (n : Nat) : State :=
  let run := if n = 0 then s.ctx.r.run else BitVec.ofNat 32 (min n (s.yieldBudget s.ctx))
  let s1 := s.withCtx fun c => { c with r := { c.r with run := run }, yreq := none }
  match s1.staged s1.here with
  | some h =>
    if h.x = s1.core.cur.toNat && s1.ctx.replaceable then
      let s2 := s1.closeAway s1.me
      let out := s2.leaving s2.ctx
      let s3 := s2.withCore fun co => { co with
        shadow := some { c := out, x := h.x, out := true, urgent := h.urgent, swapping := true, next := some h.c, src := h.src } }
      let s4 := (s3.freeCtx s3.me).queue { i := .swapEnd, x := s3.here }
      s4.pick (s4.candidates false can)
    else if s1.ctx.mark then
      let s2 := s1.withCtx fun c => { c with st := .parked }
      s2.pick (s2.candidates false can)
    else s1.pick (s1.staying can n)
  | none =>
    if s1.ctx.mark then
      let s2 := s1.withCtx fun c => { c with st := .parked }
      s2.pick (s2.candidates false can)
    else s1.pick (s1.staying can n)

/-- STRAND_RANK_AGING: another 2^20 cycles ready and not chosen (R162). -/
def State.ageStrand (s : State) (x : Nat) : State :=
  s.onCtx x fun c =>
    if c.st = .ready && !c.agent && c.age < 7 && decide (0x100000 ≤ (s.cycAt x - c.since).toNat) then
      { c with age := c.age + 1, since := c.since + 0x100000#64 }
    else c

/-! ## Spilled and saved images (R181, R203 to R206) -/

/-- A displaced strand killed with its notice, in no context; its banks are released and its engine commands go on (R186, R213). -/
def State.killAway (s : State) (G : Nat) (c : Ctx) : State :=
  let t := (s.notice (twrOf G) cKILL (4 * G) c.r.stage c.r.tfb c.r.pc 0#64).releaseAll G c.r.tag
  if c.hasLeft then
    { t with past := t.past ++ [(4 * G, { c with gone := true, due := [], seg := none, r := { c.r with pend := [] } })] }
  else t

/-- SPILL_COMPLETE: the outgoing image is in the spill area and the shadow bank is free; that of a killed task is discarded
(R181, R182); a store of it that fails kills the strand (R445). -/
def State.finishSpill (s : State) (G : Nat) : State :=
  match (s.coreAt G).shadow with
  | none => s
  | some h =>
    if !h.out || h.swapping then s
    else if h.c.gone then s.onCore G fun co => { co with shadow := none }
    else if h.c.task && (s.pipeAt h.c.home (h.c.r.stage.toNat / 16)).any (·.killed) then
      (s.onCore G fun co => { co with shadow := none }).killAway G h.c
    else
      s.orKill (fun c => c == h.c) (twrOf G) ((s.writeImage (.core G) G h.c.r.spl h.c.r).map fun t =>
        { (t.onCore G fun co => { co with shadow := none }) with
          spilled := t.spilled ++ [{ core := G, c := h.c, image := h.c.r.spl, written := true }] })

/-- R204, R207: no load, ALQ value, started command, nest, NMU operation or barrier arrival of the strand of core G is outstanding, nor the
stores and seals of a segment that it left (R145). -/
def State.restorable (s : State) (G : Nat) (c : Ctx) : Bool :=
  let co := s.coreAt G
  c.flight.isEmpty && c.r.alq.all (·.valid) && c.owed.isEmpty &&
    !(c.eq.any fun q => !q.faulted && (q.running || q.joined || q.sealOnly)) &&
    !((co.nest.toList ++ co.commits).any fun n => n.tag == c.r.tag) && !(co.nmuq.any fun q => q.tag == c.r.tag) &&
    !(s.agenda.any fun (e : Ev) => e.i == Instr.barrierArrival && e.z == c.r.barw.id && c.r.barw.id != 0)

/-- The strand of an image: its ALQ entries and arrival keep the identities that the displaced strand had; accesses that faulted
while it was displaced come first in its replay queue, and its completion trap is due (R203, R204). -/
def reinstated (c : Ctx) (r : Regs) : Ctx :=
  let alq := r.alq.zipIdx.map fun q =>
    { c.r.alq.getD q.2 {} with valid := q.1.valid, poisoned := q.1.poisoned, faulted := q.1.faulted, value := q.1.value }
  let n := 64 + c.late.length
  { c with
    r := { r.landNow (fun _ => false) with alq := alq, barw := { r.barw with id := c.r.barw.id }, pfn := 0#4 }
    late := []
    flight := c.late.zipIdx.map fun q => { q.1 with bc := r.bc - BitVec.ofNat 64 n + BitVec.ofNat 64 q.2 }
    st := .ready
    age := 0 }

/-- A reinstated strand in context x; a sixteenth recorded fault makes its next trap a double trap (R204, Table 8-9). -/
def State.install (s : State) (x : Nat) (c : Ctx) (many : Bool) : State :=
  let s1 := s.putCtx x { c with since := s.cycAt x }
  let s2 := if c.due.isEmpty then s1 else s1.queue { i := .trapEntry, x := x }
  if many then s2.machineCheck x c.r.tfb else s2

/-- REINSTATEMENT_COMPLETE of a spilled strand of core G, read back into its free context or into the shadow bank (R181, R204,
R445). -/
def State.finishBack (s : State) (G b : Nat) : State :=
  match s.spilled.find? fun q => q.core == G && q.back == some b with
  | none => s
  | some q =>
    let keep := fun (t : State) => { t with spilled := t.spilled.filter fun p => !(p.core == G && p.back == some b) }
    let free := if b < 4 then (s.ctxAt (4 * G + b)).isNone else (s.coreAt G).shadow.isNone
    if !s.restorable G q.c || !q.written || !free then s.queue s.ev
    else s.orKill (fun c => c == q.c) (twrOf G) ((s.readImage (.core G) G q.image).map fun p =>
      let c := reinstated q.c p.1
      if b < 4 then (keep p.2).install (4 * G + b) c (decide (15 < q.c.late.length))
      else
        ((keep p.2).onCore G fun co => { co with shadow := some { c := c, x := b - 4, out := false, src := some q.image } }).queue
          { i := .shadowBankSwap, x := G })

/-! ## CTXSV and CTXLD (R206, R305) -/

/-- The move that an identity names. -/
def State.moveOf (s : State) (id : Nat) : Option Move := s.moves.find? fun m => m.id == id

/-- The move is over and its value is on its way: 0, or all ones on failure (R305). -/
def State.endMove (s : State) (m : Move) (ok : Bool) : State :=
  ({ s with moves := s.moves.filter fun n => n.id != m.id } : State).answer m.x m.slot m.id (if ok then 0#64 else allOnes) 0

/-- A move's transfer that ended early: a failure, or another try of its event (R98, R102, R445). -/
def State.moveStop (s : State) (m : Move) (fails : State → Word → State) : Stop → State
  | .fault _ va _ u => fails (s.kept u) va
  | .wait u => (s.kept u).queue s.ev
  | .ask va u => (s.kept u).sleepOn (twrOf (m.target / 4)) va fun t => fails t va

/-- CTXSV of a strand: at a boundary at trap depth 0 its segment closes, its image is written, and its context is free (R206). A
failed write kills the strand (R445). -/
def State.saveCtx (s : State) (m : Move) : State :=
  match s.ctxAt m.target with
  | none => s.endMove m false
  | some c0 =>
    if c0.r.deep || c0.gone || !c0.settled then s.queue s.ev
    else
      let s1 := s.closeAway m.target
      let out := s.leaving ((s1.ctxAt m.target).getD c0)
      match s1.writeImage (.core (m.target / 4)) (m.target / 4) m.va out.r with
      | .error e => s.moveStop m (fun t va => (t.machineCheck m.target va).endMove m false) e
      | .ok t =>
        let t1 : State := { t with spilled := t.spilled ++ [{ core := m.target / 4, c := out, image := m.va, written := true, saved := true }] }
        let t2 := (t1.freeCtx m.target).endMove m true
        if m.target = s.me then t2.switch else t2

/-- The replay entries that an image loaded from elsewhere says a trap frame records (R203, R204): their accesses, in order. -/
def State.lateEntries (s : State) (G : Nat) (r : Regs) : List Access :=
  match s.readEntries G (r.tfb + 0x100#64) r.pfn.toNat with
  | .ok (some l, _) => replayAccesses l
  | _ => []

/-- A strand whose image says that it waits in BARW or RDV waits for that round at its boundary (Table 8-9, log 60). -/
def BarRec.rounds (b : BarRec) : List Post :=
  if b.waiting && b.recorded then [.round (if b.twr then 1#1 else 0#1) (b.idx.setWidth 6)] else []

/-- A strand loaded from an image that no displaced strand left: the cause of its recorded faults is an open value (R204, log 12); its queue goes
on after the last command of the queue in memory (R208, log 23). -/
def State.loadedRaw (s : State) (x : Nat) (r : Regs) : State × Ctx :=
  let l := s.lateEntries (x / 4) r
  let u := l.foldl (fun (q : State × List Access) a =>
    let f := q.1.fresh
    (f.2, q.2 ++ [{ a with id := f.1, core := x / 4, sup := r.sup, flt := true }])) (s, [])
  let due := u.2.map fun a =>
    ({ kind := .completion, cause := (Config.freeWord s.free).setWidth 8, slot := BitVec.ofNat 2 (posNum a.pos), faddr := a.efa,
       finfo := finfo (accessKind a.i) (accessWidth a.i), acc := a.id } : Trap)
  let tail := match s.getWordsVA (.core (x / 4)) (x / 4) (r.tfb + 0x7b08#64) 1 with
    | .ok ([w], _) => w.toNat
    | _ => 0
  ({ u.1 with free := u.1.free + (if l.isEmpty then 0 else 1) },
   { Ctx.reset with r := r, late := u.2, due := due, eqHead := tail, st := .ready, post := r.barw.rounds })

/-- An image of which no displaced strand is known may be loaded: its ALQ values have landed, and no strand displaced with the same trap frame has
anything outstanding (R204). -/
def State.rawReady (s : State) (r : Regs) : Bool :=
  r.alq.all (fun e => e.valid || e.faulted) && s.spilled.all fun q => q.c.r.tfb != r.tfb || s.restorable q.core q.c

/-- A swap of the core holds a context for the strand that it brings in (R202). -/
def State.swapIn (s : State) (x : Nat) : Bool :=
  match (s.coreAt (x / 4)).shadow with
  | some h => h.swapping && h.x == x % 4
  | none => false

/-- CTXLD of an image: a displaced strand's own, or any other, once R204 allows it; a new tag, and the strand is ready. Its accesses
keep their order on the new core: its stores are seen by every core, and what that core has accepted is applied (R38, R118, R128, R206,
R305). -/
def State.loadCtx (s : State) (m : Move) : State :=
  let G := m.target / 4
  let spilling := match (s.coreAt G).shadow with
    | some h => h.out && h.c.r.spl == m.va
    | none => false
  let busy := spilling || s.cores.any fun q => match q.2.shadow with
    | some h => h.out && h.c.r.spl == m.va && h.c.task && h.c.home == twrOf (m.x / 4)
    | none => false
  let mine := s.spilled.find? fun q => q.image == m.va && (q.saved || (q.c.task && q.c.home == twrOf (m.x / 4)))
  if (s.ctxAt m.target).isSome || s.swapIn m.target then s.endMove m false
  else if busy then s.queue s.ev
  else match s.freeTag G with
    | none => s.endMove m false
    | some tag =>
      let tagged := fun (c : Ctx) => { c with r := { c.r with tag := tag } }
      let wait := match mine with
        | some q => !s.restorable q.core q.c || s.inval.any fun v => v.src == strandOn q.core q.c.r.tag && !v.acc
        | none => false
      if wait then s.queue s.ev
      else match s.readImage (.core G) G m.va with
        | .error e => s.moveStop m (fun t _ => t.endMove m false) e
        | .ok (r, t) =>
          match mine with
          | some q =>
            ((({ t with spilled := t.spilled.filter fun p => p.image != m.va } : State).applyInval G).install m.target (tagged (reinstated q.c r))
              (decide (15 < q.c.late.length))).endMove m true
          | none =>
            if !t.rawReady r then s.queue s.ev
            else
              let u := t.loadedRaw m.target r
              ((u.1.applyInval G).install m.target (tagged (reinstated u.2 r)) false).endMove m true

/-! ## Meanings -/

/-- SHADOW_BANK_SWAP (R178, R182, R202). -/
def execShadowBankSwap (s : State) : Out := .next (s.trySwap s.ev.x)
/-- SWAP_END (R202). -/
def execSwapEnd (s : State) : Out := .next (s.endSwap s.ev.x)
/-- SPILL_COMPLETE: z names a CTXSV (R181, R305). -/
def execSpillComplete (s : State) : Out :=
  .next (if s.ev.z = 0 then s.finishSpill s.ev.x
    else match s.moveOf s.ev.z with
      | some m => s.saveCtx m
      | none => s)
/-- REINSTATEMENT_COMPLETE: z names a CTXLD (R181, R305). -/
def execReinstatementComplete (s : State) : Out :=
  .next (if s.ev.z = 0 then s.finishBack s.ev.x s.ev.y
    else match s.moveOf s.ev.z with
      | some m => s.loadCtx m
      | none => s)
/-- STRAND_RANK_AGING (R162). -/
def execStrandRankAging (s : State) : Out := .next (s.ageStrand s.ev.x)
/-- The remaining run of a running strand has reached zero before its next YIELD: its next boundary is a yield point with a run of YBUD, which any
declared run above the budget stands for (R160). -/
def Ctx.forceYield (c : Ctx) : Ctx :=
  if c.st = .running && c.r.run == 0#32 && c.yreq.isNone then { c with yreq := some 65537 } else c

/-- FORCED_YIELD (R160). -/
def execForcedYield (s : State) : Out := .next (s.onCtx s.ev.x Ctx.forceYield)
/-- ROW_CHECK: z is nonzero when the parity of the row fails (R134, R145). -/
def execRowCheck (s : State) : Out := .next ((s.checkRow s.ev.x s.ev.y (s.ev.z != 0)).checkOwed s.ev.x s.ev.y)

end Sys2Proof.Machine
end

