-- ==== Sys2Proof/Machine/Pipeline.lean ====
section
/-! DEFINITION. Pipelines (R163 to R190, R297 to R301, R446): manifests and their acceptance, channels, the dispatcher's tick, task
images, and the end or kill of a pipeline. -/

namespace Sys2Proof.Machine

/-! ## The dispatcher's own accesses (R54, R445) -/

/-- n doublewords from a device virtual address at supervisor level, or what stops the read; G is a core of the dispatcher's tower. -/
def State.dispRead (s : State) (G : Nat) (va : Word) (n : Nat) : Except Stop (List Word × State) :=
  s.getWordsVA (.tower (twrOf G)) G va n

/-- A doubleword written at its home at supervisor level, copies invalidated, or what stops the write. -/
def State.dispWrite (s : State) (G : Nat) (va x : Word) : Except Stop State := do
  let (l, t) ← s.reach (.tower (twrOf G)) G va .write
  return if regionOf l = 6 && !mailboxOpen l then t else t.homePiece l (natToBytes 8 x.toNat)

/-- The same for a word that is lost where its page faults or the host refuses it (log 23); a wait stops it. -/
def State.dispPut (s : State) (G : Nat) (va x : Word) : Except Stop State :=
  match s.dispWrite G va x with
  | .error (.fault _ _ _ u) => .ok (s.kept u)
  | .error (.ask a u) => if s.ev.asks == pageMark (twrOf G) a 2 then .ok (s.kept u) else .error (.ask a u)
  | r => r

/-- A STATUS word (Table 7-4). -/
def statusWord (state why pid : Nat) : Word := BitVec.ofNat 64 (state * 2 ^ 56 + why * 2 ^ 48 + pid)

/-! ## Manifests (R165 to R171) -/

/-- A must-be-zero field of the header is set (Table 7-3). -/
def headerIll (h : List Word) : Bool :=
  bits (h.getD 0 0#64) 63 32 != 0 || bits (h.getD 0 0#64) 7 0 != 0 || ((h.drop 2).take 6).any (· != 0#64)

/-- A must-be-zero field of a stage record is set (Table 7-5). -/
def stageIll (r : List Word) : Bool :=
  let w := r.getD 2 0#64
  bits (r.getD 0 0#64) 3 0 != 0 || bits w 63 58 != 0 || bits w 47 42 != 0 || bits w 19 17 != 0 ||
    bits (r.getD 4 0#64) 63 32 != 0 || ((r.drop 8).take 8).any (· != 0#64)

/-- A must-be-zero field of a channel descriptor is set (Table 7-6). -/
def chanIll (r : List Word) : Bool :=
  let w := r.getD 1 0#64
  bits w 63 61 != 0 || bits w 56 46 != 0 || bits w 39 29 != 0 || bits w 15 0 != 0 || (w.getLsbD 60 && bits w 59 57 != 0) ||
    bits (r.getD 2 0#64) 63 29 != 0 || bits (r.getD 2 0#64) 15 13 != 0 || ((r.drop 5).take 3).any (· != 0#64)

/-- A stage record (Table 7-5). -/
def stageOfWords (r : List Word) : Stage :=
  let w := r.getD 2 0#64
  { entry := r.getD 0 0#64, image := r.getD 1 0#64, maxi := bits w 57 48, mini := bits w 41 32, clus := BitVec.ofNat 8 (bits w 31 24),
    urg := w.getLsbD 23, rank := bits w 22 20, ybud := bits w 16 0, outm := BitVec.ofNat 32 (bits (r.getD 3 0#64) 63 32),
    inm := (r.getD 3 0#64).setWidth 32, homask := (r.getD 4 0#64).setWidth 32, rbkey := r.getD 5 0#64, tfbb := r.getD 6 0#64,
    splb := r.getD 7 0#64 }

/-- A channel descriptor (Table 7-6): the entries that it holds are available. -/
def chanOfWords (desc : Nat) (r : List Word) : Chan :=
  let w := r.getD 1 0#64
  let h := (r.getD 3 0#64).toNat
  let t := (r.getD 4 0#64).toNat
  { desc := desc, base := r.getD 0 0#64, kind := w.getLsbD 60, clu := bits w 59 57, esz := bits w 45 40, cap := bits w 28 16,
    high := bits (r.getD 2 0#64) 28 16, low := bits (r.getD 2 0#64) 12 0, head := h, deq := h, avail := t, tail := t }

/-- A stage's value ranges and alignments (WHY 3). -/
def stageBad (g : Stage) : Bool :=
  decide (g.maxi < 1 ∨ 768 < g.maxi ∨ g.maxi < g.mini ∨ g.ybud < 1 ∨ 65536 < g.ybud) || !aligned g.image.toNat 64 ||
    !aligned g.tfbb.toNat 0x8000 || !aligned g.splb.toNat 0x4000

/-- A channel's value ranges and alignment (WHY 3). -/
def chanBad (c : Chan) : Bool :=
  decide (c.cap < 1 ∨ 4096 < c.cap ∨ c.high ≤ c.low ∨ c.cap < c.high ∨ c.tail < c.head ∨ c.cap < c.tail - c.head) ||
    !aligned c.base.toNat 64

/-- The numbers of a 32-bit mask. -/
def maskNums (m : BitVec 32) : List Nat := (List.range 32).filter fun k => m.getLsbD k

/-- A ring lies wholly in the used part of its window (WHY 5). -/
def ringOk (c : Chan) : Bool :=
  let n := c.cap * c.entryBytes
  if c.kind then (match decodeRange 0 c.base.toNat n with
    | some (.entrepot, _) => true
    | _ => false)
  else decide (c.base.toNat + n ≤ 0x600000)

/-- The clusters on which a stage may run (R169). -/
def allowedSet (cs : List Chan) (g : Stage) : BitVec 8 :=
  (maskNums (g.inm ||| g.outm)).foldl (fun (m : BitVec 8) k =>
    match cs[k]? with
    | some c => if c.kind then m else m &&& (1#8 <<< c.clu)
    | none => m) g.clus

/-- Stages that the stages of a mask lead to through one channel. -/
def nextStages (gs : List Stage) (m : Nat) : Nat :=
  (gs.zipIdx).foldl (fun acc q =>
    if (gs.zipIdx).any fun p => bitOf m p.2 && (p.1.outm &&& q.1.inm) != 0#32 then acc ||| 2 ^ q.2 else acc) 0

/-- Stages reachable in one to n steps. -/
def reachStages (gs : List Stage) (m : Nat) : Nat → Nat
  | 0 => 0
  | n + 1 => nextStages gs m ||| reachStages gs (nextStages gs m) n

/-- The graph of stages has a cycle (WHY 7). -/
def hasCycle (gs : List Stage) : Bool := (List.range gs.length).any fun k => bitOf (reachStages gs (2 ^ k) gs.length) k

/-- The first reason 3 to 7 of Table 7-7 that applies, or 0. -/
def rejection (gs : List Stage) (cs : List Chan) : Nat :=
  if gs.any stageBad || cs.any chanBad then 3
  else if gs.any fun g => (maskNums (g.inm ||| g.outm)).any fun k => decide (cs.length ≤ k) then 4
  else if cs.any fun c => !ringOk c then 5
  else if gs.any fun g => allowedSet cs g == 0#8 then 6
  else if hasCycle gs then 7
  else 0

/-- The lowest free pipeline slot of a tower. -/
def State.freeSlot (s : State) (T : Nat) : Option Nat := [0, 1, 2, 3].find? fun p => (s.pipeAt T p).isNone

/-- The dispatcher's reading of a manifest: the outcome of PLAUNCH is completion, or a stop (R171). A fault of the write of STATUS stops PLAUNCH as one
of a read does, and nothing is accepted (DESIGN CHOICE, log 70). -/
def State.readManifest (s : State) (T G : Nat) (man : Word) (held : Bool) : Except Stop State := do
  let status := fun (t : State) (w : Word) => t.dispWrite G (man + 8#64) w
  if !(s.dsp.getD T 0#64).getLsbD 0 then return (← status s (statusWord 3 1 0))
  let (h, s1) ← s.dispRead G man 8
  if headerIll h then throw (.fault cILL 0#64)
  let w := h.getD 0 0#64
  let nstg := bits w 23 16
  let nchn := bits w 31 24
  if bits w 15 8 ≠ 1 ∨ nstg < 1 ∨ 16 < nstg ∨ 32 < nchn then return (← status s1 (statusWord 3 2 0))
  let (sw, s2) ← s1.dispRead G (man + 0x40#64) (16 * nstg)
  let (cw, s3) ← s2.dispRead G (man + BitVec.ofNat 64 (0x40 + 128 * nstg)) (8 * nchn)
  let srec := (List.range nstg).map fun k => (sw.drop (16 * k)).take 16
  let crec := (List.range nchn).map fun k => (cw.drop (8 * k)).take 8
  if srec.any stageIll || crec.any chanIll then throw (.fault cILL 0#64)
  let gs := srec.map stageOfWords
  let cs := crec.zipIdx.map fun q => chanOfWords q.2 q.1
  let why := rejection gs cs
  if why ≠ 0 then return (← status s3 (statusWord 3 why 0))
  match s3.freeSlot T with
  | none => status s3 (statusWord 3 8 0)
  | some pid =>
    let s4 ← status s3 (statusWord 1 0 pid)
    let made := fun (k : Nat) => gs.any fun g => g.outm.getLsbD k
    let p : Pipe := { twr := T, pid := pid, man := man, stages := gs.map fun g => { g with clus := allowedSet cs g },
                      chans := cs.map fun c => { c with closed := !made c.desc }, held := held }
    let s5 := s4.setReg (oPLCTL T pid) ((man &&& field 63 6) ||| 2#64)
    let s6 := if held then s5.setReg (oDSPHOLD T) (s5.reg (oDSPHOLD T) ||| (1#64 <<< pid)) else s5
    return { s6 with pipes := s6.pipes ++ [p] }

/-- MANIFEST_READ: x the tower and y the context whose PLAUNCH waits (R171, R210, R297). -/
def State.launchNow (s : State) (T x : Nat) : State :=
  match s.launches.find? fun q => q.1 == T && q.2.1 == x with
  | none => s
  | some q =>
    let held := (s.ctxAt x).any fun c => c.r.ssm
    let done := fun (t : State) (r : BitVec 8 × Word) =>
      ({ t with launches := t.launches.filter fun a => !(a.1 == T && a.2.1 == x) } : State).onCtx x fun c =>
        { c.wake (t.cycOf T) with launched := some r }
    match s.readManifest T (x / 4) q.2.2 held with
    | .ok t => done t (0#8, 0#64)
    | .error (.fault c va _ u) => done (s.kept u) (c, va)
    | .error (.wait u) => (s.kept u).queue s.ev
    | .error (.ask va u) => (s.kept u).sleepOn T va fun t => done t (cPAGE, va)

/-- MANIFEST_READ (R171). -/
def execManifestRead (s : State) : Out := .next (s.launchNow s.ev.x s.ev.y)

/-- PLAUNCH: an irrevocable operation that blocks until the dispatcher has read the manifest (R144, R297). -/
def State.plaunch (s : State) (man : Word) : State :=
  if !aligned man.toNat 64 then s.trapAt .e cALIGN man 0#64
  else match s.ctx.launched with
    | some r =>
      let s1 := s.withCtx fun c => { c with launched := none }
      if r.1 = 0#8 then s1 else s1.trapAt .e r.1 r.2 (finfo 0 64)
    | none =>
      let T := twrOf s.here
      if s.launches.any fun q => q.2.1 == s.me then s.block
      else afterClose s fun t =>
        ({ t with launches := t.launches ++ [(T, t.me, man)],
                  agenda := t.agenda ++ [{ i := .manifestRead, x := T, y := t.me }] } : State).block

/-- PLAUNCH (R297). -/
def execPlaunch (g : BitVec 4) (a : BitVec 6) (s : State) : Out := whenSup .e g s fun t => t.plaunch (t.sr a)

/-! ## Channel instructions (R298 to R301) -/

/-- The channel that an instruction names and its local range, or the trap (R298). -/
def State.channelCheck (s : State) (c : Nat) (out : Bool) (va : Word) : Except (BitVec 8) (Chan × Rng) :=
  match s.myStage with
  | none => .error cCHAN
  | some g =>
    if !((if out then g.outm else g.inm).getLsbD c) then .error cCHAN
    else match s.chanAt s.ctx.home s.myPid c with
      | none => .error cCHAN
      | some ch =>
        match decodeRange s.here va.toNat ch.entryBytes with
        | none => .error cBOUND
        | some (w, l) =>
          if badRange s.here va ch.entryBytes then .error cBOUND
          else if !aligned va.toNat 64 then .error cALIGN
          else if w ≠ .scratch then .error cPROT
          else
            let r : Rng := (l, l + ch.entryBytes, !out)
            if s.rangeRefused r then .error cBANK else .ok (ch, r)

/-- The scope of a channel: that of its cluster, or of the module (R169, R299). -/
def Chan.scope (c : Chan) : Nat := if c.kind then 4 else 2

/-- A channel transfer as a copy command of the strand, between the local address and the slot of entry k (R301, log 24). -/
def State.channelCmd (s0 s : State) (i : Instr) (c : Nat) (ch : Chan) (k : Nat) (va : Word) (out : Bool) (r : Rng) (id : Nat)
    (slot : BitVec 4) : State :=
  let e := s.enter id [r]
  let src := if out then va else ch.entryVa k
  let dst := if out then ch.entryVa k else va
  s0.pushCmd e.2 { id := id, i := i, w := [BitVec.ofNat 64 ch.entryBytes, src, dst, 0#64, 0#64, 0#64, 0#64, 0#64], x := s.me,
                   core := s.here, sup := s.ctx.r.sup, bc := s.ctx.r.bc, sbs := e.1, twr := s.ctx.home, pid := s.myPid,
                   ch := c, entry := k, slot := slot } .copyCommandStart

/-- CHENQ: blocked on a full channel, then its segment close, its DRAIN.S, the claim and the transfer (R299). -/
def State.chenq (s : State) (i : Instr) (c : Nat) (va : Word) : State :=
  match s.channelCheck c true va with
  | .error k => s.trapAt .e k (if k = cCHAN then 0#64 else va) 0#64
  | .ok (ch, r) =>
    if ch.full || s.eqFull || !s.sbRoom 1 then s.block
    else afterClose s fun t => t.afterDrain 1#3 ch.scope fun u =>
      let q := u.fresh
      u.channelCmd (q.2.onChan u.ctx.home u.myPid c fun x => { x with tail := x.tail + 1 }) i c ch ch.tail va true r q.1 0#4

/-- CHDEQ: blocked on an empty open channel; the end indication on a closed empty one; else the claim and the transfer (R300). -/
def State.chdeq (s : State) (i : Instr) (c : Nat) (va : Word) : State :=
  match s.channelCheck c false va with
  | .error k => s.trapAt .e k (if k = cCHAN then 0#64 else va) 0#64
  | .ok (ch, r) =>
    if s.alqFull then s.block
    else if ch.deq < ch.avail then
      (if s.eqFull || !s.sbRoom 1 then s.block
       else afterClose s fun t =>
        let q := t.fresh
        let e := (q.2.onChan t.ctx.home t.myPid c fun x => { x with deq := x.deq + 1 }).reserve .e i va 0#64 0#64 []
        t.channelCmd e.2.2 i c ch ch.deq va false r q.1 e.2.1)
    else if ch.closed && ch.empty then
      afterClose s fun t =>
        let e := t.reserve .e i va 0#64 0#64 []
        e.2.2.answer t.me e.2.1 e.1 allOnes 0
    else s.block

/-- CHENQ (R299). -/
def execChenq (g : BitVec 4) (a : BitVec 6) (c : BitVec 5) (s : State) : Out :=
  whenOn g s fun t => t.chenq (.chenq g a c) c.toNat (t.sr a)
/-- CHDEQ (R300). -/
def execChdeq (g : BitVec 4) (a : BitVec 6) (c : BitVec 5) (s : State) : Out :=
  whenOn g s fun t => t.chdeq (.chdeq g a c) c.toNat (t.sr a)
/-- CHANNEL_ENTRY_AVAILABLE: entries whose bytes have performed become available in entry order (R170, R299). -/
def execChannelEntryAvailable (s : State) : Out :=
  .next (s.onChan s.ev.x s.ev.y s.ev.z fun c => Chan.publish (c.fin.length + 1) c)

/-! ## What the dispatcher sees (R173 to R175) -/

/-- Every core whose state is kept, with its number. -/
def State.allCores (s : State) : List (Nat × Core) := (s.here, s.core) :: s.cores

/-- Every strand in a context, with its number. -/
def State.inCtx (s : State) : List (Nat × Ctx) := (if s.ctx.st = .stopped then [] else [(s.me, s.ctx)]) ++ s.ctxs

/-- Contexts that hold a strand in any state, the two of a swap in progress counting as the one context that they share (R173, Table 7-8,
log 18). -/
def State.holding (s : State) : List Nat :=
  (s.inCtx.map (·.1)) ++
  (s.allCores.filterMap fun (q : Nat × Core) => q.2.shadow.bind fun h => if h.swapping then some (4 * q.1 + h.x) else none)

/-- Contexts to which a task whose image is being read is on its way (R175). -/
def State.promised (s : State) : List Nat := s.placing.filterMap fun p => if p.shadow then none else some (4 * p.core + p.x)

/-- The context numbers that the dispatcher may not bind: those that hold strands, and those promised to a task or a spilled strand on its
way (log 18). -/
def State.taken (s : State) : List Nat :=
  s.holding ++
  (s.allCores.filterMap fun (q : Nat × Core) => q.2.shadow.bind fun h => if h.out then none else some (4 * q.1 + h.x)) ++
  s.promised ++
  (s.spilled.filterMap fun q => q.back.bind fun b => if b < 4 then some (4 * q.core + b) else none)

/-- Busy contexts of a cluster, module-wide number (R173). -/
def State.busyIn (s : State) (clu : Nat) : Nat := ((s.holding.eraseDups).filter fun x => x / 96 == clu).length

/-- Busy contexts of a core as the choice of a core counts them: a task on its way into one counts, as R441 has the next task take the next core
(DEDUCED, log 18). -/
def State.busyOn (s : State) (G : Nat) : Nat := (((s.holding ++ s.promised).eraseDups).filter fun x => x / 4 == G).length

/-- The lowest free context of core G that the dispatcher may bind (R163, R175). -/
def State.freeCtxOn (s : State) (G : Nat) : Option Nat :=
  [0, 1, 2, 3].find? fun X => !(s.taken.any (· == 4 * G + X)) && !(G % 192 == 0 && X == 0)

/-- Live tasks: pipeline tower, stage id and instance (R174). -/
def State.tasks (s : State) : List (Nat × Nat × Nat) :=
  let one := fun (c : Ctx) => if c.task && !c.gone then [(c.home, c.r.stage.toNat, c.r.inst.toNat)] else []
  s.inCtx.flatMap (fun q => one q.2) ++
  s.allCores.flatMap (fun (q : Nat × Core) => match q.2.shadow with
    | some h => one h.c ++ (match h.next with
      | some c => one c
      | none => [])
    | none => []) ++
  s.spilled.flatMap (fun q => one q.c) ++ s.placing.map fun p => (p.twr, 16 * p.pid + p.stage, p.inst)

/-- Live tasks of stage k of a pipeline. -/
def State.liveOf (s : State) (p : Pipe) (k : Nat) : Nat :=
  (s.tasks.filter fun t => t.1 == p.twr && t.2.1 == 16 * p.pid + k).length

/-- A strand belongs to the pipeline. -/
def Ctx.ofPipe (T pid : Nat) (c : Ctx) : Bool := c.task && c.home == T && c.r.stage.toNat / 16 == pid

/-- The lowest instance number of a stage that no live task holds, nor an ended one whose virtual engine queue is not empty (R168, R270). -/
def State.freeInst (s : State) (p : Pipe) (k : Nat) : Nat :=
  let left := (s.inCtx.map (·.2) ++ s.past.map (·.2)).filter fun c =>
    c.gone && !c.eq.isEmpty && c.ofPipe p.twr p.pid && c.r.stage.toNat % 16 == k
  let used := (s.tasks.filter fun t => t.1 == p.twr && t.2.1 == 16 * p.pid + k).map (·.2.2) ++ left.map (·.r.inst.toNat)
  ((List.range 1024).find? fun i => !used.any (· == i)).getD 0

/-- A stage is finished (R185). -/
def State.stageDone (s : State) (p : Pipe) (k : Nat) (g : Stage) : Bool :=
  s.liveOf p k == 0 &&
    (if g.inm = 0#32 then decide (g.mini ≤ g.created)
     else (maskNums g.inm).all fun c => (p.chans[c]?).all fun ch => ch.closed && ch.empty)

/-- Channels closed whose every producer is finished, to a fixed point (R185). -/
def State.closeChans (s : State) (p : Pipe) : Nat → Pipe
  | 0 => p
  | n + 1 =>
    s.closeChans { p with chans := p.chans.zipIdx.map fun q =>
      if (p.stages.zipIdx).all fun g => !g.1.outm.getLsbD q.2 || s.stageDone p g.2 g.1 then { q.1 with closed := true } else q.1 } n

/-- Every stage is finished (R185). -/
def State.pipeFinished (s : State) (p : Pipe) : Bool := (p.stages.zipIdx).all fun g => s.stageDone p g.2 g.1

/-- A stage that needs one new task at this tick (R174). -/
def State.needs (s : State) (p : Pipe) (k : Nat) (g : Stage) : Bool :=
  let live := s.liveOf p k
  let ins := (maskNums g.inm).filterMap fun c => p.chans[c]?
  let fed := ins.any fun c => decide (1 ≤ c.occupancy)
  !p.held && !p.killed && !s.stageDone p k g &&
    ((decide (live < g.mini) && ((g.inm == 0#32 && decide (g.created < g.mini)) || fed)) ||
     (decide (live < g.maxi) && ins.any fun c => decide (c.high < c.occupancy)) || (live == 0 && fed))

/-- Effective rank of a stage in the order of R173. -/
def Stage.effRank (g : Stage) : Nat := min 7 (g.rank + g.want / 4096)

/-! ## Marks (R176) -/

/-- The channel holds CAP entries that no CHDEQ has claimed (R176). -/
def Chan.brimful (c : Chan) : Bool := c.tail - c.deq == c.cap

/-- Full output channels of a task. -/
def State.fullOuts (s : State) (c : Ctx) : List Nat :=
  match s.stageOf c with
  | none => []
  | some g => (maskNums g.outm).filter fun k => (s.chanAt c.home (c.r.stage.toNat / 16) k).any (·.brimful)

/-- Marks to park and to unpark of one task of tower T; only a running or ready task is marked, and held says that a context holds it (R176,
Table 7-8). -/
def State.markOne (s : State) (T : Nat) (held : Bool) (c : Ctx) : Ctx :=
  if !c.task || c.home != T then c
  else if c.mark && c.marked.all (fun k => (s.chanAt c.home (c.r.stage.toNat / 16) k).all fun ch => decide (ch.occupancy ≤ ch.low)) then
    (if c.st = .parked then { c with mark := false, marked := [], st := .ready, since := s.cycOf T, age := 0 }
     else { c with mark := false, marked := [] })
  else if held && !c.mark && (c.st = .running || c.st = .ready) && !(s.fullOuts c).isEmpty then
    { c with mark := true, marked := s.fullOuts c }
  else c

/-- The marks of a tick. A mark stays with a task that is displaced: it is lifted at a tick while the strand is spilled, and not looked at while it is
on its way in a shadow bank (DESIGN CHOICE, log 68). -/
def State.markAll (s : State) (T : Nat) : State :=
  { s with
    ctx := s.markOne T true s.ctx
    ctxs := s.ctxs.map fun (q : Nat × Ctx) => (q.1, s.markOne T true q.2)
    spilled := s.spilled.map fun q => { q with c := s.markOne T false q.c } }

/-! ## Placement and displacement (R175, R178, R179, R181) -/

/-- Busy contexts per cluster below which tasks bind, as of this tick (R190). -/
def State.threshold (s : State) (T : Nat) : Nat := min 96 (bits (s.dsp.getD T 0#64) 14 8)

/-- Module-wide clusters on which a stage may run. -/
def clustersOf (T : Nat) (m : BitVec 8) : List Nat := ((List.range 8).filter fun c => m.getLsbD c).map (8 * T + ·)

/-- The cluster is at DTHR or closed to new dispatch (R173). -/
def State.atThreshold (s : State) (T clu : Nat) : Bool :=
  (s.reg (oTHCLOSE T)).getLsbD (clu % 8) || decide (s.threshold T ≤ s.busyIn clu)

/-- The element of least key, the first on a tie. -/
def leastBy {α : Type} (key : α → Nat) : List α → Option α
  | [] => none
  | a :: t => match leastBy key t with
    | none => some a
    | some b => if key b < key a then some b else some a

/-- The strands that belong to core G, in a context, its shadow bank or spilled. -/
def State.strandsOf (s : State) (G : Nat) : List Ctx :=
  ((s.inCtx.filter fun q => q.1 / 4 == G).map (·.2)) ++
  (match (s.coreAt G).shadow with
    | some h => h.c :: h.next.toList
    | none => []) ++
  (s.spilled.filter fun q => q.core == G && !q.saved).map (·.c)

/-- Every bank of a stage's HOMASK is free or held by a task of a stage that feeds it (R175), wherever that task is held (R207). -/
def State.homeReady (s : State) (p : Pipe) (g : Stage) (G : Nat) : Bool :=
  let feeder := fun (tag : BitVec 8) => (s.strandsOf G).any fun c =>
    c.r.tag == tag && c.task && c.home == p.twr && c.r.stage.toNat / 16 == p.pid &&
      (p.stages[c.r.stage.toNat % 16]?).any fun f => (f.outm &&& g.inm) != 0#32
  (maskNums g.homask).all fun b => !s.bankHeld G b || feeder (s.bankTag G b)

/-- The core and context that a new task is bound to (R175). A cluster that has had its one task of the tick is passed over for the next
(DESIGN CHOICE, log 58). -/
def State.bindTarget (s : State) (p : Pipe) (g : Stage) (used : List Nat) : Option (Nat × Nat) :=
  let coresOf := fun (clu : Nat) => ((List.range 24).map (24 * clu + ·)).filter fun G =>
    (s.freeCtxOn G).isSome && (s.freeTag G).isSome
  let clus := (clustersOf p.twr g.clus).filter fun c => !used.any (· == c) && !s.atThreshold p.twr c && !(coresOf c).isEmpty
  match leastBy s.busyIn clus with
  | none => none
  | some c =>
    let all := coresOf c
    let good := all.filter (s.homeReady p g)
    match leastBy s.busyOn (if good.isEmpty then all else good) with
    | none => none
    | some G => (s.freeCtxOn G).map fun X => (G, X)

/-- The strands of core G that a stage of effective rank k may displace (R178). -/
def State.victims (s : State) (G k : Nat) : List (Nat × Ctx) :=
  (s.inCtx.filter fun q => q.1 / 4 == G).filter fun q =>
    q.2.replaceable && (q.2.st == .parked || decide (s.effRank q.2 < k))

/-- The order among victims: parked ones alone where there are any, then lowest effective rank, core and context (R178). -/
def State.chooseVictim (s : State) (l : List (Nat × Ctx)) : Option Nat :=
  let parked := l.filter fun q => q.2.st == .parked
  (leastBy (fun (q : Nat × Ctx) => s.effRank q.2 * 2 ^ 16 + q.1) (if parked.isEmpty then l else parked)).map (·.1)

/-- A task is staged, or on its way to being staged, in core G's shadow bank; urgent ones alone where u is true (R179). A core serves an urgent swap
already while the image of its task is being read (DESIGN CHOICE, log 69). -/
def State.staging (s : State) (G : Nat) (u : Bool) : Bool :=
  (match (s.coreAt G).shadow with
    | some h => (!h.out || (h.swapping && h.urgent)) && (!u || h.urgent)
    | none => false) ||
  (s.placing.any fun q => q.shadow && q.core == G && (!u || q.urgent)) ||
  (!u && s.spilled.any fun q => q.core == G && q.back.any fun b => decide (4 ≤ b))

/-- The victim of a displacement that is not urgent (R178). Victims of a core whose shadow bank has a task staged, or on its way, are passed over
(DESIGN CHOICE, log 55). -/
def State.displaceTarget (s : State) (p : Pipe) (g : Stage) (used : List Nat) : Option Nat :=
  let ok := fun (G : Nat) => !s.staging G false && (s.freeTag G).isSome
  let clus := (clustersOf p.twr g.clus).filter fun c => !used.any (· == c)
  s.chooseVictim (clus.flatMap fun c => ((List.range 24).map (24 * c + ·)).flatMap fun G =>
    if ok G then s.victims G g.effRank else [])

/-- The victim of an urgent displacement (R179). -/
def State.urgentTarget (s : State) (p : Pipe) (g : Stage) (used : List Nat) : Option Nat :=
  let clus := (clustersOf p.twr g.clus).filter fun c => !used.any (· == c)
  let cores := clus.flatMap fun c => ((List.range 24).map (24 * c + ·)).filter fun G =>
    !s.staging G true && (s.freeTag G).isSome && !(s.victims G g.effRank).isEmpty
  (leastBy (fun (G : Nat) => (s.busyIn (G / 24) * 8 + G / 24 % 8) * 2 ^ 16 + s.busyOn G * 2 ^ 8 + G % 24) cores).bind fun G =>
    s.chooseVictim (s.victims G g.effRank)

/-- A stage of a pipeline changed. -/
def State.onStage (s : State) (T pid k : Nat) (f : Stage → Stage) : State :=
  s.onPipe T pid fun p => { p with stages := p.stages.modify k f }

/-- A staged strand gives way: a task is pending again, without a place; a reinstated strand is spilled again (R177, R179, R182). -/
def State.unstage (s : State) (G : Nat) : State :=
  let s1 : State := match s.staged G with
    | none => s
    | some h =>
      let t : State := s.onCore G fun co => { co with shadow := none }
      (match h.src with
        | some im => { t with spilled := t.spilled ++ [{
            core := G, image := im, written := true
            c := { h.c with flight := h.c.flight.filter fun a => !a.flt, late := h.c.flight.filter (·.flt) } }] }
        | none =>
          let q := t.fresh
          { q.2 with placing := q.2.placing ++ [{
              id := q.1, twr := h.c.home, pid := h.c.r.stage.toNat / 16, stage := h.c.r.stage.toNat % 16, inst := h.c.r.inst.toNat,
              core := 1536, x := 0, shadow := false }] })
  { s1 with
    placing := s1.placing.map fun q => if q.shadow && q.core == G then { q with core := 1536, shadow := false, urgent := false } else q
    spilled := s1.spilled.map fun q => if q.core == G && q.back.any (fun b => decide (4 ≤ b)) then { q with back := none } else q }

/-- A task of a stage sent to a place: one that is pending without a place, else a new one; its image is on its way (R168, R175, R178). The rank
that the stage has gained falls back now and at no other time (DESIGN CHOICE, log 57). -/
def State.place (s : State) (p : Pipe) (k G X : Nat) (shadow urgent : Bool) : State :=
  let t := s.onStage p.twr p.pid k fun g => { g with want := 0 }
  match t.placing.find? fun q => q.twr == p.twr && q.pid == p.pid && q.stage == k && q.core == 1536 with
  | some o =>
    { t with
      placing := t.placing.map fun q => if q.id == o.id then { q with core := G, x := X, shadow := shadow, urgent := urgent } else q
      agenda := t.agenda ++ [{ i := .taskImageArrival, x := p.twr, y := o.id }] }
  | none =>
    let q := t.fresh
    let pl : Placing := { id := q.1, twr := p.twr, pid := p.pid, stage := k, inst := s.freeInst p k, core := G, x := X,
                          shadow := shadow, urgent := urgent }
    let u := q.2.onStage p.twr p.pid k fun g => { g with created := g.created + 1 }
    { u with placing := u.placing ++ [pl], agenda := u.agenda ++ [{ i := .taskImageArrival, x := p.twr, y := q.1 }] }

/-- A task of the stage is pending without a place (R177). -/
def State.unplaced (s : State) (T pid k : Nat) : Bool :=
  s.placing.any fun q => q.twr == T && q.pid == pid && q.stage == k && q.core == 1536

/-- One stage served at a tick, and the clusters that have had their task (R173 step 5). -/
def State.serve (s : State) (T pid k : Nat) (used : List Nat) : State × List Nat :=
  match s.pipeAt T pid with
  | none => (s, used)
  | some p =>
    match p.stages[k]? with
    | none => (s, used)
    | some g =>
      if !s.needs p k g && !s.unplaced T pid k then (s, used)
      else match s.bindTarget p g used with
        | some (G, X) => (s.place p k G X false false, G / 24 :: used)
        | none =>
          let wait := (s.onStage T pid k fun h => { h with want := h.want + 1 }, used)
          if !(clustersOf T g.clus).all (s.atThreshold T) then wait
          else
            let urgent := g.urg && (s.dsp.getD T 0#64).getLsbD 16
            match (if urgent then s.urgentTarget p g used else s.displaceTarget p g used) with
            | none => wait
            | some x =>
              let s1 := if urgent then s.unstage (x / 4) else s
              (s1.place p k (x / 4) (x % 4) true urgent, x / 96 :: used)

/-- The stages of a tower with their keys in the order of R173 step 4. -/
def State.stageOrder (s : State) (T : Nat) : List (Nat × Nat × Nat) :=
  let all := (s.pipes.filter fun p => p.twr == T).flatMap fun p => p.stages.zipIdx.map fun g =>
    ((7 - g.1.effRank) * 64 + 16 * p.pid + g.2, p.pid, g.2)
  all.foldl (fun acc e => insertStage e acc) []
where
  /-- Insertion by key. -/
  insertStage (e : Nat × Nat × Nat) : List (Nat × Nat × Nat) → List (Nat × Nat × Nat)
    | [] => [e]
    | a :: t => if e.1 < a.1 then e :: a :: t else a :: insertStage e t

/-- Staged strands whose victim has reached supervisor level give way before the tick chooses again (R182). -/
def State.unstageLost (s : State) (T : Nat) : State :=
  (s.allCores.filter fun (q : Nat × Core) => twrOf q.1 == T).foldl (fun (t : State) (q : Nat × Core) =>
    match t.staged q.1 with
    | none => t
    | some h => if (t.ctxAt (4 * q.1 + h.x)).any fun c => !c.replaceable && !c.gone then t.unstage q.1 else t) s

/-- One spilled strand given a way back: a free context of its core, or a displacement there with its stage rank (R181). -/
def State.reinstate (s : State) (q : Spilled) : State :=
  let rank := match s.stageOf q.c with
    | some g => g.rank
    | none => 0
  let back := fun (b : Nat) =>
    { s with
      spilled := s.spilled.map fun p => if p == q then { p with back := some b } else p
      agenda := s.agenda ++ [{ i := .reinstatementComplete, x := q.core, y := b }] }
  match s.freeCtxOn q.core with
  | some X => back X
  | none =>
    if s.staging q.core false then s
    else match s.chooseVictim (s.victims q.core rank) with
      | some x => back (4 + x % 4)
      | none => s

/-- The spilled strands of tower T reinstated where they can be (R173 step 6). -/
def State.reinstateAll (s : State) (T : Nat) : State :=
  s.spilled.foldl (fun (t : State) q =>
    if q.saved || !q.written || q.back.isSome || twrOf q.core != T then t else t.reinstate q) s

/-- What DSPBUSY reads (R173 step 1). -/
def State.busyWord (s : State) (T : Nat) : Word :=
  BitVec.ofNat 64 ((List.range 8).foldl (fun acc c => acc + s.busyIn (8 * T + c) % 128 * 2 ^ (7 * c)) 0)

/-- A tick of tower T's dispatcher (R172, R173). -/
def State.tick (s0 : State) (T : Nat) : State :=
  let s := { s0 with dsp := s0.dsp.setIfInBounds T (s0.reg (oDSPCTL T)) }
  let s1 := ((s.unstageLost T).setReg (oDSPBUSY T) (s.busyWord T)).markAll T
  let s2 : State := { s1 with pipes := s1.pipes.map fun p => if p.twr == T then s1.closeChans p 17 else p }
  let s3 : State × List Nat := (s2.stageOrder T).foldl
    (fun (q : State × List Nat) (e : Nat × Nat × Nat) => q.1.serve T e.2.1 e.2.2 q.2) (s2, [])
  let s4 : State := s3.1.reinstateAll T
  { s4 with agenda := s4.agenda ++ (s4.pipes.filter fun p => p.twr == T && !p.killed && s4.pipeFinished p).map fun p =>
      { i := .pipelineDone, x := T, y := p.pid } }

/-- DISPATCHER_TICK (R172, R173). -/
def execDispatcherTick (s : State) : Out := .next (s.tick s.ev.x)

/-! ## Task images (R168, R446) -/

/-- The registers of a new task (R168); the spec does not give its lane rotation, which begins at 0 (DESIGN CHOICE, log 6). -/
def taskRegs (p : Pipe) (k i : Nat) (g : Stage) (im : List Word) (tag : BitVec 8) : Regs :=
  let s0 := im.set 0 0#64
  let s1 := (s0.set 1 (BitVec.ofNat 64 i)).set 2 p.man
  let r : Regs := { Regs.reset with
    s := Vector.ofFn fun (j : Fin 64) => s1.getD j.val 0#64
    pc := g.entry
    sup := false
    tfb := g.tfbb + BitVec.ofNat 64 (i * 0x8000)
    spl := g.splb + BitVec.ofNat 64 (i * 0x4000)
    tag := tag
    rbKey := g.rbkey + BitVec.ofNat 64 i
    stage := BitVec.ofNat 6 (16 * p.pid + k)
    inst := BitVec.ofNat 10 i
    run := BitVec.ofNat 32 g.ybud }
  r.rbStart 0#128

/-- The image read of a task fails: the place is free, one notice, and the pipeline is killed (R446). -/
def State.imageFails (s : State) (q : Placing) (g : Stage) (cause : BitVec 8) (va : Word) : State :=
  let s1 := { s with placing := s.placing.filter fun p => p.id != q.id }
  (s1.notice q.twr cause (4 * q.core + q.x) (BitVec.ofNat 6 (16 * q.pid + q.stage)) (g.tfbb + BitVec.ofNat 64 (q.inst * 0x8000))
    g.entry va).queue { i := .pipelineKill, x := q.twr, y := q.pid }

/-- A task whose image has arrived: bound into its context and ready, or staged once the shadow bank is free (R168, R175, R178,
R446). -/
def State.imageArrives (s : State) (id : Nat) : State :=
  match s.placing.find? fun q => q.id == id with
  | none => s
  | some q =>
    match s.pipeAt q.twr q.pid with
    | none => { s with placing := s.placing.filter fun p => p.id != id }
    | some p =>
      if q.core = 1536 then s
      else if !q.shadow && (s.ctxAt (4 * q.core + q.x)).isSome then
        { s with placing := s.placing.map fun r => if r.id == id then { r with core := 1536 } else r }
      else
      let g := p.stages.getD q.stage default
      let im := if g.image = 0#64 then .ok (List.replicate 64 0#64, s) else s.dispRead q.core g.image 64
      match im with
      | .error (.fault c va _ u) => (s.kept u).imageFails q g c va
      | .error (.wait u) => (s.kept u).queue s.ev
      | .error (.ask va u) => (s.kept u).sleepOn q.twr va fun t => t.imageFails q g cPAGE va
      | .ok (ws, t) =>
        match t.freeTag q.core with
        | none => s.queue s.ev
        | some tag =>
          if q.shadow && (t.coreAt q.core).shadow.isSome then s.queue s.ev
          else
            let c : Ctx := { Ctx.reset with r := taskRegs p q.stage q.inst g ws tag, st := .ready, since := t.cycOf q.twr, task := true, home := q.twr }
            let t1 := { t with placing := t.placing.filter fun r => r.id != id }
            if q.shadow then
              (t1.onCore q.core fun co => { co with shadow := some { c := c, x := q.x, out := false, urgent := q.urgent } }).queue
                { i := .shadowBankSwap, x := q.core }
            else t1.putCtx (4 * q.core + q.x) c

/-- TASK_IMAGE_ARRIVAL (R168, R446). -/
def execTaskImageArrival (s : State) : Out := .next (s.imageArrives s.ev.y)

/-! ## The end of a pipeline (R166, R185, R186) -/

/-- A strand of the pipeline that has ended still has something to perform, so that its final STATUS waits (R166). -/
def State.pipeBusy (s : State) (T pid : Nat) : Bool :=
  (s.past.any fun q => q.2.ofPipe T pid) || (s.inCtx.any fun q => q.2.ofPipe T pid) ||
    s.allCores.any fun (q : Nat × Core) => q.2.shadow.any fun h => h.c.ofPipe T pid

/-- The channel counts written back to their descriptors, a killed pipeline's without claims that never became available (R185,
R186). -/
def State.writeCounts (s : State) (p : Pipe) : Except Stop State :=
  let G := 192 * p.twr
  let base := p.man + BitVec.ofNat 64 (0x40 + 128 * p.stages.length)
  p.chans.foldlM (fun (t : State) c => do
    let a := base + BitVec.ofNat 64 (64 * c.desc)
    let u ← t.dispPut G (a + 0x18#64) (BitVec.ofNat 64 c.head)
    u.dispPut G (a + 0x20#64) (BitVec.ofNat 64 (if p.killed then c.avail else c.tail))) s

/-- The slot freed after the counts and the final STATUS, which is a seal at .mod: every copy in the module has accepted its invalidations, and
they are applied (R123, R166, R185). While a page or an HBM4 has it wait, it is tried again. -/
def State.endPipe (s : State) (p : Pipe) (state : Nat) : State :=
  let coming := fun (t : State) => t.inval.any fun v => !v.acc
  let run : Except Stop (Bool × State) := do
    if coming s then throw (.wait none)
    let s1 ← s.writeCounts p
    if coming s1 then return (false, s1)
    let s2 ← ({ s1 with inval := [] } : State).dispPut (192 * p.twr) (p.man + 8#64) (statusWord state 0 p.pid)
    return (true, s2)
  match run with
  | .error (.wait u) => (s.kept u).queue s.ev
  | .error (.ask va u) => (s.kept u).sleepOn p.twr va id
  | .error (.fault _ _ _ u) => (s.kept u).queue s.ev
  | .ok (false, s1) => s1.queue s.ev
  | .ok (true, s2) =>
    let s3 := s2.setReg (oPLCTL p.twr p.pid) 0#64
    let s4 := s3.setReg (oDSPHOLD p.twr) (s3.reg (oDSPHOLD p.twr) &&& ~~~(1#64 <<< p.pid))
    { s4 with pipes := s4.pipes.filter fun q => !(q.twr == p.twr && q.pid == p.pid) }

/-- PIPELINE_DONE (R185). -/
def execPipelineDone (s : State) : Out :=
  .next (match s.pipeAt s.ev.x s.ev.y with
    | none => s
    | some p =>
      if p.killed || !s.pipeFinished p then s
      else if s.pipeBusy p.twr p.pid then s.queue s.ev
      else s.endPipe p 2)

/-- One strand in a context killed with its notice (R186, R213). -/
def State.killStrand (s : State) (x : Nat) : State :=
  match s.ctxAt x with
  | none => s
  | some c => if c.gone then s else (s.notice (twrOf (x / 4)) cKILL x c.r.stage c.r.tfb c.r.pc 0#64).endStrand x

/-- The first half of a kill: every task of the pipeline stops, and pending, staged and spilled ones are discarded (R186). -/
def State.killTasks (s : State) (T pid : Nat) : State :=
  let mine := Ctx.ofPipe T pid
  let away := (s.allCores.filterMap fun (q : Nat × Core) => q.2.shadow.bind fun h =>
      if mine h.c && !h.swapping && (h.out || h.src.isSome) then some (q.1, h.c) else none) ++
    (s.allCores.filterMap fun (q : Nat × Core) => q.2.shadow.bind fun h =>
      if h.src.isSome then (h.next.filter mine).map fun c => (q.1, c) else none) ++
    ((s.spilled.filter fun q => mine q.c).map fun q => (q.core, q.c))
  let k := fun (co : Core) => { co with shadow := match co.shadow with
    | some h => if !h.out && mine h.c then none
      else some { h with next := h.next.bind fun c => if mine c then none else some c }
    | none => none }
  let gone := fun (co : Core) => { (k co) with shadow := match (k co).shadow with
    | some h => if h.out && mine h.c && !h.swapping then none else some h
    | none => none }
  let s1 := { s with
    core := gone s.core
    cores := s.cores.map fun (q : Nat × Core) => (q.1, gone q.2)
    spilled := s.spilled.filter fun q => !mine q.c
    placing := s.placing.filter fun q => !(q.twr == T && q.pid == pid) }
  let s2 := away.foldl (fun (t : State) q => t.killAway q.1 q.2) s1
  let s3 := ((s2.inCtx.filter fun q => mine q.2).map (·.1)).foldl State.killStrand s2
  if s.ctx.st != .stopped && s3.ctx.st == .stopped then s3.switch else s3

/-- PIPELINE_KILL: the tasks stop; once what they issued has performed, the counts and STATUS are written (R186). -/
def execPipelineKill (s : State) : Out :=
  .next (match s.pipeAt s.ev.x s.ev.y with
    | none => s
    | some p =>
      let s1 := if p.killed then s else (s.onPipe p.twr p.pid fun q => { q with killed := true }).killTasks p.twr p.pid
      let p1 := { p with killed := true, chans := (s1.pipeAt p.twr p.pid).elim p.chans (·.chans) }
      if s1.pipeBusy p.twr p.pid then s1.queue s.ev else s1.endPipe p1 4)

end Sys2Proof.Machine
end

