-- ==== Sys2Proof/Machine/Registers.lean ====
section
/-! DEFINITION. Reads and writes of the MMIO and CSR window with their side effects (R52, R53, R66, R81, R83, R151, R186, R211, R295,
R302, R328, R415, R422), and the events that such writes start. -/

namespace Sys2Proof.Machine

/-! ## Barrier counters and bank ownership (R66, R295) -/

/-- A write of TGT: a change clears CNT and leaves PHASE (R295). -/
def State.writeTarget (s : State) (off : Nat) (x : Word) : State :=
  let old := s.reg off
  let w := setBits old 44 32 (bits x 44 32)
  s.setReg off (if bits old 44 32 = bits x 44 32 then w else setBits w 12 0 0)

/-- The core of an ownership register. -/
def coreOfReg (off : Nat) : Nat := 192 * (off / 0x100000) + (off % 0x100000 - 0x8000) / 0x40

/-- The strand whose register write this is: one more than its context's number, or 0 for the host's (R53). -/
abbrev Writer := Nat

/-- A write of BHELD to the banks of a mask: freed as by the holder's BREL, held once R64 allows, or left alone where the tag is 0; banks that must
wait to be held stay due (R65, R66). -/
def State.writeBheld (s : State) (by' : Writer) (off : Nat) (x : Word) (mask : BitVec 32) : State :=
  let G := coreOfReg off
  let r := (List.range 32).foldl (fun (q : State × BitVec 32) b =>
    let t := q.1
    let later := (t, q.2 ||| (1#32 <<< b))
    if !mask.getLsbD b || t.bankHeld G b == x.getLsbD b then q
    else if t.bankHeld G b then (t.releaseBank G b (t.bankTag G b), q.2)
    else if t.bankTag G b == 0#8 then q
    else if t.bankReady G b then (t.holdBank G b (t.bankTag G b), q.2)
    else later) (s, 0#32)
  if r.2 = 0#32 then r.1 else r.1.queue { i := .bheldWrite, x := off, v := x, w := r.2.setWidth 64, by' := by' }

/-- A write of BHOLDn to the tags of a mask of its eight banks: at once for a free bank, for a held one when its engine operations
have completed and the tag is not 0 (R66). -/
def State.writeBhold (s : State) (by' : Writer) (off : Nat) (x : Word) (mask : BitVec 8) : State :=
  let G := coreOfReg off
  let n := (off % 0x40 - 8) / 8
  let r := (List.range 8).foldl (fun (q : State × BitVec 8) k =>
    let t := q.1
    let b := 8 * n + k
    let tag := x.extractLsb' (8 * k) 8
    let put := t.setReg off (setBits (t.reg off) (8 * k + 7) (8 * k) tag.toNat)
    if !mask.getLsbD k || t.bankTag G b == tag then q
    else if !t.bankHeld G b then (put, q.2)
    else if tag == 0#8 then q
    else if t.bankBusy G b none then (t, q.2 ||| (1#8 <<< k))
    else (put, q.2)) (s, 0#8)
  if r.2 = 0#8 then r.1 else r.1.queue { i := .bholdWrite, x := off, v := x, w := r.2.setWidth 64, by' := by' }

/-! ## The hash masks (R79, R81) -/

/-- The pending masks of tower T. -/
def State.pendingMasks (s : State) (T : Nat) : Vector Word 8 := Vector.ofFn fun (i : Fin 8) => s.reg (tb T (0x1000 + 8 * i.val))

/-- Gaussian elimination over GF(2): the rows are independent. -/
def independent : Nat → List Nat → Bool
  | 0, l => l.isEmpty
  | _ + 1, [] => true
  | n + 1, a :: t =>
    if a = 0 then false
    else
      let k := Nat.log2 a
      independent n (t.map fun b => if bitOf b k then b ^^^ a else b)

/-- A mask set is valid (R79). -/
def validMasks (ms : List Word) : Bool :=
  let ks := ms.map keyBit
  ms.all (· != 0#64) && ks.eraseDups.length == 8 &&
    independent 9 (ms.map fun m => ks.zipIdx.foldl (fun acc q => if m.getLsbD q.1 then acc + 2 ^ q.2 else acc) 0)

/-- GO of HCOMMIT: ignored while busy; refused for an invalid set or under a redirect; else a commit of the set as it is now begins, so that only
a valid set is ever active (R79, R81). -/
def State.commitGo (s : State) (T : Nat) : State :=
  let w := s.reg (oHCOMMIT T)
  if w.getLsbD 8 then s
  else if !validMasks (s.pendingMasks T).toList || (s.reg (oRTRCTL T)).getLsbD 8 then s.setReg (oHCOMMIT T) (w ||| 0x200#64)
  else
    ({ (s.setReg (oHCOMMIT T) (w ||| 0x100#64)) with hnext := s.hnext.setIfInBounds T (s.pendingMasks T) } : State).queue
      { i := .hashCommitComplete, x := T }

/-- Dirty sectors of tower T written back, counted in SLFLUSH (R76, R77). -/
def State.flushSectors (s : State) (T : Nat) : State :=
  let n := (s.sdirty.filter fun a => hbmTower a == T).length
  { ((s.countUp (oSLFLUSH T) n).meetHbm 9 T n) with sdirty := s.sdirty.filter fun a => hbmTower a != T }

/-- The end of a commit: the S-layer is flushed and, its lines having other places now, empty; the set captured at GO is active (DESIGN CHOICE, log
53), no location of the tower's HBM4 is defined until it is written, and records that waited are written (R81, R82). -/
def State.commitDone (s : State) (T : Nat) : State :=
  let w := s.reg (oHCOMMIT T)
  if !w.getLsbD 8 then s
  else
    ({ ((s.flushSectors T).setReg (oHCOMMIT T) (w &&& ~~~0x300#64)) with
      slayer := s.slayer.filter fun q => q.1 / 0x20000 != T
      hactive := s.hactive.setIfInBounds T (s.hnext.getD T powerOnMasks)
      epoch := s.epoch.setIfInBounds T (s.epoch.getD T 0 + 1)
      since := s.since.filter fun a => !(isHbm a && hbmTower a == T) } : State).writeRecords

/-! ## The redirect (R83) -/

/-- EN := 1 with a pseudo-channel, ignored during a commit; where the last redirect is still being taken back, it is requested once ACT is clear (R83,
R431; by' names the strand that waits for it, log 53). -/
def State.redirectOn (s : State) (by' : Writer) (T : Nat) (x : Word) : State :=
  if (s.reg (oHCOMMIT T)).getLsbD 8 || (s.reg (oRTRCTL T)).getLsbD 8 then s
  else if (s.reg (oRTRCTL T)).getLsbD 16 then s.queue { i := .rtrctlEnable, x := T, v := x, by' := by' }
  else (s.setReg (oRTRCTL T) (setBits (s.reg (oRTRCTL T)) 8 0 (256 + bits x 7 0))).queue { i := .redirectActive, x := T }

/-- EN := 0; PSI stays as it was (R83). -/
def State.redirectOff (s : State) (T : Nat) : State :=
  if (s.reg (oRTRCTL T)).getLsbD 8 then
    (s.setReg (oRTRCTL T) (s.reg (oRTRCTL T) &&& ~~~0x100#64)).queue { i := .redirectReleased, x := T }
  else s

/-- A write of RTRCTL (R83). -/
def State.writeRtrctl (s : State) (by' : Writer) (T : Nat) (x : Word) : State :=
  if x.getLsbD 8 then s.redirectOn by' T x
  else if (s.reg (oRTRCTL T)).getLsbD 8 then s.redirectOff T
  else s.setReg (oRTRCTL T) (setBits (s.reg (oRTRCTL T)) 7 0 (bits x 7 0))

/-! ## Other registers with behaviour of their own -/

/-- A new dirty cap: every slice above it writes its oldest sectors back (R75). -/
def State.capAll (s : State) (T : Nat) : State :=
  let key := fun a => hbmTower a * 256 + s.psi a
  let keep := s.sdirty.foldl (fun (acc : List Nat) a =>
    if hbmTower a != T then acc ++ [a]
    else if ((s.sdirty.dropWhile (· != a)).filter fun b => key b == key a).length ≤ s.dirtyCap T then acc ++ [a] else acc) []
  { (s.wroteBack T (s.sdirty.length - keep.length)) with sdirty := keep }

/-- A write of 1 to FPLST.OWNED: the plot is released in plot order (R328, R338). -/
def State.releasePlot (s : State) (by' : Writer) (n : Nat) : State :=
  let w := s.plotWord n
  if !w.getLsbD 53 then s
  else
    let q := s.fresh
    { q.2 with
      fops := q.2.fops ++ [{ id := q.1, core := 192 * plotTower n + bits w 61 54, plot := n, kind := 1 }]
      agenda := q.2.agenda ++ [{ i := .plotReleasePerform, y := q.1, by' := by' }] }

/-- MSIGEN: values 1 and 2 are ignored (R415). -/
def State.writeMsigen (s : State) (x : Word) : State :=
  match bits x 1 0 with
  | 0 => s.sendMsi 0
  | 3 => s.sendMsi 3
  | _ => s

/-- The registers that the attestation report digests, read when GO is written (Table 18-9). -/
def State.attested (s : State) : List Byte :=
  let ws := ((List.range 8).flatMap fun T => (s.pendingMasks T).toList) ++ [s.reg oTRROOT, s.reg oTRCFG, s.reg (oDSPCTL 0)]
  ws.flatMap fun w => natToBytes 8 w.toNat

/-- The physical address that ATTCTL.BUF names. -/
def State.attBuf (s : State) : Nat := bits (s.reg oATTCTL) 63 6 * 64

/-- ATTCTL: GO starts a request unless one is in progress (R422). -/
def State.writeAttctl (s : State) (x : Word) : State :=
  let s1 := s.setReg oATTCTL (plainWrite (csrAccess oATTCTL) (s.reg oATTCTL) x)
  if !x.getLsbD 0 || (s.reg oATTCTL).getLsbD 1 then s1
  else (s1.setReg oATTCTL (s1.reg oATTCTL ||| 2#64)).queue
    (if x.getLsbD 2 then { i := .attestCert, y := s1.attBuf } else { i := .attestReport, y := s1.attBuf, bytes := s.attested })

/-- ALCTLp.EN: a port set to 0 goes down once its requests have completed; set to 1 it trains (R418, Table 18-7). -/
def State.writeAlctl (s : State) (p : Nat) (x : Word) : State :=
  let old := s.reg (oALCTL p)
  let t := s.setReg (oALCTL p) (plainWrite (csrAccess (oALCTL p)) old x)
  if old.getLsbD 0 && !x.getLsbD 0 then t.queue { i := .linkDown, x := p, y := 1 } else t

/-- A released pipeline's hold bit clears (R211). -/
def State.releaseHold (s : State) (T : Nat) (x : Word) : State :=
  { (s.setReg (oDSPHOLD T) (s.reg (oDSPHOLD T) &&& ~~~x)) with
    pipes := s.pipes.map fun p => if p.twr == T && x.getLsbD p.pid then { p with held := false } else p }

/-- A write to the register at a window offset, side effects included; by' names the strand that waits for those that take effect later (R52,
R53). -/
def State.writeReg (s : State) (by' : Writer) (off : Nat) (x : Word) : State :=
  let T := off / 0x100000
  let o := off % 0x100000
  let plain := s.setReg off (plainWrite (csrAccess off) (s.reg off) x)
  if off % 8 ≠ 0 then s
  else if 0x800000 ≤ off then
    (if off = oMSIGEN then s.writeMsigen x
     else if off = oATTCTL then s.writeAttctl x
     else if 0x801000 ≤ off ∧ off < 0x8010c0 then s.writeAlctl ((off - 0x801000) / 8) x
     else plain)
  else if o = 0x1040 then (if x.getLsbD 0 then s.commitGo T else s)
  else if o = 0x1080 then s.writeRtrctl by' T x
  else if o = 0x1100 then plain.capAll T
  else if 0x4020 ≤ o ∧ o < 0x4040 then
    (if x.getLsbD 0 && (s.reg off).getLsbD 1 then s.queue { i := .pipelineKill, x := T, y := (o - 0x4020) / 8, by' := by' } else s)
  else if o = 0x4048 then s.releaseHold T x
  else if 0x6000 ≤ o ∧ o < 0x7200 then s.writeTarget off x
  else if 0x8000 ≤ o ∧ o < 0xb000 then
    (if o % 0x40 = 0 then s.writeBheld by' off x 0xffffffff#32
     else if o % 0x40 ≤ 0x20 then s.writeBhold by' off x 0xff#8 else s)
  else match plotOfReg off with
    | some n => if x.getLsbD 53 then s.releasePlot by' n else s
    | none => plain

/-! ## CSRR and CSRW (R302) -/

/-- The window offset of CSR number n for core G (R302). -/
def csrOffset (G : Nat) (n : BitVec 15) : Nat :=
  (if n.getLsbD 14 then 0x800000 else tb (twrOf G) 0) + 8 * (n.toNat % 2 ^ 14)

/-- A register write of the current strand has not taken its whole effect, so that a later read of the window waits (R53, R302). -/
def State.writesLeft (s : State) : Bool := s.agenda.any fun (e : Ev) => e.by' == s.me + 1

/-- CSRR at latency 2, after the effects of the strand's earlier register writes (R53, R302). -/
def execCsrr (g : BitVec 4) (d : BitVec 6) (n : BitVec 15) (s : State) : Out :=
  whenSup .e g s fun t =>
    if t.writesLeft then t.freeze
    else
      let x := t.readReg (csrOffset t.here n)
      t.land 2 .e (.csrr g d n) [.s d x] (opd x) 0#1024 0#1024 (t.pr g) 0#64
/-- CSRW: irrevocable (R144, R302). -/
def execCsrw (g : BitVec 4) (a : BitVec 6) (n : BitVec 15) (s : State) : Out :=
  whenSup .e g s fun t => afterClose t fun u => u.writeReg (u.me + 1) (csrOffset u.here n) (u.sr a)

/-! ## Register events -/

/-- BARRIER_TARGET_WRITE (R295). -/
def execBarrierTargetWrite (s : State) : Out := .next (s.writeTarget s.ev.x s.ev.v)
/-- BHELD_WRITE: w names the banks still due, all where it is 0 (R66). -/
def execBheldWrite (s : State) : Out :=
  .next (s.writeBheld s.ev.by' s.ev.x s.ev.v (if s.ev.w = 0#64 then 0xffffffff#32 else s.ev.w.setWidth 32))
/-- BHOLD_WRITE: w names the banks still due, all where it is 0 (R66). -/
def execBholdWrite (s : State) : Out :=
  .next (s.writeBhold s.ev.by' s.ev.x s.ev.v (if s.ev.w = 0#64 then 0xff#8 else s.ev.w.setWidth 8))
/-- HCOMMIT_GO (R81). -/
def execHcommitGo (s : State) : Out := .next (s.commitGo s.ev.x)
/-- HASH_COMMIT_COMPLETE (R81, R82). -/
def execHashCommitComplete (s : State) : Out := .next (s.commitDone s.ev.x)
/-- RTRCTL_ENABLE (R83). -/
def execRtrctlEnable (s : State) : Out := .next (s.redirectOn s.ev.by' s.ev.x s.ev.v)

/-- The NOW of the stack of a pseudo-channel, as the forecast has it (R426, R431). -/
def State.stackNow (s : State) (T p : Nat) : Nat := bits (s.reg (oTHFC T (7 + p / 64))) 31 16

/-- EN := 0: where firmware retrains the pseudo-channel, it has trained it (R83, R431). -/
def State.redirectEnds (s : State) (T : Nat) : State :=
  match s.retrain.getD T none with
  | some p => ({ s with trained := putKey s.trained (256 * T + p) (s.stackNow T p) } : State).redirectOff T
  | none => s.redirectOff T

/-- RTRCTL_DISABLE (R83). -/
def execRtrctlDisable (s : State) : Out := .next (s.redirectEnds s.ev.x)

/-- ACT is set; where firmware asked for the redirect it trains the pseudo-channel and then clears EN (R83, R431). -/
def State.redirectActs (s : State) (T : Nat) : State :=
  if (s.reg (oRTRCTL T)).getLsbD 8 then
    let t := s.setReg (oRTRCTL T) (s.reg (oRTRCTL T) ||| 0x10000#64)
    if (s.retrain.getD T none).isSome then t.queue { i := .rtrctlDisable, x := T } else t
  else s

/-- REDIRECT_ACTIVE (R83). -/
def execRedirectActive (s : State) : Out := .next (s.redirectActs s.ev.x)

/-- ACT is clear, and a retraining has ended (R83, R431). -/
def State.redirectGone (s : State) (T : Nat) : State :=
  if (s.reg (oRTRCTL T)).getLsbD 8 then s
  else { (s.setReg (oRTRCTL T) (s.reg (oRTRCTL T) &&& ~~~0x10000#64)) with retrain := s.retrain.setIfInBounds T none }

/-- REDIRECT_RELEASED (R83). -/
def execRedirectReleased (s : State) : Out := .next (s.redirectGone s.ev.x)
/-- QUARANTINE_CLEAR (R151). -/
def execQuarantineClear (s : State) : Out := .next (s.setReg s.ev.x (s.reg s.ev.x &&& ~~~s.ev.v))
/-- PLOT_OWNED_RELEASE (R328). -/
def execPlotOwnedRelease (s : State) : Out := .next (s.releasePlot s.ev.by' (256 * s.ev.x + s.ev.y))
/-- MSIGEN_WRITE (R415). -/
def execMsigenWrite (s : State) : Out := .next (s.writeMsigen s.ev.v)
/-- REGISTER_WRITE (R53). -/
def execRegisterWrite (s : State) : Out :=
  .next (s.setReg s.ev.x (plainWrite (csrAccess s.ev.x) (s.reg s.ev.x) s.ev.v))
/-- DSPHOLD_RELEASE: v holds the pipelines released, from the next tick (R211). -/
def execDspholdRelease (s : State) : Out := .next (s.releaseHold s.ev.x s.ev.v)

/-! ## Attestation (R422) -/

/-- Bytes written at the buffer at a, where it lies in local HBM4; then the completion, which waits for them. -/
def State.toBuf (s : State) (a : Nat) (bs : List Byte) : State :=
  (if isHbm a && isHbm (a + (bs.length - 1)) then s.homePieces [(a, bs.length, true)] bs else s).queue
    { i := .attestComplete, y := a, z := bs.length }

/-- The 48 bytes of a digest. -/
def digest (m : List Byte) : List Byte := (List.range 48).map (Config.sha384 m)

/-- The report over a nonce and the digested registers (Table 18-9). -/
def State.report384 (s : State) (nonce regs : List Byte) : List Byte :=
  let head := nonce ++ digest Config.firmwareImage ++ digest (Config.agentImage s.agentNo) ++ digest regs ++
    natToBytes 8 (Config.firmwareVersion.toNat * 2 ^ 48 + (Config.agentVersion s.agentNo).toNat * 2 ^ 32 + s.resets.toNat) ++
    List.replicate 8 0#8
  head ++ (List.range 96).map (Config.signature (digest head))

/-- The certificate chain, at most 4 KiB (R422). -/
def certChain : List Byte := (List.range (min Config.certLength 4096)).map Config.certByte

/-- n bytes of the buffer at a wait (R81, R101, R109). -/
def State.bufWaits (s : State) (a n : Nat) : Bool := isHbm a && s.waitsAt a n

/-- ATTEST_CERT: the certificate chain at the buffer y (R422). -/
def execAttestCert (s : State) : Out :=
  .next (if s.bufWaits s.ev.y certChain.length then s.queue s.ev else s.toBuf s.ev.y certChain)
/-- ATTEST_REPORT: the report at the buffer y; bytes holds the registers as GO found them (R422). -/
def execAttestReport (s : State) : Out :=
  .next (if s.bufWaits s.ev.y 304 then s.queue s.ev
    else (s.sectorReads s.ev.y 48 true).toBuf s.ev.y (s.report384 (s.bytesAt s.ev.y 48) s.ev.bytes))
/-- A core has an invalidation of n bytes at a location still to accept, so that their store has not performed at .sys (R109). -/
def State.unaccepted (s : State) (l n : Nat) : Bool := (linesOf l n).any fun a => s.inval.any fun v => v.line == a && !v.acc

/-- ATTEST_COMPLETE: BUSY clears once the z bytes at y have performed at .sys (R109, R422). -/
def execAttestComplete (s : State) : Out :=
  .next (if s.unaccepted s.ev.y s.ev.z then s.queue s.ev else s.setReg oATTCTL (s.reg oATTCTL &&& ~~~2#64))

end Sys2Proof.Machine
end

