-- ==== Sys2Proof/Machine/ScalarMem.lean ====
section
/-! DEFINITION. The scalar loads and stores (R280 to R282), those of the register window among them (R52, R53). -/

namespace Sys2Proof.Machine

/-- The address checks find a register of the window, and its offset (R52). -/
def State.windowAt (s : State) (ea : Word) : Option Nat :=
  match s.target .scalar ea 8 with
  | .remote .csr off => some off
  | _ => none

/-- A scalar load: LDD of the register window reads the register at issue, after the effects of the strand's earlier register writes, and lands
like a remote load (R53, log 4). -/
def State.load (s : State) (i : Instr) (ea : Word) : State :=
  if accessWidth i = 8 then
    match s.windowAt ea with
    | some off =>
      if s.writesLeft then s.freeze else s.sendAccess .s i [ea] (opd (s.readReg off)) 0#1024 (s.guardMask i)
    | none => s.scalarLoad i ea
  else s.scalarLoad i ea

/-- A scalar store: STD to the register window takes effect at issue (R53, log 4). -/
def State.store (s : State) (i : Instr) (ea : Word) (data : Vec) : State :=
  if accessWidth i = 8 then
    match s.windowAt ea with
    | some off => s.writeReg (s.me + 1) off (low data)
    | none => s.scalarStore i ea data
  else s.scalarStore i ea data

/-- LDB (R281). -/
def execLdb (g : BitVec 4) (d a : BitVec 6) (imm : BitVec 15) (s : State) : Out :=
  whenOn g s fun t => t.load (.ldb g d a imm) (addImm (t.sr a) imm)
/-- LDBU (R281). -/
def execLdbu (g : BitVec 4) (d a : BitVec 6) (imm : BitVec 15) (s : State) : Out :=
  whenOn g s fun t => t.load (.ldbu g d a imm) (addImm (t.sr a) imm)
/-- LDH (R281). -/
def execLdh (g : BitVec 4) (d a : BitVec 6) (imm : BitVec 15) (s : State) : Out :=
  whenOn g s fun t => t.load (.ldh g d a imm) (addImm (t.sr a) imm)
/-- LDHU (R281). -/
def execLdhu (g : BitVec 4) (d a : BitVec 6) (imm : BitVec 15) (s : State) : Out :=
  whenOn g s fun t => t.load (.ldhu g d a imm) (addImm (t.sr a) imm)
/-- LDW (R281). -/
def execLdw (g : BitVec 4) (d a : BitVec 6) (imm : BitVec 15) (s : State) : Out :=
  whenOn g s fun t => t.load (.ldw g d a imm) (addImm (t.sr a) imm)
/-- LDWU (R281). -/
def execLdwu (g : BitVec 4) (d a : BitVec 6) (imm : BitVec 15) (s : State) : Out :=
  whenOn g s fun t => t.load (.ldwu g d a imm) (addImm (t.sr a) imm)
/-- LDD (R281). -/
def execLdd (g : BitVec 4) (d a : BitVec 6) (imm : BitVec 15) (s : State) : Out :=
  whenOn g s fun t => t.load (.ldd g d a imm) (addImm (t.sr a) imm)
/-- LDQ (R281). -/
def execLdq (g : BitVec 4) (d a : BitVec 6) (imm : BitVec 15) (s : State) : Out :=
  whenOn g s fun t => t.load (.ldq g d a imm) (addImm (t.sr a) imm)
/-- STB (R281). -/
def execStb (g : BitVec 4) (d a : BitVec 6) (imm : BitVec 15) (s : State) : Out :=
  whenOn g s fun t => t.store (.stb g d a imm) (addImm (t.sr a) imm) (opd (t.sr d))
/-- STH (R281). -/
def execSth (g : BitVec 4) (d a : BitVec 6) (imm : BitVec 15) (s : State) : Out :=
  whenOn g s fun t => t.store (.sth g d a imm) (addImm (t.sr a) imm) (opd (t.sr d))
/-- STW (R281). -/
def execStw (g : BitVec 4) (d a : BitVec 6) (imm : BitVec 15) (s : State) : Out :=
  whenOn g s fun t => t.store (.stw g d a imm) (addImm (t.sr a) imm) (opd (t.sr d))
/-- STD (R281). -/
def execStd (g : BitVec 4) (d a : BitVec 6) (imm : BitVec 15) (s : State) : Out :=
  whenOn g s fun t => t.store (.std g d a imm) (addImm (t.sr a) imm) (opd (t.sr d))
/-- STQ: s[d] lies at the lower addresses (R281). -/
def execStq (g : BitVec 4) (d a : BitVec 6) (imm : BitVec 15) (s : State) : Out :=
  whenOn g s fun t =>
    t.store (.stq g d a imm) (addImm (t.sr a) imm) (opd (t.sr d) ||| ((t.sr (d + 1#6)).setWidth 1024 <<< 64))

end Sys2Proof.Machine
end

