-- ==== Sys2Proof/Machine/System.lean ====
section
/-! DEFINITION. System instructions (R100 to R104, R302 to R306): translation and cache maintenance, context save, load and step,
migration and promotion. -/

namespace Sys2Proof.Machine

/-- A value-returning system operation: blocked while the ALQ is full, else its entry is reserved and f follows with its identity and
ring slot (R120). -/
def State.withEntry (s : State) (i : Instr) (a b : Word) (f : Nat → BitVec 4 → State → State) : State :=
  if s.alqFull then s.block
  else
    let r := s.reserve .e i a b 0#64 []
    f r.1 r.2.1 r.2.2

/-- The same with its value at once. -/
def State.replyNow (s : State) (i : Instr) (a b : Word) (f : State → State × Word) : State :=
  s.withEntry i a b fun id slot t =>
    let q := f t
    q.1.answer q.1.me slot id q.2 0

/-! ## Translation (R95, R303) -/

/-- TLBI of an address, or of every address: each structure of the module at once, and each armed monitor translates again (R95, R96). -/
def State.tlbi (s : State) (va : Option Word) : State :=
  (match va with
    | none => s.tlbInvalidateAll
    | some a => s.tlbInvalidate a.toNat).rewatchAll

/-- TLBI: irrevocable (R95, R144, log 10). -/
def execTlbi (g : BitVec 4) (a : BitVec 6) (x : BitVec 1) (s : State) : Out :=
  whenSup .e g s fun t => afterClose t fun u => u.tlbi (if x = 1#1 then none else some (u.sr a))
/-- TLBSYNC: earlier invalidations have had their effects, since an access translates as it performs (R95, log 10). -/
def execTlbsync (g : BitVec 4) (s : State) : Out :=
  whenSup .e g s fun t => t.replyNow (.tlbsync g) 0#64 0#64 fun u => (u, 0#64)

/-! ## Caches (R76, R304) -/

/-- A line maintenance operation put in flight; like a store for DRAIN.S; outside the paged region it has no effect (R304). -/
def State.sendMaint (s : State) (i : Instr) (ea : Word) : State :=
  match decodeByte s.here ea.toNat with
  | some (.paged, _) =>
    if s.flightFull then s.freeze
    else
      let q := s.fresh
      q.2.launch q.2.me { id := q.1, bc := s.ctx.r.bc, pos := .e, i := i, core := s.here, sup := s.ctx.r.sup, gm := 0#32, addrs := [ea] }
  | _ => s

/-- Every cached copy of a line discarded; its home's bytes stand again (R304). -/
def State.discardLine (s : State) (l : Nat) : State :=
  let a := lineOf l
  let s1 := match s.dirty.find? fun d => d.1 == a with
    | some d =>
      let t : State := { (s.putBytes a d.2) with dirty := eraseKey s.dirty a }
      if setHas s.hpoi a then { t.setPoison a with hpoi := setDel s.hpoi a } else t
    | none => s
  ({ s1 with
    copies := s1.copies.filter fun c => c.2 != a
    icopies := s1.icopies.filter fun c => c.2 != a
    l2 := s1.l2.filter fun c => c.2 != a
    own := eraseKey s1.own a
    inval := s1.inval.filter fun v => v.line != a }).wakeMonitors a 64

/-- A line maintenance operation performs: it translates as a load of one byte; uncached pages are left alone (R304). -/
def State.performMaint (s : State) (a : Access) : State :=
  match s.resolveParts a .read (remoteParts a) with
  | .error e => s.accessStop a e
  | .ok (rs, t) =>
    let ps := rs.flatMap (·.2)
    if t.piecesWait noStrand a.core true ps then t
    else
      let u := (ps.filter fun p => !p.2.2).foldl (fun (k : State) p => match a.i with
        | .dcinv _ _ => k.discardLine p.1
        | _ => k.cleanLine p.1) t
      u.unitDone a 0

/-- DCFL (R304). -/
def execDcfl (g : BitVec 4) (a : BitVec 6) (s : State) : Out := whenOn g s fun t => t.sendMaint (.dcfl g a) (t.sr a)
/-- DCINV (R304). -/
def execDcinv (g : BitVec 4) (a : BitVec 6) (s : State) : Out := whenSup .e g s fun t => t.sendMaint (.dcinv g a) (t.sr a)

/-- Every line in the L2 and the L1s of tower T written back if modified, and invalidated; the number written back (R304). -/
def State.flushTower (s : State) (T : Nat) : State × Word :=
  let ls := (s.l2.filter fun c => c.1 == T).map (·.2)
  let n := (ls.filter fun a => s.dirty.any fun d => d.1 == a).length
  (ls.foldl (fun (t : State) a => (t.cleanLine a).dropL2 T a) s, BitVec.ofNat 64 n)

/-- A modified line of tower T's caches cannot be written back now (R81). -/
def State.flushWaits (s : State) (T : Nat) : Bool := s.l2.any fun c => c.1 == T && s.pinned c.2

/-- L2FL: its write-backs wait for their HBM4 as any request does (R81, R304). -/
def execL2fl (g : BitVec 4) (a : BitVec 6) (s : State) : Out :=
  whenSup .e g s fun t =>
    if t.flushWaits (bits (t.sr a) 2 0) then t.freeze
    else t.replyNow (.l2fl g a) (t.sr a) 0#64 fun u => u.flushTower (bits (t.sr a) 2 0)
/-- MSCFL (R76, R304). -/
def execMscfl (g : BitVec 4) (a : BitVec 6) (s : State) : Out :=
  whenSup .e g s fun t => t.replyNow (.mscfl g a) (t.sr a) 0#64 fun u =>
    let T := bits (t.sr a) 2 0
    (u.flushSectors T, BitVec.ofNat 64 (u.sdirty.filter fun b => hbmTower b == T).length)

/-! ## Contexts (R305) -/

/-- The context number of s[a], or none above 6,143 (R305). -/
def targetOf (x : Word) : Option Nat := if bits x 12 0 ≤ 6143 then some (bits x 12 0) else none

/-- A move begun with its event. -/
def State.beginMove (s : State) (i ev : Instr) (id : Nat) (slot : BitVec 4) (target : Nat) (va : Word) : State :=
  { s with
    moves := s.moves ++ [{ id := id, slot := slot, i := i, x := s.me, target := target, va := va }]
    agenda := s.agenda ++ [{ i := ev, x := target / 4, z := id }] }

/-- CTXSV fails on a free context, its own, or one that holds an agent (R305). -/
def State.saveFails (s : State) (x : Nat) : Bool :=
  x == s.me || (match s.ctxAt x with
    | none => true
    | some c => c.agent)

/-- CTXSV (R305). -/
def State.ctxsv (s : State) (i : Instr) (a b : Word) : State :=
  if !aligned b.toNat 0x4000 then s.trapAt .e cALIGN b 0#64
  else s.withEntry i a b fun id slot t =>
    match targetOf a with
    | none => t.answer t.me slot id allOnes 0
    | some x => if t.saveFails x then t.answer t.me slot id allOnes 0 else t.beginMove i .spillComplete id slot x b

/-- CTXLD (R305). -/
def State.ctxld (s : State) (i : Instr) (a b : Word) : State :=
  if !aligned b.toNat 0x4000 then s.trapAt .e cALIGN b 0#64
  else s.withEntry i a b fun id slot t =>
    match targetOf a with
    | none => t.answer t.me slot id allOnes 0
    | some x => t.beginMove i .reinstatementComplete id slot x b

/-- SSTEP: every other context stands at a bundle boundary, and the issuing strand runs at supervisor level, where its own SSM has no
effect before its next boundary (R210, R305). -/
def State.sstep (s : State) (i : Instr) (a : Word) (m : BitVec 2) : State :=
  s.replyNow i a 0#64 fun t =>
    match (targetOf a).bind fun x => (t.ctxAt x).map fun _ => x with
    | none => (t, allOnes)
    | some x => (t.onCtx x fun c => { c with r := { c.r with ssm := m.getLsbD 0, ssq := m.getLsbD 1 } }, 0#64)

/-- CTXSV (R305). -/
def execCtxsv (g : BitVec 4) (a b : BitVec 6) (s : State) : Out :=
  whenSup .e g s fun t => t.ctxsv (.ctxsv g a b) (t.sr a) (t.sr b)
/-- CTXLD (R305). -/
def execCtxld (g : BitVec 4) (a b : BitVec 6) (s : State) : Out :=
  whenSup .e g s fun t => t.ctxld (.ctxld g a b) (t.sr a) (t.sr b)
/-- SSTEP (R305). -/
def execSstep (g : BitVec 4) (a : BitVec 6) (m : BitVec 2) (s : State) : Out :=
  whenSup .e g s fun t => t.sstep (.sstep g a m) (t.sr a) m

/-! ## Migration and promotion (R100 to R104, R306) -/

/-- The walk of a paged address for a migration. -/
def State.leafAt (s : State) (T va : Nat) : State × WalkEnd :=
  if (s.reg oTRROOT).getLsbD 0 then s.walk T va else (s, .fault cPAGE)

/-- The move is a promotion. -/
def isPromo : Instr → Bool
  | .promo _ _ _ => true
  | _ => false

/-- A page to move, as its walk found it: entry, level and entry word. -/
abbrev PageAt := Nat × Nat × Word

/-- The checks of MIGR and PROMO by core G: the page's walk, its kind, and the destination; a BUSY page passes, and waits later (R100, R103).
An s[a] outside the paged region gives PROT, or BOUND in a reserved range, and a destination outside local HBM4 gives ALIGN: the spec names
neither (DESIGN CHOICE, log 34). -/
def State.moveCheck (s : State) (G : Nat) (promo : Bool) (va dst : Word) : Except Stop (PageAt × State) :=
  match decodeByte G va.toNat with
  | none => .error (.fault cBOUND va)
  | some (.paged, _) =>
    (match s.leafAt (twrOf G) va.toNat with
      | (_, .fault c) => .error (.fault c va)
      | (_, .wait) => .error .wait
      | (t, .leaf a lvl e) =>
        let n := 2 ^ leafLg lvl (pteCG e)
        if pteBusy e then .ok ((a, lvl, e), t)
        else if pteKind e ≠ (if promo then 1 else 0) then .error (.fault cPROT va)
        else match leafFault t lvl e with
          | some c => .error (.fault c va)
          | none => if dst.toNat % n ≠ 0 ∨ !isHbm (dst.toNat + n - 1) then .error (.fault cALIGN dst) else .ok ((a, lvl, e), t))
  | some _ => .error (.fault cPROT va)

/-- MIGR or PROMO at issue: irrevocable, with the value of its ALQ entry due at its end (R100, R144, R306). -/
def State.movePage (s : State) (promo : Bool) (i : Instr) (va dst : Word) : State :=
  match s.moveCheck s.here promo va dst with
  | .error (.fault c x _ u) => (s.kept u).trapAt .e c x 0#64
  | .error (.wait u) => (s.kept u).freeze
  | .error (.ask _ u) => (s.kept u).freeze
  | .ok (_, k) =>
    if k.alqFull then k.block
    else afterClose k fun t => t.withEntry i va dst fun id slot u =>
      { u with
        moves := u.moves ++ [{ id := id, slot := slot, i := i, x := u.me, target := va.toNat, va := dst }]
        agenda := u.agenda ++ [{ i := .tableWalk, x := u.me, y := id, v := va }] }

/-- MIGR (R306). -/
def execMigr (g : BitVec 4) (a b : BitVec 6) (s : State) : Out :=
  whenSup .e g s fun t => t.movePage false (.migr g a b) (t.sr a) (t.sr b)
/-- PROMO (R306). -/
def execPromo (g : BitVec 4) (a b : BitVec 6) (s : State) : Out :=
  whenSup .e g s fun t => t.movePage true (.promo g a b) (t.sr a) (t.sr b)

/-- The lines of n bytes recalled from every cache, modified ones written back through their slices, and the page's dirty sectors written to HBM4; no
counter of Table 3-5 takes these last (DESIGN CHOICE, log 11) (R73, R77, R100 step 3). -/
def State.recallRange (s : State) (l n : Nat) : State :=
  let out := fun (a : Nat) => !(decide (l ≤ a) && decide (a < l + n))
  let t := ((s.dirty.map (·.1)).filter fun a => !out a).foldl State.cleanLine s
  { (t.meetHbm 9 (hbmTower l) (t.sdirty.filter fun a => !out a).length) with
    copies := t.copies.filter fun c => out c.2
    icopies := t.icopies.filter fun c => out c.2
    l2 := t.l2.filter fun c => out c.2
    own := t.own.filter fun c => out c.1
    inval := t.inval.filter fun v => out v.line
    sdirty := t.sdirty.filter out }

/-- n bytes copied line by line from src to dst with their poison and their CRCs; a read of a promotion, which is one of host memory, never allocates
(R73, R100, R136, R138). -/
def State.copyLines (s : State) (src dst n : Nat) : State :=
  (List.range (n / 64)).foldl (fun (t : State) k =>
    let v := t.sectorRead (src + 64 * k) true
    let u := v.homePiece (dst + 64 * k) (v.bytesAt (src + 64 * k) 64)
    if t.poisonedAt (src + 64 * k) 64 then u.poisonRange (dst + 64 * k) 64 else u.carryCrc (dst + 64 * k) (t.crcOf (src + 64 * k))) s

/-- The entries of a leaf: one, or the group of a 64 KiB or 64 MiB page, with their places in it (R86). -/
def groupOf (a lvl : Nat) (cg : Bool) : List (Nat × Nat) :=
  let n := if cg then (if lvl = 0 then 16 else 32) else 1
  (List.range n).map fun k => (a / (8 * n) * (8 * n) + 8 * k, k)

/-- The entries of a leaf each stored anew from its word and place (R100). -/
def State.storeLeaf (s : State) (m : Move) (f : Word → Nat → Word) : State :=
  (groupOf m.ent m.lvl m.cg).foldl (fun (t : State) q => t.homePiece q.1 (natToBytes 8 (f (t.wordAt q.1) q.2).toNat)) s

/-- The strand that issued a move has executed EXIT (R104). -/
def State.moverGone (s : State) (m : Move) : Bool :=
  match s.findCtx (Ctx.hasEntry m.id) with
  | some (_, _, c) => c.gone
  | none => true

/-- The state with a move taken to its next step. -/
def State.onMove (s : State) (m : Move) : State :=
  { s with moves := s.moves.map fun k => if k.id == m.id then m else k }

/-- Steps 1 to 3: BUSY is set in the entry, the old home migrates, the page's translations are gone, and its lines are recalled from every cache
and from the S-layer (R100, R103). -/
def State.openMove (s : State) (m0 : Move) (p : PageAt) : State :=
  let e := p.2.2
  let n := 2 ^ leafLg p.2.1 (pteCG e)
  let promo := isPromo m0.i
  let src := if promo then locHost (m0.target / n * n) else pteAddr e / n * n
  let m := { m0 with phase := 1, src := src, n := n, ent := p.1, lvl := p.2.1, cg := pteCG e }
  let s1 := (((s.storeLeaf m fun w _ => w ||| 1#64 <<< 62).onMove m).tlbInvalidateRange (m.target / n * n) n).rewatchAll
  (if promo then s1 else s1.recallRange src n).queue s.ev

/-- Steps 4 to 6: the page is copied, and a collective whose key it holds goes on at the key's new place; its entry is stored, and the old home leaves the
migrating state. A promotion makes the entry one of KIND 0,
COLD where its strand has gone (R100, R103, R104). -/
def State.closeMove (s : State) (m : Move) : State :=
  let cold := s.moverGone m
  let here := fun (w : Word) (k : Nat) => setBits (w &&& ~~~(1#64 <<< 62)) 51 12 ((m.va.toNat + k * 2 ^ stepLg m.lvl) / 4096)
  let f := fun (w : Word) (k : Nat) =>
    if isPromo m.i then setBits (setBits (here w k) 11 9 (if cold then 1 else 0)) 3 2 0 else here w k
  let t := s.copyLines m.src m.va.toNat m.n
  let here' := fun (g : Coll) => decide (m.src ≤ g.key) && decide (g.key < m.src + m.n)
  (({ t with colls := t.colls.map fun g => if here' g then { g with key := g.key - m.src + m.va.toNat } else g } : State).storeLeaf m f).endMove m true

/-- The first address of a host page for which the tower holds no completion that lets it be read, with the completion that refuses it (R97,
R103). -/
def State.promoLacks (s : State) (T va stop : Nat) : Nat → Option (Nat × Option AtsEntry)
  | 0 => none
  | fuel + 1 =>
    if stop ≤ va then none
    else match s.atsFor T va with
      | none => some (va, none)
      | some c => if bitOf c.grants 0 then s.promoLacks T (c.base + 2 ^ c.lg) stop fuel else some (va, some c)

/-- A MIGR or PROMO that ends with a fault for its ALQ entry; a page left BUSY is so no longer (log 34). -/
def State.failMove (s : State) (m : Move) (c : BitVec 8) (va : Word) : State :=
  let s1 := if m.phase = 1 then s.storeLeaf m fun w _ => w &&& ~~~(1#64 <<< 62) else s
  ({ s1 with moves := s1.moves.filter fun k => k.id != m.id } : State).answerFault m.x m.slot m.id c va

/-- The second half of a move: it waits for the HBM4 of both places, and a promotion for the host's grant of every part of its page (R81, R97,
R98, R103). -/
def State.finishMove (s : State) (m : Move) : State :=
  let T := twrOf (m.x / 4)
  if s.stalled m.src || s.stalled m.va.toNat || s.waitsAt m.ent 8 then s.queue s.ev
  else if !isPromo m.i then s.closeMove m
  else
    let va := m.src - locHost 0
    match s.promoLacks T va (va + m.n) (m.n / 4096) with
    | none => s.closeMove m
    | some (a, c) =>
      let t := s.atsSeen T a c
      if !s.atsCame T a then (t.atsAsk T a).queue s.ev
      else if (s.reg oTRCFG).getLsbD 22 then t.sleepOn T (BitVec.ofNat 64 a) fun u => u.failMove m cPAGE (BitVec.ofNat 64 a)
      else t.failMove m cPAGE (BitVec.ofNat 64 a)

/-- A move tried: it waits on a BUSY entry, and a walk that now fails ends it with a fault for its ALQ entry (R100, R102). -/
def State.tryMove (s : State) (m : Move) : State :=
  if m.phase = 1 then s.finishMove m
  else match s.moveCheck (m.x / 4) (isPromo m.i) (BitVec.ofNat 64 m.target) m.va with
    | .error (.fault c va _ u) => (s.kept u).failMove m c va
    | .error (.wait u) => (s.kept u).queue s.ev
    | .error (.ask _ u) => (s.kept u).queue s.ev
    | .ok (p, t) =>
      if pteBusy p.2.2 || t.waitsAt p.1 8 || t.stalled (pteAddr p.2.2) || t.stalled m.va.toNat then t.queue s.ev
      else t.openMove m p

/-- TABLE_WALK: y names a MIGR or PROMO; else a miss walks for the address v of context x, for a read, a write or a fetch by z, and
fills the caches; a fault is that of the access that needs the page (R88, R91). -/
def execTableWalk (s : State) : Out :=
  .next (match s.moveOf s.ev.y with
    | some m => s.tryMove m
    | none =>
      if s.ev.y = 0 && decide (s.ev.v.toNat < fixedBase) then
        (translate s (.core (s.ev.x / 4 % 1536)) s.ev.v.toNat ((s.ctxAt s.ev.x).any fun c => c.r.sup)
          (if s.ev.z = 1 then .write else if s.ev.z = 2 then .fetch else .read)).1
      else s)

end Sys2Proof.Machine
end

