-- ==== Sys2Proof/Machine/EngineEvents.lean ====
section
/-! DEFINITION. Events of the engines (R47, R106, R134, R209, R336 to R351, R356, R364, R372, R399 to R412): each performs when its
operation may, and otherwise stays due. -/

namespace Sys2Proof.Machine

/-! ## NMU (R356, R364) -/

/-- NMU_OPERATION_COMPLETE: operation y of core x performs in its turn and leaves the NMU (R356). -/
def State.nmuEnds (s : State) (G id : Nat) : State :=
  match (s.coreAt G).nmuq.find? fun q => q.id == id with
  | none => s
  | some op => if (s.coreAt G).nmuReady op then (s.doNmu G op).endNmu G op else s.queue s.ev

/-- NMU_OPERATION_COMPLETE (R356). -/
def execNmuOperationComplete (s : State) : Out := .next (s.nmuEnds s.ev.x s.ev.y)

/-- The members of a gang are all there (R364). -/
def Gang.whole (g : Gang) : Bool :=
  let w := g.par.getD 5 0#64
  g.mem.length == (bits w 1 0 + 1) * (bits w 3 2 + 1)

/-- GANG_START: a whole gang starts, and each member's product may perform in its turn (R364). -/
def State.startGang (s : State) (clu gid : Nat) : State :=
  match s.gangs.find? fun g => g.clu == clu && g.gid == gid && !g.started with
  | none => s
  | some g =>
    if !g.whole then s
    else
      let s1 := { s with gangs := s.gangs.map fun h => if h == g then { h with started := true } else h }
      g.mem.foldl (fun (t : State) m =>
        (t.onCore m.1 fun c => { c with nmuq := c.nmuq.map fun q => if q.id == m.2.1 then { q with gang := false } else q }).queue
          { i := .nmuOperationComplete, x := m.1, y := m.2.1 }) s1

/-- GANG_START (R364). -/
def execGangStart (s : State) : Out := .next (s.startGang s.ev.x s.ev.y)

/-! ## Copy engines and collectives (R209, R399 to R408) -/

/-- COPY_COMMAND_START (R399). -/
def execCopyCommandStart (s : State) : Out := .next (s.copyStart s.ev.y)
/-- COPY_COMMAND_COMPLETE (R402, R403). -/
def execCopyCommandComplete (s : State) : Out := .next (s.copyAdvance s.ev.y)
/-- ENGINE_COMMAND_FAULT: z the cause, v the address, w nonzero for a write (R209). -/
def execEngineCommandFault (s : State) : Out :=
  .next (s.cmdFault s.ev.y (BitVec.ofNat 8 s.ev.z) s.ev.v (s.ev.w != 0#64))
/-- COLLECTIVE_ARRIVAL of a command, or with no command of a participant of another module (R405, R408). -/
def execCollectiveArrival (s : State) : Out := .next (if s.ev.y = 0 then s.collForeign else s.collArrive s.ev.y)
/-- COLLECTIVE_COMPLETE (R405, R408). -/
def execCollectiveComplete (s : State) : Out := .next (s.collFinish s.ev.x)

/-! ## The field (R334 to R351) -/

/-- FMAP_ARRIVAL: the plot's owner is the core from now on (R348). -/
def execFmapArrival (s : State) : Out := .next (s.withFop State.performField)
/-- FMODE_PERFORM (R349). -/
def execFmodePerform (s : State) : Out := .next (s.withFop State.performField)
/-- FSWAP_PERFORM (R351). -/
def execFswapPerform (s : State) : Out := .next (s.withFop State.performField)
/-- PLOT_RELEASE_PERFORM (R338, R348). -/
def execPlotReleasePerform (s : State) : Out := .next (s.withFop State.performField)
/-- RELOAD_START (R336). -/
def execReloadStart (s : State) : Out := .next (s.withFop State.startReload)

/-- A reload that has begun takes its next step (R336). -/
def State.endReload (s : State) (op : FieldOp) : State := if op.started then s.turnReload op else s

/-- RELOAD_COMPLETE (R336). -/
def execReloadComplete (s : State) : Out := .next (s.withFop State.endReload)

/-- A field or NMU operation of a strand ends with a fault: the strand gets an asynchronous trap; one that has exited or is held outside a context,
a notice (R131, R191, R203, R270, R337). -/
def State.opFault (s : State) (G id : Nat) (slot : BitVec 2) (cause : BitVec 8) (va tfb info : Word) : State :=
  let t : State := match s.findCtx (Ctx.hasOp id) with
    | none => s.notice (twrOf G) cause (4 * G) 0#6 tfb 0#64 va
    | some (x, away, c) =>
      if c.gone || away then s.notice (twrOf (x / 4)) cause x c.r.stage c.r.tfb c.r.pc va
      else
        (s.onCtx x fun k => { k.wake (s.cycAt x) with
          due := k.due ++ [{ kind := .async, cause := cause, slot := slot, faddr := va, finfo := info }] }).queue
          { i := .trapEntry, x := x }
  t.opEnded id

/-- RELOAD_FAULT: the trap of the strand that issued the reload of core G (R337). -/
def State.reloadTrap (s : State) (G id : Nat) (cause : BitVec 8) (va tfb : Word) : State := s.opFault G id 3#2 cause va tfb (finfo 4 16)

/-- RELOAD_FAULT (R337). -/
def execReloadFault (s : State) : Out := .next (s.reloadTrap s.ev.x s.ev.y (BitVec.ofNat 8 s.ev.z) s.ev.v s.ev.w)
/-- NEST_START (R346). -/
def execNestStart (s : State) : Out := .next (s.startNest s.ev.x)
/-- NEST_STEP (R329, R343). -/
def execNestStep (s : State) : Out := .next (s.turnNest s.ev.x)
/-- COLLECTOR_APPLY (R334). -/
def execCollectorApply (s : State) : Out := .next (s.collect s.ev.x)
/-- NEST_COMPLETE (R344). -/
def execNestComplete (s : State) : Out := .next (s.finishNest s.ev.x)

/-- ROW_REFETCH_COMPLETE: a row under refetch is rewritten or poisoned; a BUSY page holds it, and so does a reload of its half, until whose end the
half has no origin of its rows (R102, R134, R336, log 35). -/
def State.endRefetch (s : State) (x row : Nat) : State :=
  if !s.refetch.any (· == (x, row)) then s
  else if s.underReload x then s.queue s.ev
  else
    let t := s.refetchRow x row
    if t.refetch.any (· == (x, row)) then t.queue s.ev else t

/-- ROW_REFETCH_COMPLETE (R134). -/
def execRowRefetchComplete (s : State) : Out := .next (s.endRefetch s.ev.x s.ev.y)

/-! ## Sequence units, position caches and assays -/

/-- PTC_INVALIDATION: v is the page and z log2 of its size (R106). -/
def execPtcInvalidation (s : State) : Out := .next (s.dropPtc s.ev.v.toNat s.ev.z)
/-- SEQUENCE_UNIT_OPERATION (R372). -/
def execSequenceUnitOperation (s : State) : Out := .next (s.performSeq s.ev.y)
/-- ASSAY_OUTCOME (R412). -/
def execAssayOutcome (s : State) : Out := .next (s.assayEnds s.ev.y (s.ev.z != 0))

end Sys2Proof.Machine
end

