-- ==== Sys2Proof/Machine/MemEvents.lean ====
section
/-! DEFINITION. Events of memory and of the host (R47, R51, R64, R65, R97, R98, R109, R110, R120, R129, R130, R199, R242, R291, R294,
R413, R414): accesses performing, invalidations, values arriving, barriers, banks, and what the host sends. -/

namespace Sys2Proof.Machine

/-! ## The history of corrections (R131, R134, R142) -/

/-- The scrub row of a place l in a storage of class cls, told from the rows of every other storage: 2 KiB of HBM4, 256 B of SRAM; of an L1, that of
core G; of what is no memory, its number (R142, Table 6-4). -/
def scrubRow (cls l G : Nat) : Nat :=
  2 ^ 96 * cls + 2 ^ 80 * G + (if cls = 9 then l / 2048 * 2048 else if 2 ≤ cls ∧ cls ≤ 8 then l / 256 * 256 else l)

/-- Rows of tower T in the history table, oldest correction first. -/
def State.history (s : State) (T : Nat) : List (Nat × Nat × Nat) := s.hist.filter fun h => h.1 == T

/-- SCRCTL.HCNT follows the table. -/
def State.countHistory (s : State) (T : Nat) : State :=
  s.setReg (tb T 0x3200) (setBits (s.reg (tb T 0x3200)) 10 0 (s.history T).length)

/-- A row in which a correction has been made enters the table, or its history begins anew; a full table gives up the row whose last
correction is oldest (R142). -/
def State.remember (s : State) (T row : Nat) : State :=
  let rest := s.hist.filter fun h => !(h.1 == T && h.2.1 == row)
  let mine := rest.filter fun h => h.1 == T
  let kept := if 1024 ≤ mine.length then (match mine with
    | a :: _ => rest.erase a
    | [] => rest) else rest
  ({ s with hist := kept ++ [(T, row, 0)] } : State).countHistory T

/-- A visit without a correction: after 16 periods of 16 visits the row leaves the table (R142). -/
def State.visited (s : State) (T row : Nat) : State :=
  ({ s with hist := (s.hist.map fun h => if h.1 == T && h.2.1 == row then (T, row, h.2.2 + 1) else h).filter fun h =>
      !(h.1 == T && decide (256 ≤ h.2.2)) } : State).countHistory T

/-- An error at a location corrected in place: remembered, counted, and logged where the ring takes such events (R131, R140, R142). -/
def State.corrected (s : State) (T cls l G : Nat) : State :=
  (s.remember T (scrubRow cls l (if cls = 6 then G else 0))).reportCode T cls 0 (if cls = 6 then G else coreOfLoc l) 0 false 0
    (BitVec.ofNat 64 (l % regionSize))

/-- An error of a location's code that cannot be corrected: its granule is poisoned, with a record of severity 2 (R131, R138). -/
def State.lostAt (s : State) (T cls l : Nat) : State :=
  (s.setPoison l).reportCode T cls 2 (coreOfLoc l) 0 false 0 (BitVec.ofNat 64 (l % regionSize))

/-- A row of the field whose parity fails as it is read: marked, and to be fetched again (R134). -/
def State.badRow (s : State) (l : Nat) : State :=
  s.rowError ((l - 5 * regionSize) / 0x8000) ((l - 5 * regionSize) % 0x8000 / 64)

/-! ## Errors that an access meets (R131, R133, R134, R139, R142) -/

/-- The line that unit k of an access reaches, where it can be told now. -/
def State.unitLine (s : State) (a : Access) (k : Nat) : Option Nat :=
  match s.resolveParts a .read (unitParts a k) with
  | .ok (rs, _) => ((rs.flatMap (·.2)).head?).map fun p => lineOf p.1
  | .error _ => none

/-- A parity error in a line that core G's L1, its instruction cache or its tower's L2 holds: a clean line is discarded and fetched again, with a
record of severity 1; a modified one has a code that cannot correct it, and is poisoned (R131, R133). -/
def State.badCacheLine (s : State) (cls G a : Nat) : State :=
  let T := twrOf G
  let addr := BitVec.ofNat 64 (a % regionSize)
  if s.dirty.any fun d => d.1 == a then (s.setPoison a).reportCode T cls 2 G 0 false 0 addr
  else
    let t := if cls = 7 then s.dropL2 T a
      else { (s.dropL1 G a) with icopies := s.icopies.filter (· != (G, a)) }
    t.reportCode T cls 1 G 0 false 0 addr

/-- A parity error in what a tower's translation caches, walk cache or its cores' position caches hold for an address: the entries are discarded,
and the next use walks again; a record of severity 1 that names the core G of the access that met it (R133). -/
def State.badTranslation (s : State) (T G : Nat) (va : Word) : State :=
  let mine := fun (u : TlbUnit) => match u with
    | .data G => twrOf G == T
    | .instr G => twrOf G == T
    | .cluster c => c / 8 == T
    | .tower U => U == T
  let v := va.toNat
  ({ s with
    tlb := s.tlb.filter fun t => !(mine t.unit && t.covers v)
    walkc := s.walkc.filter fun w => !(w.twr == T && w.tag == v / 2 ^ stepLg (w.lvl + 1))
    ptc := s.ptc.filter fun p => !(twrOf p.core == T && meetsBlock v 1 p.va.toNat p.lg) } : State).reportCode T 11 1 G 0 false 0 va

/-- What the storages tell of as unit k of an access reaches them: 1 an error corrected in place, which puts its row into the history table, 2 one that
cannot be corrected, 3 a parity error of the L1 or L2 line, 4 of the translation, 5 of the field row that a load reads. The access then waits as
for a miss (R131, R133, R134, R142). -/
def State.meetError (s : State) (a : Access) (k n : Nat) : State :=
  let va := ((unitParts a k).headD (a.addr, 0, 0)).1
  match n, s.unitLine a k with
  | 4, _ => s.badTranslation (twrOf a.core) a.core va
  | _, none => s
  | 1, some l => if regionOf l = 5 then s else s.corrected (ringOf l) (classOf l) l a.core
  | 2, some l => if regionOf l = 5 then (if isLoadInstr a.i then s.badRow l else s) else s.lostAt (ringOf l) (classOf l) l
  | 3, some l => if s.copies.any (· == (a.core, l)) then s.badCacheLine 6 a.core l else if s.l2.any (· == (twrOf a.core, l)) then s.badCacheLine 7 a.core l else s
  | 5, some l => if regionOf l = 5 && isLoadInstr a.i then s.badRow l else s
  | _, _ => s

/-! ## Accesses perform (R47, R98, R109, R114, R117, R242) -/

/-- What performing unit k of the access does, by its kind. -/
def State.performUnit (s : State) (a : Access) (k : Nat) : State :=
  if isLoadInstr a.i then s.performLoad a k
  else if isAtomicInstr a.i then s.performAtomic a
  else if isMaint a.i then s.performMaint a
  else s.performStore a k

/-- Every strand with accesses in flight, wherever it is held. -/
def State.allStrands (s : State) : List Ctx :=
  s.ctx :: (s.ctxs.map (·.2) ++ (s.allCores.filterMap fun q => q.2.shadow.map (·.c)) ++ s.spilled.map (·.c) ++ s.past.map (·.2))

/-- The requests in flight to module M: an access and a line each (R420). -/
def State.farRequests (s : State) (M : Nat) : List (Nat × Nat) :=
  s.allStrands.flatMap fun c => (c.flight.filter fun a => !a.flt && !a.sleep).flatMap fun a =>
    ((leftParts a).flatMap (s.lineKeys a)).filterMap fun k => k.loc.bind fun l => if regionOf l = 8 + M then some (a.id, l) else none

/-- The port that a request in flight left on (R419). -/
def State.requestPort (s : State) (q : Nat × Nat) : Option Nat :=
  match s.sent.find? fun e => e.1 == q.1 && e.2.1 == q.2 with
  | some e => some e.2.2
  | none => s.portFor q.2

/-- The ports to module M are about to change: the requests in flight keep the ports they left on, and those on port p have none any more (R419,
R420). -/
def State.portsChange (s : State) (M : Nat) (p : Option Nat) : State :=
  let qs := s.farRequests M
  { s with sent := (s.sent.filter fun e => regionOf e.2.1 != 8 + M) ++ qs.filterMap fun q => (s.requestPort q).map fun r => (q.1, q.2, if p == some r then 24 else r) }

/-- What left on another port for the lines of unit k before the ports changed has completed (R419). -/
def State.linkTurn (s : State) (a : Access) (k : Nat) : Bool :=
  s.sent.isEmpty || ((unitParts a k).flatMap (s.lineKeys a)).all fun q => match q.loc with
    | none => true
    | some l => s.sent.any (fun e => e.1 == a.id && e.2.1 == l) ||
      !s.sent.any fun e => e.2.1 == l && (s.farRequests (regionOf l - 8)).any fun r => r.1 == e.1 && r.2 == l

/-- Unit k performs, its lines whose port went down under it being out of reach (R420). -/
def State.performOnPort (s : State) (a : Access) (k : Nat) : State :=
  let lost := (s.sent.filter fun e => e.1 == a.id && e.2.2 == 24).map (·.2.1)
  if lost.isEmpty then s.performUnit a k else { (({ s with cut := lost } : State).performUnit a k) with cut := [] }

/-- Unit k of the access is still to perform, and no event of it is due. -/
def State.unitDue (s : State) (id k : Nat) : Bool :=
  (match s.findCtx (Ctx.hasAccess id) with
    | none => false
    | some (_, _, c) => c.flight.any fun a => a.id == id && !a.flt && a.left.any (· == k)) &&
  !s.agenda.any fun (e : Ev) => e.i == s.ev.i && e.y == id && e.z == k

/-- Unit k of an access in flight performs in its turn; while a BUSY page, the host or the tower holds it, it stays due (R81, R98, R102,
R152). n tells of an error that it meets. -/
def State.performAccess (s : State) (id k n : Nat) : State :=
  match s.findCtx (Ctx.hasAccess id) with
  | none => s
  | some (_, _, c) =>
    match c.flight.find? fun a => a.id == id && !a.flt && a.left.any (· == k) with
    | none => s
    | some a =>
      if !s.unitTurn c a k || !s.portTurn a k || !s.linkTurn a k then s.queue s.ev
      else if n != 0 then (s.meetError a k n).queue { s.ev with w := 0#64 }
      else
        let t := s.performOnPort a k
        if t.unitDue id k then t.queue s.ev else t

/-- STORAGE_VIEW_ARRIVAL: the plot checks the access against the mode of its half as it arrives (R47). -/
def execStorageViewArrival (s : State) : Out := .next (s.performAccess s.ev.y s.ev.z s.ev.w.toNat)
/-- REMOTE_LOAD_LANDING (R242). -/
def execRemoteLoadLanding (s : State) : Out := .next (s.performAccess s.ev.y s.ev.z s.ev.w.toNat)
/-- REMOTE_ACCESS_PERFORM (R109). -/
def execRemoteAccessPerform (s : State) : Out := .next (s.performAccess s.ev.y s.ev.z s.ev.w.toNat)

/-! ## Invalidations (R110, R129) -/

/-- Core G accepts the invalidation of a line, and will apply it (R109, R110). -/
def State.acceptInval (s : State) (G a : Nat) : State :=
  if s.inval.any fun v => v.core == G && v.line == a && !v.acc then
    ({ s with inval := s.inval.map fun v => if v.core == G && v.line == a then { v with acc := true } else v } : State).queue
      { i := .invalidationApply, x := G }
  else s

/-- INVALIDATION_APPLY: where z is not 0, the core accepts that of line y; else it applies what it has accepted (R110). -/
def execInvalidationApply (s : State) : Out := .next (if s.ev.z = 0 then s.applyInval s.ev.x else s.acceptInval s.ev.x s.ev.y)

/-- The line is held in a cache of the module. -/
def State.cachedLine (s : State) (a : Nat) : Bool :=
  s.copies.any (fun c => c.2 == a) || s.icopies.any (fun c => c.2 == a) || s.l2.any fun c => c.2 == a

/-- A store at another module's home reaches a line of its memory: where a copy is held here the invalidation is queued with the bytes
that the copies still show, and its application is due; then the line has its new bytes (R129). -/
def State.receiveInbound (s : State) (l : Nat) (bs : List Byte) : State :=
  if regionOf l < 8 then s
  else
    let a := lineOf l
    let id := s.uid + 1
    let s1 := if s.cachedLine a then
        ({ s with uid := id, inbound := s.inbound ++ [(id, a, s.bytesAt a 64)] } : State).queue { i := .inboundInvalidationApply, y := id }
      else s
    (s1.write a (bs.take 64)).wakeMonitors a 64

/-- INBOUND_INVALIDATION_RECEIVE: x is the link port, y the line and bytes its new contents (R115, R129). -/
def execInboundInvalidationReceive (s : State) : Out := .next (s.receiveInbound s.ev.y s.ev.bytes)

/-- The queued inbound invalidations of some lines applied: the copies go, and monitors of the lines read again (R129, R291). -/
def State.applyInbound (s : State) (ls : List Nat) : State :=
  let out := fun (a : Nat) => !ls.any (· == a)
  ls.foldl (fun (t : State) a => t.wakeMonitors a 64)
    { s with
      inbound := s.inbound.filter fun v => out v.2.1
      copies := s.copies.filter fun c => out c.2
      icopies := s.icopies.filter fun c => out c.2
      l2 := s.l2.filter fun c => out c.2
      inval := s.inval.filter fun v => out v.line }

/-- INBOUND_INVALIDATION_APPLY: y is the entry, or 0 for every one (R129). -/
def execInboundInvalidationApply (s : State) : Out :=
  .next (s.applyInbound ((s.inbound.filter fun v => s.ev.y == 0 || v.1 == s.ev.y).map (·.2.1)))

/-! ## Values and faults for the ALQ (R120, R199) -/

/-- ALQ_VALUE_ARRIVAL: w names the entry, y its ring slot, v the value; z is 1 for a poisoned value and 2 for a failed CRC (R120). -/
def execAlqValueArrival (s : State) : Out := .next (s.valueArrives s.ev.w.toNat (BitVec.ofNat 4 s.ev.y) s.ev.v s.ev.z)
/-- ALQ_FAULT_CAPTURE: z the cause and v the address (R199). -/
def execAlqFaultCapture (s : State) : Out :=
  .next (s.faultArrives s.ev.w.toNat (BitVec.ofNat 4 s.ev.y) (BitVec.ofNat 8 s.ev.z) s.ev.v)

/-! ## Monitors and trap entry (R193, R291) -/

/-- The monitor of context x reads its location: where the condition holds, or the location is poisoned, its strand wakes (R291). -/
def State.reread (s : State) (x : Nat) : State :=
  s.onCtx x fun c => match c.mon with
    | none => c
    | some m =>
      if s.poisonedAt m.loc m.n || s.badCrcAt m.loc m.n ||
        waitHolds m.c (BitVec.ofNat 64 (s.natAt m.loc m.n)) (BitVec.ofNat 64 (m.x.toNat % 2 ^ (8 * m.n))) then c.wake (s.cycAt x)
      else c

/-- MONITOR_REREAD (R291). -/
def execMonitorReread (s : State) : Out := .next (s.reread s.ev.x)

/-- MONITOR_TIMEOUT_READ: at the latest at cycle w; another is due 4,096 cycles on while the monitor stays armed (R291). -/
def execMonitorTimeoutRead (s : State) : Out :=
  .next (match (s.ctxAt s.ev.x).bind (·.mon) with
    | none => s
    | some _ => (s.reread s.ev.x).queue { s.ev with w := s.cycAt s.ev.x + 4096#64 })

/-- The trap that a completion or an asynchronous fault made due is taken at this boundary; while its frame has to wait, at a later one (R98,
R102, R192). -/
def State.enterDue (s : State) : State :=
  match s.ctx.firstDue with
  | none => s
  | some t =>
    if t.kind = .after then s
    else s.takeDue.withCtx fun c => { c with phase := if c.phase = .left then .left else .normal }

/-- TRAP_ENTRY: at a bundle boundary of the running strand of context x the first trap due is taken; a strand that does not run, or that an assay
holds, takes it when it next has issue (R150, R192, R193). -/
def execTrapEntry (s : State) : Out :=
  .next (if s.ev.x = s.me && s.ctx.st = .running && s.ctx.yreq.isNone && !s.ctx.gone && s.ctx.assays.isEmpty then s.enterDue else s)

/-! ## Barriers and banks (R64, R65, R294) -/

/-- A barrier counter accepts one arrival: its new value, and the phase that it saw (R294). -/
def acceptArrival (w : Word) : Word × BitVec 8 :=
  let phase := bits w 63 56
  let seen := BitVec.ofNat 8 phase
  if bits w 44 32 = 0 then (w, seen)
  else
    let n := bits w 12 0 + 1
    if n = bits w 44 32 then (setBits (setBits w 12 0 0) 63 56 (phase + 1), seen) else (setBits w 12 0 n, seen)

/-- The strand's accesses that its arrival follows have performed at the counter's scope, those of the arrival's own bundle and of a trap's
replay queue among them (R116, R294). -/
def State.arrivalReady (s : State) (id : Nat) (bc : Word) : Bool :=
  match s.findCtx fun c => c.r.barw.id == id with
  | none => true
  | some (x, _, c) =>
    !s.storesLeft (x / 4) c bc (if c.r.barw.twr then 3 else 2) &&
    !c.flight.any fun a => c.drn.getLsbD 1 || decide (a.bc.toInt ≤ bc.toInt)

/-- The arrival that a strand's record names has been accepted at a phase (R294). -/
def Regs.accepted (r : Regs) (id : Nat) (phase : BitVec 8) : Regs :=
  if r.barw.id == id then { r with barw := { r.barw with known := true, phase := phase } } else r

/-- BARRIER_ARRIVAL: y is the counter, z the arrival and w the bundle that sent it (R294). -/
def State.arrivalAt (s : State) (off id : Nat) (bc : Word) : State :=
  if !s.arrivalReady id bc then s.queue s.ev
  else
    let q := acceptArrival (s.reg off)
    let mine := fun (c : Ctx) => c.r.barw.id == id
    let s1 := s.setReg off q.1
    match s1.findCtx mine with
    | none => s1
    | some _ =>
      s1.withRegsOf mine (fun r => r.accepted id q.2) fun t =>
        t.mapCtx mine fun c => { c with seg := c.seg.map fun g => { g with img := g.img.accepted id q.2 } }

/-- BARRIER_ARRIVAL (R294). -/
def execBarrierArrival (s : State) : Out := .next (s.arrivalAt s.ev.y s.ev.z s.ev.w)

/-- BANK_ACQUIRE_EFFECT: the bank that the waiting BACQ of context x lacks becomes held once R64 allows (R64). -/
def State.bankArrives (s : State) (x b : Nat) (tag : BitVec 8) : State :=
  match s.ctxAt x with
  | none => s
  | some c =>
    if !c.acq.getLsbD b || c.r.tag != tag then s
    else if !s.bankReady (x / 4) b then s.queue s.ev
    else
      let rest := c.acq &&& ~~~(1#32 <<< b)
      (s.holdBank (x / 4) b tag).putCtx x { (if rest = 0#32 then c.wake (s.cycAt x) else c) with acq := rest }

/-- BANK_ACQUIRE_EFFECT: z is the strand's tag (R64). -/
def execBankAcquireEffect (s : State) : Out := .next (s.bankArrives s.ev.x s.ev.y (BitVec.ofNat 8 s.ev.z))

/-- BANK_RELEASE_EFFECT: a released bank is free once the engine operations in it of the holder, whose tag is z, have completed; a bank that has got
another tag meanwhile stays as it is (R65, R66, log 66). -/
def State.bankFrees (s : State) (G b z : Nat) : State :=
  if !s.brels.any (· == (G, b, z)) then s
  else if s.bankBusy G b (some (BitVec.ofNat 8 z)) then s.queue s.ev
  else if s.bankHeld G b && s.bankTag G b == BitVec.ofNat 8 z then s.dropBank G b
  else { s with brels := s.brels.filter (· != (G, b, z)) }

/-- BANK_RELEASE_EFFECT (R65). -/
def execBankReleaseEffect (s : State) : Out := .next (s.bankFrees s.ev.x s.ev.y s.ev.z)

/-! ## The host's accesses (R50, R51, R130, R413) -/

/-- The answer Unsupported Request: no data, with the mark clear (R413). -/
def unsupported : List Byte × Bool := ([], false)

/-- The answer Completer Abort: no data, with the mark set (R413). -/
def aborted : List Byte × Bool := ([], true)

/-- The answer to an access of n bytes at offset o of a BAR that does not take it: outside the used range, or through BAR0 or BAR2 not an
aligned doubleword (R413). -/
def hostRefusal (bar o n : Nat) : Option (List Byte × Bool) :=
  let word := n == 8 && o % 8 == 0
  match bar with
  | 0 => if 0xc00000 ≤ o then some unsupported else if word then none else some aborted
  | 2 => if 0x8000 ≤ o then some unsupported else if word then none else some aborted
  | 4 => if o + n ≤ 0x20000000000 then none else some unsupported
  | _ => some unsupported

/-- A mailbox word that the host may write: MBSEQ and MBREC (Table 2-5). -/
def hostMailbox (o : Nat) : Bool := o % 0x1000 == 0 || o % 0x1000 == 8

/-- Bytes of HBM4 written for the host, or by another master, at the home (R51, R130). -/
def State.hostStore (s : State) (a : Nat) (bs : List Byte) : State :=
  if bs.isEmpty then s else s.homePieces [(a, bs.length, true)] bs

/-- HOST_POSTED_WRITE through BAR y of a port at offset z: what a BAR does not take changes nothing but the answer (R50 to R52, R413). -/
def State.hostWrite (s : State) (bar o : Nat) (bs : List Byte) : State :=
  match hostRefusal bar o bs.length with
  | some r => { s with hostOut := s.hostOut ++ [r] }
  | none =>
    match bar with
    | 0 => s.writeReg 0 o (BitVec.ofNat 64 (bytesToNat bs))
    | 2 =>
      if hostMailbox o && !s.isFenced (locMailbox o) then (s.write (locMailbox o) bs).wakeMonitors (locMailbox o) 8 else s
    | _ => if s.isFenced o then s else s.hostStore o bs

/-- A host access through BAR4 waits while its tower's HBM4, its page or an invalidation of its lines does (R81, R101, R118, R152). -/
def State.hostWaits (s : State) (bar o n : Nat) : Bool := bar == 4 && (hostRefusal bar o n).isNone && s.waitsAt o n

/-- A posted write waits as any access of the host does, and one of MBSEQ until every core has accepted the invalidations of what was written
before it (R51, R109, R130). -/
def State.hostWriteWaits (s : State) (bar o n : Nat) : Bool :=
  s.hostWaits bar o n || (bar == 2 && o % 0x1000 == 0 && (hostRefusal bar o n).isNone && s.inval.any fun v => v.src == noStrand && !v.acc)

/-- HOST_POSTED_WRITE; one that waits stays before what its port has sent since (R51). -/
def execHostPostedWrite (s : State) : Out :=
  .next (if s.hostWriteWaits s.ev.y s.ev.z s.ev.bytes.length then { s with agenda := s.ev :: s.agenda }
    else s.hostWrite s.ev.y s.ev.z s.ev.bytes)

/-- HOST_READ of n bytes through BAR y at offset z: the data returned, marked where poisoned, or why there are none (R52, R130, R137,
R413); a read of HBM4 counts as a request to its slice (R77). -/
def State.hostLoad (s : State) (bar o n : Nat) : State :=
  let answer := fun (t : State) (r : List Byte × Bool) => ({ t with hostOut := t.hostOut ++ [r] } : State)
  match hostRefusal bar o n with
  | some r => answer s r
  | none =>
    match bar with
    | 0 => answer s (natToBytes 8 (s.readReg o).toNat, false)
    | 2 => answer (s.poisonLeft (locMailbox o) 8) (s.bytesAt (locMailbox o) 8, s.poisonedAt (locMailbox o) 8 || s.isFenced (locMailbox o))
    | _ => answer ((s.poisonLeft o n).sectorReads o n true) (s.bytesAt o n, s.poisonedAt o n || s.badCrcAt o n || s.isFenced o)

/-- HOST_READ (R130, R413). -/
def execHostRead (s : State) : Out :=
  .next (if s.hostWaits s.ev.y s.ev.z s.ev.v.toNat then { s with agenda := s.ev :: s.agenda }
    else s.hostLoad s.ev.y s.ev.z s.ev.v.toNat)

/-- What an access from a host or link port names: its BAR, none for a link, and the first and last line. -/
def portLines (e : Ev) : Option (Option Nat × Nat × Nat) :=
  let lines := fun (a n : Nat) => (a / 64, (a + (max n 1 - 1)) / 64)
  match e.i with
  | .hostPostedWrite => some (some e.y, lines e.z e.bytes.length)
  | .hostRead => some (some e.y, lines e.z e.v.toNat)
  | .linkFlitReceive => some (none, lines e.y e.bytes.length)
  | .inboundInvalidationReceive => some (none, lines e.y 64)
  | _ => none

/-- A posted write of MBSEQ (R51). -/
def Ev.isMbseq (e : Ev) : Bool := e.i == .hostPostedWrite && e.y == 2 && e.z % 0x1000 == 0

/-- An event of an Aeling port. -/
def Ev.onLink (e : Ev) : Bool := e.i == .linkFlitReceive || e.i == .inboundInvalidationReceive

/-- Two events come from one port, or from Aeling ports of one module, whose requests to a line keep their order when its ports change (R115, R419). -/
def State.oneSource (s : State) (e f : Ev) : Bool :=
  f.x == e.x || (e.onLink && f.onLink && bits (s.reg (oALCTL e.x)) 23 16 == bits (s.reg (oALCTL f.x)) 23 16)

/-- Event e of a host or link port comes after event f of the same source, which was sent before it: a write of MBSEQ performs after every earlier
posted write, and accesses to one line keep their order (R51, R115, R130, R419). -/
def State.portAfter (s : State) (e f : Ev) : Bool :=
  s.oneSource e f && ((e.isMbseq && f.i == .hostPostedWrite) || (match portLines e, portLines f with
    | some (b, lo, hi), some (c, lo', hi') => b == c && decide (lo ≤ hi') && decide (lo' ≤ hi)
    | _, _ => false))

/-! ## ATS and PRI (R97, R98) -/

/-- The largest aligned block of the sizes of R85 at a within n bytes: its log2 (R97). -/
def atsBlock (a n : Nat) : Nat :=
  ([30, 26, 21, 16].find? fun g => decide (a % 2 ^ g = 0 ∧ 2 ^ g ≤ n)).getD 12

/-- A completion's range split into the largest sizes that its alignment allows, with its grants (R97). -/
def atsSplit (T g : Nat) : Nat → Nat → Nat → List AtsEntry
  | 0, _, _ => []
  | k + 1, a, n =>
    if n < 4096 then []
    else
      let lg := atsBlock a n
      { twr := T, base := a, lg := lg, grants := g } :: atsSplit T g k (a + 2 ^ lg) (n - 2 ^ lg)

/-- ATS_TRANSLATION_COMPLETION to tower T for n bytes from page a with grants g: it answers the requests in its range and is held for the accesses
that wait; one that needs more than it grants asks for the page as it tries again (R97, R98). -/
def State.atsCompletes (s : State) (T a n g : Nat) : State :=
  let lo := a / 4096 * 4096
  let len := max 4096 (n / 4096 * 4096)
  let hit := fun (q : Nat × Word) => q.1 == T && decide (lo ≤ q.2.toNat) && decide (q.2.toNat < lo + len)
  if !s.atsq.any hit then s
  else { s with
    atsq := s.atsq.filter fun q => !hit q
    atsw := s.atsw.map fun w => if hit (w.twr, w.page) then { w with come := true } else w
    ats := atsSplit T g (len / 4096) lo len ++ s.ats.filter fun e => !(e.twr == T && decide (e.base < lo + len) && decide (lo < e.base + 2 ^ e.lg)) }

/-- ATS_TRANSLATION_COMPLETION (R97). -/
def execAtsTranslationCompletion (s : State) : Out := .next (s.atsCompletes s.ev.x s.ev.v.toNat s.ev.y s.ev.z)

/-- ATS_INVALIDATION_REQUEST: a TLBI of y bytes from v, and, its effects being had at once, the completion (R95, R97). -/
def State.atsInvalidate (s : State) (a : Word) (n : Nat) : State :=
  ((s.tlbInvalidateRange a.toNat (max n 1)).rewatchAll).sendHost .invalidationCompletion 0 a

/-- ATS_INVALIDATION_REQUEST (R97). -/
def execAtsInvalidationRequest (s : State) : Out := .next (s.atsInvalidate s.ev.v s.ev.y)

/-- Tower T has a page request for a page with the host. -/
def State.asked (s : State) (T : Nat) (pg : Word) : Bool := s.pri.any fun r => r.twr == T && r.page == pg && r.sent

/-- A tag that is free again goes to the tower's oldest request without one (R98). -/
def State.priNext (s : State) (T : Nat) : State :=
  match s.pri.find? fun r => r.twr == T && !r.sent with
  | none => s
  | some r =>
    ({ s with pri := s.pri.map fun q => if q == r then { q with sent := true } else q } : State).sendHost .pageRequest T r.page

/-- The page request of a page of tower T is over, and what sleeps on it wakes: accesses, which are tried again by their events; bundles; and the
events of units. Each finds the page granted, or asked anew refused, by its mark k (Table 4-6, R94). -/
def State.priEnds (s : State) (T : Nat) (pg : Word) (refused : Bool) : State :=
  let m := pageMark T pg 1
  let new := if refused then pageMark T pg 2 else 0#64
  let ids := (s.agenda.filter fun (e : Ev) => e.asks == m).map (·.y)
  let wake := fun (c : Ctx) =>
    let mine := c.flight.any fun a => a.sleep && ids.any (· == a.id)
    if !mine && c.asks != m then c
    else
      ({ c with
        flight := c.flight.map fun a => if ids.any (· == a.id) then { a with sleep := false } else a
        asks := if c.asks == m then new else c.asks } : Ctx).wake (s.cycOf T)
  (({ s with
    pri := s.pri.filter fun r => !(r.twr == T && r.page == pg)
    agenda := s.agenda.map fun (e : Ev) => if e.asks == m then { e with asks := new } else e } : State).mapCtx (fun _ => true) wake).priNext T

/-- PAGE_REQUEST_REPLY to tower x: y is nonzero for success; a reply to no outstanding request is discarded (R98). -/
def execPageRequestReply (s : State) : Out :=
  .next (if s.asked s.ev.x s.ev.v then s.priEnds s.ev.x s.ev.v (s.ev.y == 0) else s)

/-- PAGE_REQUEST_TIMEOUT of tower x, where PRITMO is not 0 (R98). -/
def execPageRequestTimeout (s : State) : Out :=
  .next (if s.asked s.ev.x s.ev.v && bits (s.reg oTRCFG) 31 24 != 0 then s.priEnds s.ev.x s.ev.v true else s)

/-- An event that sleeps on a page request the host has not answered (R98). -/
def Ev.asleep (e : Ev) : Bool := e.asks.toNat % 16 == 1

/-! ## MSI-X (R414) -/

/-- The host's write of the mask bit of vector v of port p: set, or cleared, and then a pending message is sent (R414). -/
def State.unmask (s : State) (p v : Nat) : State :=
  let k := 4 * p + v
  let t := { s with msixMask := s.msixMask &&& ~~~(1#8 <<< k), msixPend := s.msixPend &&& ~~~(1#8 <<< k) }
  if s.msixPend.getLsbD k then { t with msix := t.msix ++ [(p, v)] } else t

/-- The mask bit of vector v of port p is set: its messages pend (R414). -/
def State.maskVector (s : State) (p v : Nat) : State := { s with msixMask := s.msixMask ||| (1#8 <<< (4 * p + v)) }

/-- MSIX_UNMASK of vector y of port x, or where z is not 0 the masking that goes before it (R414). -/
def execMsixUnmask (s : State) : Out := .next (if s.ev.z = 0 then s.unmask s.ev.x s.ev.y else s.maskVector s.ev.x s.ev.y)

end Sys2Proof.Machine
end

