-- ==== Sys2Proof/Machine/ModuleEvents.lean ====
section
/-! DEFINITION. Events of the module: scrubbing (R142), power and clocks (R424, R425), the thermal forecast and the S-layer emergency (R152,
R153, R426 to R428), a failed tower (R155), the Aeling links (R418 to R420), reset and bring-up (R421, R429, R430). -/

namespace Sys2Proof.Machine

/-! ## Scrubbing (R131, R133, R142) -/

/-- The strand of context x meets an error in what the core holds for it (R131, R147). -/
def State.strandError (s : State) (x cls : Nat) : State :=
  if (s.ctxAt x).isNone then s
  else ({ s with free := s.free + 1 } : State).asCtx x fun t => (t.localError cls 0#64 (Config.freeWord s.free)).withCtx fun c =>
    { c with phase := if c.phase = .left then .left else .normal }

/-- An error in what a core's queues and scoreboard hold of a running nest or an NMU operation: it ends with ENGINE, what it has written stays, and its
strand is told by an asynchronous trap (R131, log 64). -/
def State.endsEngine (s : State) (id : Nat) : State :=
  match s.allCores.find? fun (q : Nat × Core) => (q.2.nest.toList ++ q.2.commits).any (·.id == id) || q.2.nmuq.any (·.id == id) with
  | none => s
  | some (G, co) =>
    let nest := (co.nest.toList ++ co.commits).find? (·.id == id)
    let s1 := s.opFault G id (if nest.isSome then 3#2 else 2#2) cENGINE 0#64 0#64 0#64
    match nest, co.nmuq.find? (·.id == id) with
    | some t, _ =>
      if co.nest.any (·.id == id) then s1.endNest G
      else s1.onCore G fun c => { (c.finish t.sbs) with commits := c.commits.filter (·.id != id) }
    | none, some op => s1.endNmu G op
    | none, none => s1

/-- What a storage does with an error that it cannot correct (Table 6-1); l is the location or, for a storage that is not memory, the context
(0, 12), the tile as 4 times its core's number plus its own (1) or the command (13); v is the core whose cache it is (6) or the address (11). -/
def State.uncorrectable (s : State) (T l cls : Nat) (v : Word) : State :=
  match cls with
  | 0 => s.strandError l 0
  | 1 =>
    (s.onCore (l / 4) fun c => c.setTile (BitVec.ofNat 2 l) { c.tile (BitVec.ofNat 2 l) with poison := true }).reportCode T 1 2 (l / 4) 0 false 0
      0#64
  | 6 => s.badCacheLine 6 v.toNat (lineOf l)
  | 7 => s.badCacheLine 7 (192 * T) (lineOf l)
  | 10 => if fieldUsed l then s.badRow l else s
  | 11 => s.badTranslation T 1536 v
  | 12 => if (s.segOf l).isSome then ({ s with free := s.free + 1 } : State).machineCheck l 0#64 12 (Config.freeWord s.free) else s
  | 13 => match s.findCtx (Ctx.hasCmd l) with
    | some (x, _, _) => s.queue { i := .engineCommandFault, x := x, y := l, z := cENGINE.toNat }
    | none => s.endsEngine l
  | _ => s.lostAt T cls l

/-- SCRUB_VISIT of the row at y: z is 0 for a clean row, 1 for an error corrected in place, 2 for one that cannot be corrected, 3 for one that the code
of a line takes for correct, which leaves it with other bytes under its old CRC; w is the storage class (R131, R132, R133, R138, R140, R142). Field
rows and entries with parity alone have nothing corrected. -/
def State.scrub (s : State) (T l z cls : Nat) : State :=
  match z with
  | 0 => s.visited T (scrubRow cls l (if cls = 6 then s.ev.v.toNat else 0))
  | 1 => if cls = 10 ∨ cls = 11 then s else s.corrected T cls l s.ev.v.toNat
  | 2 => s.uncorrectable T l cls s.ev.v
  | _ => if regionOf l = 0 ∨ regionOf l = 3 ∨ regionOf l = 4 ∨ regionOf l = 6 then s.miscorrect l s.ev.bytes else s

/-- SCRUB_VISIT (R142). -/
def execScrubVisit (s : State) : Out := .next (s.scrub s.ev.x s.ev.y s.ev.z s.ev.w.toNat)

/-! ## Clocks (R424, R425) -/

/-- FREQ set within the range of R425. -/
def State.setFreq (s : State) (T mhz : Nat) : State :=
  s.setReg (oCLKST T) (setBits (s.reg (oCLKST T)) 15 0 (min 2000 (max 800 mhz)))

/-- Tower T stretches its clock, or no longer (R425). -/
def State.setStretch (s : State) (T : Nat) (b : Bool) : State :=
  { s with stretch := if b then s.stretch ||| (1#8 <<< T) else s.stretch &&& ~~~(1#8 <<< T) }

/-- DROOP_STRETCH: counted in NSTR; one of more than 64 cycles lowers the target by 100 MHz (R425). -/
def State.droop (s : State) (T cycles : Nat) : State :=
  let w := s.reg (oCLKST T)
  let t := (s.setReg (oCLKST T) (setBits w 63 32 (bits w 63 32 + 1))).setStretch T true
  if 64 < cycles then t.setFreq T (bits w 15 0 - 100) else t

/-- DROOP_STRETCH (R425). -/
def execDroopStretch (s : State) : Out := .next (s.droop s.ev.x s.ev.y)
/-- CURRENT_PEAK_STRETCH (R424). -/
def execCurrentPeakStretch (s : State) : Out := .next (s.setStretch s.ev.x true)
/-- RAIL_DROOP_END (R425). -/
def execRailDroopEnd (s : State) : Out := .next (s.setStretch s.ev.x false)
/-- BOOTST.STAGE. -/
def State.stage (s : State) : Nat := bits (s.reg oBOOTST) 7 0

/-- Self-heating is in progress (R430). -/
def State.heating (s : State) : Bool := s.stage == 3 && s.cold

/-- POWER_CONTROL_UPDATE: y is the new target in MHz; self-heating keeps its own (R424, R430). -/
def execPowerControlUpdate (s : State) : Out := .next (if s.heating then s else s.setFreq s.ev.x s.ev.y)

/-! ## The S-layer emergency (R152, R153, R428) -/

/-- SLEMST.STATE of tower T. -/
def State.layer (s : State) (T : Nat) : Nat := bits (s.reg (oSLEMST T)) 2 0

/-- SLEMST.STATE set. -/
def State.setLayer (s : State) (T n : Nat) : State := s.setReg (oSLEMST T) (BitVec.ofNat 64 n)

/-- The emergency of tower T is over (R428). -/
def State.cooled (s : State) (T : Nat) : Bool := decide (8 ≤ s.cool.getD T 0)

/-- The layer is off, or normal again where the emergency has ended (Table 6-12). -/
def State.layerOff (s : State) (T : Nat) : State := s.setLayer T (if s.cooled T then 0 else 2)

/-- The home of a dirty sector has the bytes again that its HBM4 line had before (R153). -/
def State.loseSector (s : State) (a : Nat) : State :=
  match findKey s.sold a with
  | none => s
  | some old => if s.dirty.any fun d => d.1 == a then { s with dirty := putKey s.dirty a old } else s.putBytes a old

/-- The layer loses its contents: each dirty sector's line has its old bytes and is poisoned, where an L1 holds it modified its home alone, with a record of severity 2 and class 8 for each
pseudo-channel affected; records that waited for the layer are written (R153). -/
def State.layerLost (s : State) (T : Nat) : State :=
  let lost := s.sdirty.filter fun a => hbmTower a == T
  let s1 := lost.foldl (fun (t : State) a =>
    if t.dirty.any fun d => d.1 == a then { t.loseSector a with hpoi := setIns t.hpoi a } else (t.loseSector a).setPoison a) s
  let s2 := { s1 with sdirty := s1.sdirty.filter fun a => hbmTower a != T, slayer := s1.slayer.filter fun q => q.1 / 0x20000 != T }
  let s3 := ((lost.map s.psi).eraseDups).foldl (fun (t : State) p =>
    t.report T 8 2 1536 0 false 0 ((lost.find? fun a => s.psi a == p).map (BitVec.ofNat 64) |>.getD 0#64) 0#64 0#64) s2
  (s3.setLayer T 4).writeRecords.queue { i := .slayerFlushComplete, x := T }

/-- NOW of the S-layer exceeds 115 °C (R428). -/
def State.tooHot (s : State) (T : Nat) : Bool :=
  decide (115 * 128 < ((s.reg (oTHFC T 2)).extractLsb' 16 16).toInt)

/-- SLAYER_FLUSH_COMPLETE: a flushing layer has written back every dirty sector; the marking of a lost one has completed (R152,
Table 6-12). -/
def State.flushDone (s : State) (T : Nat) : State :=
  match s.layer T with
  | 1 => (s.flushSectors T).layerOff T
  | 4 => s.layerOff T
  | _ => s

/-- SLAYER_FLUSH_COMPLETE (R152). -/
def execSlayerFlushComplete (s : State) : Out := .next (s.flushDone s.ev.x)

/-- SLAYER_CUTOFF at the deadline w: a layer still flushing goes to retention, or is lost where that is impossible (R428). -/
def State.cutOff (s : State) (T : Nat) : State :=
  if s.layer T = 1 then (if s.tooHot T || s.vslow.getLsbD T then s.layerLost T else s.setLayer T 3) else s

/-- SLAYER_CUTOFF (R428). -/
def execSlayerCutoff (s : State) : Out :=
  .next (if (s.cycOf s.ev.x).toNat < s.ev.w.toNat then s.queue s.ev else s.cutOff s.ev.x)

/-- VSL_BELOW_RETENTION: a layer in retention is lost, and one that flushes cannot be retained at the deadline of its emergency (R428). -/
def State.vslFalls (s : State) (T : Nat) : State :=
  match s.layer T with
  | 3 => s.layerLost T
  | 1 => { s with vslow := s.vslow ||| (1#8 <<< T) }
  | _ => s

/-- VSL_BELOW_RETENTION (R428). -/
def execVslBelowRetention (s : State) : Out := .next (s.vslFalls s.ev.x)

/-! ## The thermal forecast (R426 to R428) -/

/-- The readings of entry i: PEAK, then NOW, two bytes each. -/
def reading (bs : List Byte) (i : Nat) : Nat × Nat :=
  (bytesToNat ((bs.drop (4 * i)).take 2), bytesToNat ((bs.drop (4 * i + 2)).take 2))

/-- A temperature of 1/128 °C as a number. -/
def celsius128 (n : Nat) : Int := (BitVec.ofNat 16 n).toInt

/-- The eleven THFC registers written whole; EPOCH counts the updates, one each millisecond (R426). -/
def State.writeForecast (s : State) (T : Nat) (bs : List Byte) : State :=
  let epoch := (bits (s.reg (oTHFC T 0)) 63 48 + 1) % 65536
  (List.range 11).foldl (fun (t : State) i =>
    let q := reading bs i
    t.setReg (oTHFC T i) (BitVec.ofNat 64 (epoch * 2 ^ 48 + q.1 * 2 ^ 32 + q.2 * 2 ^ 16))) s

/-- THCLOSE from the PEAKs of the C-die and the field layers: firmware closes the clusters above 95 °C and opens them where every one is 90 °C or
below; between the two it keeps to what it chose last, and a supervisor's write ends (R427). -/
def State.writeClose (s : State) (T : Nat) (bs : List Byte) : State :=
  let ps := [0, 3, 4, 5, 6].map fun i => celsius128 (reading bs i).1
  let hot := (ps.any fun p => decide (0x2f80 < p)) || (s.hot.getLsbD T && !ps.all fun p => decide (p ≤ 90 * 128))
  { (s.setReg (oTHCLOSE T) (if hot then 0xff#64 else 0#64)) with hot := if hot then s.hot ||| (1#8 <<< T) else s.hot &&& ~~~(1#8 <<< T) }

/-- The cycles until the deadline of an emergency whose forecast time is n cycles: whole microseconds of the target clock, and at least 50 (R428). -/
def State.deadline (s : State) (T n : Nat) : Nat :=
  let mhz := bits (s.reg (oCLKST T)) 15 0
  max 50 (n / mhz) * mhz

/-- An emergency is declared with its deadline; a deadline of an earlier one is gone (R152, R428). -/
def State.declare (s : State) (T n : Nat) : State :=
  let t := { (s.setLayer T 1) with
    vslow := s.vslow &&& ~~~(1#8 <<< T)
    agenda := s.agenda.filter fun (e : Ev) => !(e.i == Instr.slayerCutoff && e.x == T) }
  (t.queue { i := .slayerFlushComplete, x := T }).queue
    { i := .slayerCutoff, x := T, w := s.cycOf T + BitVec.ofNat 64 (s.deadline T n) }

/-- The emergency: declared above 105 °C, n being the forecast time in cycles for NOW to reach 110 °C; over when PEAK has stayed at 100 °C or below
for 8 ms (R428). -/
def State.emergency (s : State) (T n : Nat) (bs : List Byte) : State :=
  let peak := celsius128 (reading bs 2).1
  let ms := if peak ≤ 100 * 128 then min 8 (s.cool.getD T 0 + 1) else 0
  let s1 := { s with cool := s.cool.setIfInBounds T ms }
  match s.layer T with
  | 0 => if 105 * 128 < peak then s1.declare T n else s1
  | 2 => if ms = 8 then s1.setLayer T 0 else s1
  | 3 =>
    if s1.tooHot T then s1.layerLost T
    else if ms = 8 then ((s1.setLayer T 1).writeRecords).queue { i := .slayerFlushComplete, x := T }
    else s1
  | _ => s1

/-- The NOW at which a pseudo-channel was last trained: since the update that first showed it, as bring-up's training left it (R429, R431, log 76). -/
def State.trainedAt (s : State) (T p : Nat) : Nat :=
  (findKey s.trained (256 * T + p)).getD ((findKey s.trained (2048 + 4 * T + p / 64)).getD (s.stackNow T p))

/-- The NOW of a stack has moved by more than 10 °C since the pseudo-channel was last trained (R431). -/
def State.drifted (s : State) (T p : Nat) : Bool :=
  decide (1280 < (celsius128 (s.stackNow T p) - celsius128 (s.trainedAt T p)).natAbs)

/-- Firmware retrains a pseudo-channel that has drifted, one on a tower at a time, where no redirect or commit is in force (R83, R431). -/
def State.retrainOne (s : State) (T : Nat) : State :=
  let s1 := (List.range 4).foldl (fun (t : State) i =>
    if (findKey t.trained (2048 + 4 * T + i)).isSome then t else { t with trained := putKey t.trained (2048 + 4 * T + i) (t.stackNow T (64 * i)) }) s
  let w := s1.reg (oRTRCTL T)
  if s.stage != 7 || w.getLsbD 8 || w.getLsbD 16 || (s1.reg (oHCOMMIT T)).getLsbD 8 || (s1.retrain.getD T none).isSome then s1
  else match (List.range 256).find? (s1.drifted T) with
    | none => s1
    | some p => ({ s1 with retrain := s1.retrain.setIfInBounds T (some p) } : State).redirectOn 0 T (BitVec.ofNat 64 (256 + p))

/-- THERMAL_FORECAST_UPDATE of tower x: z is the forecast time in cycles for the S-layer to reach 110 °C, bytes the readings (R426 to R428, R431). -/
def execThermalForecastUpdate (s : State) : Out :=
  .next ((((s.writeForecast s.ev.x s.ev.bytes).writeClose s.ev.x s.ev.bytes).emergency s.ev.x s.ev.z s.ev.bytes).retrainOne s.ev.x)

/-! ## A failed tower (R155) -/

/-- A core of tower T. -/
def onTower (T G : Nat) : Bool := twrOf G == T

/-- A line that a failed tower held modified or exclusive: its home has the bytes that it knows and marks it poisoned (R155). -/
def State.loseLine (s : State) (l : Nat) : State :=
  let t := match s.dirty.find? fun (d : Nat × List Byte) => d.1 == l with
    | none => s
    | some d => { (s.putBytes l d.2) with dirty := eraseKey s.dirty l }
  t.setPoison l

/-- The caches after tower T has failed: what surviving homes' directories record as held modified or exclusive by it is poisoned, its copies go,
and so do the copies of lines homed at it; its translations go (R155). -/
def State.fenceCaches (s : State) (T : Nat) : State :=
  let homed := fun (l : Nat) => isHbm l && hbmTower l == T
  let held := (s.own.filter fun c => onTower T c.2 && isHbm c.1 && !homed c.1).map (·.1)
  let s1 := held.foldl State.loseLine s
  { s1 with
    copies := s1.copies.filter fun c => !onTower T c.1 && !homed c.2
    icopies := s1.icopies.filter fun c => !onTower T c.1 && !homed c.2
    l2 := s1.l2.filter fun c => c.1 != T && !homed c.2
    own := s1.own.filter fun c => !homed c.1 && !onTower T c.2
    inval := s1.inval.filter fun v => !onTower T v.core && !homed v.line
    dirty := s1.dirty.filter fun d => !homed d.1
    slayer := s1.slayer.filter fun q => q.1 / 0x20000 != T
    tlb := s1.tlb.filter fun t => match t.unit with
      | .data G => !onTower T G
      | .instr G => !onTower T G
      | .cluster c => c / 8 != T
      | .tower U => U != T
    walkc := s1.walkc.filter fun w => w.twr != T
    ats := s1.ats.filter fun a => a.twr != T
    atsq := s1.atsq.filter fun a => a.1 != T
    ptc := s1.ptc.filter fun p => !onTower T p.core
    pri := s1.pri.filter fun r => r.twr != T
    sdirty := s1.sdirty.filter fun a => !homed a }

/-- The strands and engine operations of tower T are lost (R155). -/
def State.loseWork (s : State) (T : Nat) : State :=
  let lost := s.allCores.flatMap fun (q : Nat × Core) =>
    if onTower T q.1 then (q.2.nest.toList ++ q.2.commits).map (·.id) ++ q.2.nmuq.map (·.id) else []
  let s0 := (lost ++ (s.fops.filter fun o => onTower T o.core).map (·.id)).foldl State.opEnded s
  let s1 := s0.stow
  let s2 : State := { s1 with
    ctx := Ctx.reset
    core := (findKey s1.cores s.here).getD Core.reset
    ctxs := s1.ctxs.filter fun c => !onTower T (c.1 / 4)
    cores := (eraseKey s1.cores s.here).filter fun c => !onTower T c.1
    spilled := s1.spilled.filter fun q => !onTower T q.core
    past := s1.past.filter fun q => !onTower T (q.1 / 4)
    pipes := s1.pipes.filter fun p => p.twr != T
    placing := s1.placing.filter fun p => p.twr != T
    launches := s1.launches.filter fun l => l.1 != T
    moves := s1.moves.filter fun m => !onTower T (m.x / 4) && !onTower T (m.target / 4)
    fops := s1.fops.filter fun o => !onTower T o.core
    gangs := s1.gangs.filter fun g => g.clu / 8 != T
    colls := s1.colls.filter fun g => towerOfLoc g.key != some T
    sqq := s1.sqq.filter fun q => q.twr != T && !onTower T (q.x / 4)
    brels := s1.brels.filter fun b => !onTower T b.1 }
  if onTower T s.here then
    (match s2.ctxs with
      | (x, _) :: _ => ({ s2 with core := Core.reset } : State).bring (x / 4) (BitVec.ofNat 2 (x % 4))
      | [] => { s2 with core := Core.reset })
  else { s2 with ctx := s.ctx, core := s.core, ctxs := s2.ctxs.filter fun c => c.1 != s.me }

/-- TOWER_FENCE: every surviving tower writes a record of severity 4 and class 14 that names tower T (R155). -/
def State.fence (s : State) (T : Nat) : State :=
  if s.fenced.getLsbD T then s
  else
    let s1 := (({ s with fenced := s.fenced ||| (1#8 <<< T) } : State).fenceCaches T).loseWork T
    ((List.range 8).filter fun U => !s1.fenced.getLsbD U).foldl (fun (t : State) U =>
      t.report U 14 4 1536 0 false 0 0#64 0#64 (BitVec.ofNat 64 T)) s1

/-- TOWER_FENCE (R155). -/
def execTowerFence (s : State) : Out := .next (s.fence s.ev.x)

/-! ## Aeling links (R418 to R420) -/

/-- ALCTL_ENABLE: EN is set and the port trains; it is up when LINK_UP says so (R418). -/
def execAlctlEnable (s : State) : Out := .next (s.setReg (oALCTL s.ev.x) (s.reg (oALCTL s.ev.x) ||| 1#64))

/-- Lines homed on module M that are shared here are invalidated when no port to M is left (R420). -/
def State.dropModule (s : State) (M : Nat) : State :=
  if s.linkTo M then s
  else
    let far := fun (l : Nat) => regionOf l == 8 + M
    { s with copies := s.copies.filter fun c => !far c.2, icopies := s.icopies.filter fun c => !far c.2,
             l2 := s.l2.filter fun c => !far c.2, own := s.own.filter fun c => !far c.1,
             inval := s.inval.filter fun v => !far v.line, inbound := s.inbound.filter fun v => !far v.2.1 }

/-- A port goes down: UP clears, and the requests in flight on it are out of reach (R418, R420). -/
def State.portDown (s : State) (p : Nat) : State :=
  let w := s.reg (oALCTL p)
  let M := bits w 23 16
  ((s.portsChange M (some p)).setReg (oALCTL p) (w &&& ~~~2#64)).dropModule M

/-- A request in flight left on port p (R419). -/
def State.portInUse (s : State) (p : Nat) : Bool :=
  (s.farRequests (bits (s.reg (oALCTL p)) 23 16)).any fun q => s.requestPort q == some p

/-- ALCTL_DISABLE: EN is clear and the port goes down once its requests have completed (R418, Table 18-7). -/
def execAlctlDisable (s : State) : Out :=
  .next ((s.setReg (oALCTL s.ev.x) (s.reg (oALCTL s.ev.x) &&& ~~~1#64)).queue { i := .linkDown, x := s.ev.x, y := 1 })

/-- LINK_UP: an enabled port exchanges flits with the module y (R419). -/
def State.portUp (s : State) (p M : Nat) : State :=
  let w := s.reg (oALCTL p)
  if w.getLsbD 0 then (s.portsChange M none).setReg (oALCTL p) (setBits (w ||| 2#64) 23 16 M) else s

/-- LINK_UP (R419). -/
def execLinkUp (s : State) : Out := .next (s.portUp s.ev.x s.ev.y)

/-- LINK_DOWN: at once, or where y is not 0, EN being clear, once the port's requests have completed (R418, R420, Table 18-7). -/
def execLinkDown (s : State) : Out :=
  .next (if s.ev.y != 0 && s.portInUse s.ev.x then s.queue s.ev else s.portDown s.ev.x)

/-- A flit that fails its CRC is sent again; after 16 failed retries in succession the port goes down (R418). -/
def State.badFlit (s : State) (p : Nat) : State :=
  if !(s.reg (oALCTL p)).getLsbD 1 then s
  else
    let n := s.retries.getD p 0 + 1
    if 16 < n then ({ s with retries := s.retries.setIfInBounds p 0 } : State).queue { i := .linkDown, x := p }
    else { s with retries := s.retries.setIfInBounds p n }

/-- LINK_FLIT_RECEIVE: a flit whose CRC fails changes no byte; else its bytes, a store of the module at the far end, reach this module's HBM4 at y,
with the poison flag w (R137, R418). -/
def State.flit (s : State) (p l : Nat) (bad : Bool) (poi : Bool) (bs : List Byte) : State :=
  if bad then s.badFlit p
  else if !(s.reg (oALCTL p)).getLsbD 1 || !isHbm l || !isHbm (l + (bs.length - 1)) || s.isFenced l then s
  else
    let t := ({ s with retries := s.retries.setIfInBounds p 0 } : State).hostStore l bs
    if poi then t.poisonRange l bs.length else t

/-- A flit that waits for its tower's HBM4, its page or an invalidation of its lines (R81, R101, R118, R152). -/
def State.flitWaits (s : State) (e : Ev) : Bool := e.z == 0 && isHbm e.y && s.waitsAt e.y e.bytes.length

/-- LINK_FLIT_RECEIVE (R418); one that waits stays before what its port has sent since (R115). -/
def execLinkFlitReceive (s : State) : Out :=
  .next (if s.flitWaits s.ev then { s with agenda := s.ev :: s.agenda }
    else s.flit s.ev.x s.ev.y (s.ev.z != 0) (s.ev.w != 0#64) s.ev.bytes)

/-! ## Reset and bring-up (R80, R421, R429, R430, R447) -/

/-- The module after a fundamental reset of port 0: the memories of other parties keep their bytes, and firmware its record of remaps (R429). x is
the cause of Table 19-5 that the hardware gives bring-up to fail, y nonzero where a stack is too cold; z − 1 is the number of an agent image that
takes the place of the one there was (R421). -/
def State.moduleReset (s : State) (x y z : Nat) : State :=
  { State.reset with
    mem := s.mem.filter fun c => decide (7 ≤ regionOf c.1)
    hostOut := s.hostOut
    msix := s.msix
    toHost := s.toHost
    resets := s.resets + 1#32
    bootEnd := BitVec.ofNat 8 x
    cold := y != 0
    remaps := s.remaps
    agentNo := if z = 0 then s.agentNo else z - 1
    sched := s.sched
    free := s.free
    uid := s.uid }

/-- MODULE_RESET (R429). -/
def execModuleReset (s : State) : Out := .next (s.moduleReset s.ev.x s.ev.y s.ev.z)

/-- PORT_RESET of port 1: its MSI-X table entries are masked no more and none is pending; nothing else changes (R429, log 20). -/
def execPortReset (s : State) : Out := .next { s with msixMask := s.msixMask &&& 0x0f#8, msixPend := s.msixPend &&& 0x0f#8 }

/-- A bring-up stage begins (Table 19-5). -/
def State.beginStage (s : State) (n : Nat) : State := s.setReg oBOOTST (setBits (s.reg oBOOTST) 7 0 n)

/-- Bring-up fails with a cause (Table 19-5). -/
def State.bootFails (s : State) (c : Nat) : State := s.setReg oBOOTST (setBits (s.reg oBOOTST) 15 8 c)

/-- Bring-up has failed (R429). -/
def State.bootFailed (s : State) : Bool := bits (s.reg oBOOTST) 15 8 != 0

/-- SELF_HEATING_COMPLETE (R430). -/
def execSelfHeatingComplete (s : State) : Out := .next (if s.heating then { s with cold := false } else s)
/-- SELF_HEATING_TIMEOUT (R430). -/
def execSelfHeatingTimeout (s : State) : Out := .next (if s.heating then s.bootFails 6 else s)

/-- Mask i of the recommended set (R80). -/
def recommendedMask (i : Nat) : Word := BitVec.ofNat 64 (2 ^ (8 + i) + 2 ^ (13 + i) + 2 ^ (18 + i))

/-- Stage 5: the recommended masks active on every tower, and every HBM4 line zero and sound (R80, R429). -/
def State.zeroHbm (s : State) : State :=
  let s1 := (List.range 8).foldl (fun (t : State) T =>
    (List.range 8).foldl (fun (u : State) i => u.setReg (tb T (0x1000 + 8 * i)) (recommendedMask i)) t) s
  let ms : Vector Word 8 := Vector.ofFn fun (i : Fin 8) => recommendedMask i.val
  { s1 with
    hactive := Vector.replicate 8 ms
    hnext := Vector.replicate 8 ms
    epoch := Vector.replicate 8 0
    since := []
    mem := s1.mem.filter fun c => !isHbm c.1
    poison := s1.poison.filter fun l => !isHbm l
    badcrc := s1.badcrc.filter fun q => !isHbm q.1
    sdirty := []
    sold := []
    slayer := [] }

/-- The agent of a tower: context 0 of its first core at supervisor level, at the entry of the agent image (R163), its generator
started at counter 0 (R222, log 6). -/
def agentCtx : Ctx :=
  { Ctx.reset with
    r := { Regs.reset.rbStart 0#128 with pc := Config.agentEntry &&& ~~~0xf#64, tag := 1#8, run := 65536#32 }
    st := .ready
    agent := true }

/-- Stage 5: firmware applies the remaps that it has recorded (R354, R429). -/
def State.applyRemaps (s : State) : State := s.remaps.foldl (fun (t : State) q => t.replaceMacro q.1 q.2.1 q.2.2) s

/-- Stage 7: the trap handlers, the agents and the dispatchers (R163, R429, R447). -/
def State.startAgents (s : State) : State :=
  let s1 := (List.range 8).foldl (fun (t : State) T =>
    let u := t.setReg (oTVEC T) (Config.handlerEntry &&& ~~~0xf#64)
    u.setReg (oDSPCTL T) (u.reg (oDSPCTL T) ||| 1#64)) s
  let s2 := { s1 with ctxs := (List.range 8).foldl (fun (l : List (Nat × Ctx)) T => putKey l (768 * T) agentCtx) s1.ctxs }
  ({ s2 with agentRun := true } : State).turnTo 0 0#2

/-- An image whose digest and signature hold against the Ndehistad key (R421). -/
def imageSound (body : List Byte) (hdr : Nat → Byte) : Bool :=
  let d := (List.range 48).map hdr
  d == digest body && !Config.badSignature d ((List.range 96).map fun i => hdr (48 + i))

/-- The cause that stage n of bring-up finds: the boot ROM verifies firmware at stage 2, its signature first, and firmware the agent image at stage 6,
where cause 3 stands for its version too; other causes come from the hardware, at their stages (R421, Table 19-5; log 19). -/
def State.bootCause (s : State) (n : Nat) : Nat :=
  match n with
  | 1 => if s.bootEnd = 5#8 then 5 else 0
  | 2 =>
    if !imageSound Config.firmwareImage Config.firmwareHeader then 1
    else if Config.firmwareVersion.toNat < Config.fusedMinimum.toNat then 2 else 0
  | 4 => if s.bootEnd = 4#8 then 4 else 0
  | 6 =>
    if !imageSound (Config.agentImage s.agentNo) (Config.agentHeader s.agentNo) ||
      decide ((Config.agentVersion s.agentNo).toNat < Config.fusedMinimum.toNat) then 3 else 0
  | _ => 0

/-- The next stage of bring-up begins and does its work; stage 3 lasts until the stacks are warm, at a target of 800 MHz (R429, R430). -/
def State.bootStep (s : State) : State :=
  if s.heating then s
  else
    let n := s.stage + 1
    let t := s.beginStage n
    if t.bootCause n != 0 then t.bootFails (t.bootCause n)
    else match n with
      | 3 => if t.cold then (List.range 8).foldl (fun (u : State) T => u.setFreq T 800) t else t
      | 5 => t.zeroHbm.applyRemaps
      | 7 => t.startAgents
      | _ => t

end Sys2Proof.Machine
end

