-- ==== Sys2Proof/Machine/Vector.lean ====
section
/-! DEFINITION. The V-class integer, floating-point and permute families (R308 to R321): meanings. -/

namespace Sys2Proof.Machine

/-- A result of the V slot with its captured operands (R243, R307). -/
def State.retV (s : State) (lat : Nat) (i : Instr) (ws : List Write) (a b c : Vec) (gm : BitVec 32) : State :=
  s.land lat .v i ws a b c gm 0#64

/-- VADD (R308), latency 2. -/
def execVadd (g : BitVec 4) (d : BitVec 6) (a : BitVec 6) (b : BitVec 6) (m : BitVec 2) (w : BitVec 2) (s : State) : Out :=
  whenLanes g s fun gm st => st.retV 2 (.vadd g d a b m w)
    (vres d (vaddVal m w (st.vr a) (st.vr b)) gm) (st.vr a) (st.vr b) 0#1024 gm
/-- VSUB (R308), latency 2. -/
def execVsub (g : BitVec 4) (d : BitVec 6) (a : BitVec 6) (b : BitVec 6) (m : BitVec 2) (w : BitVec 2) (s : State) : Out :=
  whenLanes g s fun gm st => st.retV 2 (.vsub g d a b m w)
    (vres d (vsubVal m w (st.vr a) (st.vr b)) gm) (st.vr a) (st.vr b) 0#1024 gm
/-- VMUL (R308), latency 2. -/
def execVmul (g : BitVec 4) (d : BitVec 6) (a : BitVec 6) (b : BitVec 6) (w : BitVec 2) (s : State) : Out :=
  whenLanes g s fun gm st => st.retV 2 (.vmul g d a b w)
    (vres d (vmulVal w (st.vr a) (st.vr b)) gm) (st.vr a) (st.vr b) 0#1024 gm
/-- VMULH (R308), latency 2. -/
def execVmulh (g : BitVec 4) (d : BitVec 6) (a : BitVec 6) (b : BitVec 6) (u : BitVec 1) (w : BitVec 2) (s : State) : Out :=
  whenLanes g s fun gm st => st.retV 2 (.vmulh g d a b u w)
    (vres d (vmulhVal u w (st.vr a) (st.vr b)) gm) (st.vr a) (st.vr b) 0#1024 gm
/-- VMAC (R308), latency 2. -/
def execVmac (g : BitVec 4) (d : BitVec 6) (a : BitVec 6) (b : BitVec 6) (w : BitVec 2) (s : State) : Out :=
  whenLanes g s fun gm st => st.retV 2 (.vmac g d a b w)
    (vres d (vmacVal w (st.vr a) (st.vr b) (st.vr d)) gm) (st.vr a) (st.vr b) (st.vr d) gm
/-- VMINS (R308), latency 2. -/
def execVmins (g : BitVec 4) (d : BitVec 6) (a : BitVec 6) (b : BitVec 6) (w : BitVec 2) (s : State) : Out :=
  whenLanes g s fun gm st => st.retV 2 (.vmins g d a b w)
    (vres d (vminsVal w (st.vr a) (st.vr b)) gm) (st.vr a) (st.vr b) 0#1024 gm
/-- VMAXS (R308), latency 2. -/
def execVmaxs (g : BitVec 4) (d : BitVec 6) (a : BitVec 6) (b : BitVec 6) (w : BitVec 2) (s : State) : Out :=
  whenLanes g s fun gm st => st.retV 2 (.vmaxs g d a b w)
    (vres d (vmaxsVal w (st.vr a) (st.vr b)) gm) (st.vr a) (st.vr b) 0#1024 gm
/-- VMINU (R308), latency 2. -/
def execVminu (g : BitVec 4) (d : BitVec 6) (a : BitVec 6) (b : BitVec 6) (w : BitVec 2) (s : State) : Out :=
  whenLanes g s fun gm st => st.retV 2 (.vminu g d a b w)
    (vres d (vminuVal w (st.vr a) (st.vr b)) gm) (st.vr a) (st.vr b) 0#1024 gm
/-- VMAXU (R308), latency 2. -/
def execVmaxu (g : BitVec 4) (d : BitVec 6) (a : BitVec 6) (b : BitVec 6) (w : BitVec 2) (s : State) : Out :=
  whenLanes g s fun gm st => st.retV 2 (.vmaxu g d a b w)
    (vres d (vmaxuVal w (st.vr a) (st.vr b)) gm) (st.vr a) (st.vr b) 0#1024 gm
/-- VSHL (R308), latency 2. -/
def execVshl (g : BitVec 4) (d : BitVec 6) (a : BitVec 6) (b : BitVec 6) (w : BitVec 2) (s : State) : Out :=
  whenLanes g s fun gm st => st.retV 2 (.vshl g d a b w)
    (vres d (vshlVal w (st.vr a) (st.vr b)) gm) (st.vr a) (st.vr b) 0#1024 gm
/-- VSHR (R308), latency 2. -/
def execVshr (g : BitVec 4) (d : BitVec 6) (a : BitVec 6) (b : BitVec 6) (w : BitVec 2) (s : State) : Out :=
  whenLanes g s fun gm st => st.retV 2 (.vshr g d a b w)
    (vres d (vshrVal w (st.vr a) (st.vr b)) gm) (st.vr a) (st.vr b) 0#1024 gm
/-- VSAR (R308), latency 2. -/
def execVsar (g : BitVec 4) (d : BitVec 6) (a : BitVec 6) (b : BitVec 6) (w : BitVec 2) (s : State) : Out :=
  whenLanes g s fun gm st => st.retV 2 (.vsar g d a b w)
    (vres d (vsarVal w (st.vr a) (st.vr b)) gm) (st.vr a) (st.vr b) 0#1024 gm
/-- VROT (R308), latency 2. -/
def execVrot (g : BitVec 4) (d : BitVec 6) (a : BitVec 6) (b : BitVec 6) (w : BitVec 2) (s : State) : Out :=
  whenLanes g s fun gm st => st.retV 2 (.vrot g d a b w)
    (vres d (vrotVal w (st.vr a) (st.vr b)) gm) (st.vr a) (st.vr b) 0#1024 gm
/-- VABS (R308), latency 2. -/
def execVabs (g : BitVec 4) (d : BitVec 6) (a : BitVec 6) (w : BitVec 2) (s : State) : Out :=
  whenLanes g s fun gm st => st.retV 2 (.vabs g d a w)
    (vres d (vabsVal w (st.vr a)) gm) (st.vr a) 0#1024 0#1024 gm
/-- VPOPC (R308), latency 2. -/
def execVpopc (g : BitVec 4) (d : BitVec 6) (a : BitVec 6) (w : BitVec 2) (s : State) : Out :=
  whenLanes g s fun gm st => st.retV 2 (.vpopc g d a w)
    (vres d (vpopcVal w (st.vr a)) gm) (st.vr a) 0#1024 0#1024 gm
/-- VCLZ (R308), latency 2. -/
def execVclz (g : BitVec 4) (d : BitVec 6) (a : BitVec 6) (w : BitVec 2) (s : State) : Out :=
  whenLanes g s fun gm st => st.retV 2 (.vclz g d a w)
    (vres d (vclzVal w (st.vr a)) gm) (st.vr a) 0#1024 0#1024 gm
/-- VAND (R308), latency 2. -/
def execVand (g : BitVec 4) (d : BitVec 6) (a : BitVec 6) (b : BitVec 6) (s : State) : Out :=
  whenLanes g s fun gm st => st.retV 2 (.vand g d a b)
    (vres d ((st.vr a) &&& (st.vr b)) gm) (st.vr a) (st.vr b) 0#1024 gm
/-- VOR (R308), latency 2. -/
def execVor (g : BitVec 4) (d : BitVec 6) (a : BitVec 6) (b : BitVec 6) (s : State) : Out :=
  whenLanes g s fun gm st => st.retV 2 (.vor g d a b)
    (vres d ((st.vr a) ||| (st.vr b)) gm) (st.vr a) (st.vr b) 0#1024 gm
/-- VXOR (R308), latency 2. -/
def execVxor (g : BitVec 4) (d : BitVec 6) (a : BitVec 6) (b : BitVec 6) (s : State) : Out :=
  whenLanes g s fun gm st => st.retV 2 (.vxor g d a b)
    (vres d ((st.vr a) ^^^ (st.vr b)) gm) (st.vr a) (st.vr b) 0#1024 gm
/-- VFSHL (R308), latency 2. -/
def execVfshl (g : BitVec 4) (d : BitVec 6) (a : BitVec 6) (b : BitVec 6) (k : BitVec 5) (s : State) : Out :=
  whenLanes g s fun gm st => st.retV 2 (.vfshl g d a b k)
    (vres d (vfshlVal k (st.vr a) (st.vr b)) gm) (st.vr a) (st.vr b) 0#1024 gm
/-- VFSHR (R308), latency 2. -/
def execVfshr (g : BitVec 4) (d : BitVec 6) (a : BitVec 6) (b : BitVec 6) (k : BitVec 5) (s : State) : Out :=
  whenLanes g s fun gm st => st.retV 2 (.vfshr g d a b k)
    (vres d (vfshrVal k (st.vr a) (st.vr b)) gm) (st.vr a) (st.vr b) 0#1024 gm
/-- VSHI (R309), latency 2. -/
def execVshi (g : BitVec 4) (d : BitVec 6) (a : BitVec 6) (k : BitVec 2) (w : BitVec 2) (n : BitVec 5) (s : State) : Out :=
  whenLanes g s fun gm st => st.retV 2 (.vshi g d a k w n)
    (vres d (vshiVal k w n (st.vr a)) gm) (st.vr a) 0#1024 0#1024 gm
/-- VBCST (R308), latency 3. -/
def execVbcst (g : BitVec 4) (d : BitVec 6) (a : BitVec 6) (w : BitVec 2) (s : State) : Out :=
  whenLanes g s fun gm st => st.retV 3 (.vbcst g d a w)
    (vres d (vbcstVal w (low (opd (st.sr a)))) gm) (opd (st.sr a)) 0#1024 0#1024 gm
/-- VTERN (R310), latency 2. -/
def execVtern (g : BitVec 4) (d : BitVec 6) (a : BitVec 6) (b : BitVec 6) (t : BitVec 8) (s : State) : Out :=
  whenLanes g s fun gm st => st.retV 2 (.vtern g d a b t)
    (vres d (vternVal t (st.vr a) (st.vr b) (st.vr d)) gm) (st.vr a) (st.vr b) (st.vr d) gm
/-- VFADD (R311), latency 4. -/
def execVfadd (g : BitVec 4) (d : BitVec 6) (a : BitVec 6) (b : BitVec 6) (r : BitVec 1) (e : BitVec 1) (s : State) : Out :=
  whenLanes g s fun gm st => st.retV 4 (.vfadd g d a b r e)
    (vres d (vfaddVal r e (st.vr a) (st.vr b)) gm) (st.vr a) (st.vr b) 0#1024 gm
/-- VFSUB (R311), latency 4. -/
def execVfsub (g : BitVec 4) (d : BitVec 6) (a : BitVec 6) (b : BitVec 6) (r : BitVec 1) (e : BitVec 1) (s : State) : Out :=
  whenLanes g s fun gm st => st.retV 4 (.vfsub g d a b r e)
    (vres d (vfsubVal r e (st.vr a) (st.vr b)) gm) (st.vr a) (st.vr b) 0#1024 gm
/-- VFMUL (R311), latency 4. -/
def execVfmul (g : BitVec 4) (d : BitVec 6) (a : BitVec 6) (b : BitVec 6) (r : BitVec 1) (e : BitVec 1) (s : State) : Out :=
  whenLanes g s fun gm st => st.retV 4 (.vfmul g d a b r e)
    (vres d (vfmulVal r e (st.vr a) (st.vr b)) gm) (st.vr a) (st.vr b) 0#1024 gm
/-- VFMA (R311), latency 4. -/
def execVfma (g : BitVec 4) (d : BitVec 6) (a : BitVec 6) (b : BitVec 6) (r : BitVec 1) (e : BitVec 1) (s : State) : Out :=
  whenLanes g s fun gm st => st.retV 4 (.vfma g d a b r e)
    (vres d (vfmaVal r e (st.vr a) (st.vr b) (st.vr d)) gm) (st.vr a) (st.vr b) (st.vr d) gm
/-- VFMAX (R311), latency 4. -/
def execVfmax (g : BitVec 4) (d : BitVec 6) (a : BitVec 6) (b : BitVec 6) (e : BitVec 1) (s : State) : Out :=
  whenLanes g s fun gm st => st.retV 4 (.vfmax g d a b e)
    (vres d (vfmaxVal e (st.vr a) (st.vr b)) gm) (st.vr a) (st.vr b) 0#1024 gm
/-- VFMIN (R311), latency 4. -/
def execVfmin (g : BitVec 4) (d : BitVec 6) (a : BitVec 6) (b : BitVec 6) (e : BitVec 1) (s : State) : Out :=
  whenLanes g s fun gm st => st.retV 4 (.vfmin g d a b e)
    (vres d (vfminVal e (st.vr a) (st.vr b)) gm) (st.vr a) (st.vr b) 0#1024 gm
/-- VEXP2 (R312), latency 8. -/
def execVexp2 (g : BitVec 4) (d : BitVec 6) (a : BitVec 6) (s : State) : Out :=
  whenLanes g s fun gm st => st.retV 8 (.vexp2 g d a)
    (vres d (vexp2Val (st.vr a)) gm) (st.vr a) 0#1024 0#1024 gm
/-- VRCP (R312), latency 8. -/
def execVrcp (g : BitVec 4) (d : BitVec 6) (a : BitVec 6) (s : State) : Out :=
  whenLanes g s fun gm st => st.retV 8 (.vrcp g d a)
    (vres d (vrcpVal (st.vr a)) gm) (st.vr a) 0#1024 0#1024 gm
/-- VRSQ (R312), latency 8. -/
def execVrsq (g : BitVec 4) (d : BitVec 6) (a : BitVec 6) (s : State) : Out :=
  whenLanes g s fun gm st => st.retV 8 (.vrsq g d a)
    (vres d (vrsqVal (st.vr a)) gm) (st.vr a) 0#1024 0#1024 gm
/-- VFCMP (R313), latency 4. -/
def execVfcmp (g : BitVec 4) (d : BitVec 4) (a : BitVec 6) (b : BitVec 6) (c : BitVec 3) (s : State) : Out :=
  whenLanes g s fun gm st => st.retV 4 (.vfcmp g d a b c)
    (pres d (vfcmpVal c (st.vr a) (st.vr b)) gm) (st.vr a) (st.vr b) 0#1024 gm
/-- VCVT (R314), latency 3. -/
def execVcvt (g : BitVec 4) (d : BitVec 6) (a : BitVec 6) (r : BitVec 1) (c : BitVec 4) (x : BitVec 1) (p : BitVec 3) (s : State) : Out :=
  whenLanes g s fun gm st => st.retV 3 (.vcvt g d a r c x p)
    (cvtWrites d c x p (rmOf r) 0#64 (st.vr a) gm) (st.vr a) 0#1024 0#1024 gm
/-- VCVTS (R315), latency 3. -/
def execVcvts (g : BitVec 4) (d : BitVec 6) (a : BitVec 6) (c : BitVec 4) (x : BitVec 1) (p : BitVec 3) (s : State) : Out :=
  whenLanes g s fun gm st =>
    let q := st.ctx.r.rbShared
    (st.withRegs fun _ => q.2).land 3 .v (.vcvts g d a c x p) (cvtWrites d c x p .sr q.1 (st.vr a) gm) (st.vr a) 0#1024 0#1024 gm q.1
/-- VMXQ (R316), latency 6. -/
def execVmxq (g : BitVec 4) (d : BitVec 6) (a : BitVec 6) (b : BitVec 6) (q : BitVec 2) (m : BitVec 1) (e : BitVec 2) (s : State) : Out :=
  whenLanes g s fun gm st =>
    let rr := if m = 1#1 then st.ctx.r.rbShared else (0#64, st.ctx.r)
    (st.withRegs fun _ => rr.2).land 6 .v (.vmxq g d a b q m e) (vmxqWrites d b q m e rr.1 (st.vr a) gm) (st.vr a) 0#1024 0#1024 gm rr.1
/-- VMXD (R317), latency 4. -/
def execVmxd (g : BitVec 4) (d : BitVec 6) (a : BitVec 6) (b : BitVec 6) (q : BitVec 2) (e : BitVec 2) (s : State) : Out :=
  whenLanes g s fun gm st => st.retV 4 (.vmxd g d a b q e)
    (vres d (vmxdVal q e (low (opd (st.sr b))) (st.vr a)) gm) (st.vr a) (opd (st.sr b)) 0#1024 gm
/-- VPERM (R318), latency 3. -/
def execVperm (g : BitVec 4) (d : BitVec 6) (a : BitVec 6) (b : BitVec 6) (s : State) : Out :=
  whenLanes g s fun gm st => st.retV 3 (.vperm g d a b)
    (vres d (vpermVal (st.vr a) (st.vr b)) gm) (st.vr a) (st.vr b) 0#1024 gm
/-- VSLIDE (R318), latency 3. -/
def execVslide (g : BitVec 4) (d : BitVec 6) (a : BitVec 6) (b : BitVec 6) (k : BitVec 5) (s : State) : Out :=
  whenLanes g s fun gm st => st.retV 3 (.vslide g d a b k)
    (vres d (vslideVal k (st.vr a) (st.vr b)) gm) (st.vr a) (st.vr b) 0#1024 gm
/-- VSEL (R318), latency 2. -/
def execVsel (g : BitVec 4) (d : BitVec 6) (a : BitVec 6) (b : BitVec 6) (p : BitVec 4) (s : State) : Out :=
  whenLanes g s fun gm st => st.retV 2 (.vsel g d a b p)
    (vres d (vselVal ((low ((st.pr p).setWidth 1024)).setWidth 32) (st.vr a) (st.vr b)) gm) (st.vr a) (st.vr b) ((st.pr p).setWidth 1024) gm
/-- VMOV (R318), latency 2. -/
def execVmov (g : BitVec 4) (d : BitVec 6) (a : BitVec 6) (s : State) : Out :=
  whenLanes g s fun gm st => st.retV 2 (.vmov g d a)
    (vres d ((st.vr a)) gm) (st.vr a) 0#1024 0#1024 gm
/-- VEXT (R318), latency 3. -/
def execVext (g : BitVec 4) (d : BitVec 6) (a : BitVec 6) (k : BitVec 5) (s : State) : Out :=
  whenLanes g s fun gm st => st.retV 3 (.vext g d a k)
    ([.s d ((lane (st.vr a) k.toNat).setWidth 64)]) (st.vr a) 0#1024 0#1024 gm
/-- VINS (R318), latency 3. -/
def execVins (g : BitVec 4) (d : BitVec 6) (a : BitVec 6) (k : BitVec 5) (s : State) : Out :=
  whenLanes g s fun gm st => st.retV 3 (.vins g d a k)
    (vres d (vinsVal (low (opd (st.sr a)))) (onlyLane gm k)) (opd (st.sr a)) 0#1024 0#1024 gm
/-- VCMP (R319), latency 2. -/
def execVcmp (g : BitVec 4) (d : BitVec 4) (a : BitVec 6) (b : BitVec 6) (c : BitVec 3) (w : BitVec 2) (s : State) : Out :=
  whenLanes g s fun gm st => st.retV 2 (.vcmp g d a b c w)
    (pres d (vcmpVal c w (st.vr a) (st.vr b)) gm) (st.vr a) (st.vr b) 0#1024 gm
/-- VRADD (R320), latency 6. -/
def execVradd (g : BitVec 4) (d : BitVec 6) (a : BitVec 6) (s : State) : Out :=
  whenLanes g s fun gm st => st.retV 6 (.vradd g d a)
    (vres d (vraddVal (st.vr a) gm) gm) (st.vr a) 0#1024 0#1024 gm
/-- VRMAX (R320), latency 6. -/
def execVrmax (g : BitVec 4) (d : BitVec 6) (a : BitVec 6) (u : BitVec 1) (s : State) : Out :=
  whenLanes g s fun gm st => st.retV 6 (.vrmax g d a u)
    (vres d (vrmaxVal u (st.vr a) gm) gm) (st.vr a) 0#1024 0#1024 gm
/-- VRFADD (R320), latency 6. -/
def execVrfadd (g : BitVec 4) (d : BitVec 6) (a : BitVec 6) (s : State) : Out :=
  whenLanes g s fun gm st => st.retV 6 (.vrfadd g d a)
    (vres d (vrfaddVal (st.vr a) gm) gm) (st.vr a) 0#1024 0#1024 gm
/-- VRFMAX (R320), latency 6. -/
def execVrfmax (g : BitVec 4) (d : BitVec 6) (a : BitVec 6) (s : State) : Out :=
  whenLanes g s fun gm st => st.retV 6 (.vrfmax g d a)
    (vres d (vrfmaxVal (st.vr a) gm) gm) (st.vr a) 0#1024 0#1024 gm
/-- VMCNT (R321), latency 6. -/
def execVmcnt (g : BitVec 4) (d : BitVec 6) (a : BitVec 6) (s : State) : Out :=
  whenLanes g s fun gm st => st.retV 6 (.vmcnt g d a)
    ([.s d (vmcntVal (st.vr a))]) (st.vr a) 0#1024 0#1024 gm
/-- VMFST (R321), latency 6. -/
def execVmfst (g : BitVec 4) (d : BitVec 6) (a : BitVec 6) (s : State) : Out :=
  whenLanes g s fun gm st => st.retV 6 (.vmfst g d a)
    ([.s d (vmfstVal (st.vr a))]) (st.vr a) 0#1024 0#1024 gm

end Sys2Proof.Machine
end

