-- ==== Sys2Proof/Machine/VecMem.lean ====
section
/-! DEFINITION. The vector memory family (R322), RBKT (R369) and RBIAS (R370): meanings. -/

namespace Sys2Proof.Machine

/-- The guarded lanes at consecutive words from ea (Table 13-7). -/
def unitLanes (gm : BitVec 32) (ea : Word) : List (Nat × Word) :=
  (guardedLanes gm).map fun i => (i, ea + BitVec.ofNat 64 (4 * i))

/-- The captured lane addresses: those of guarded-false lanes are zero (R196). -/
def laneAddrs (gm : BitVec 32) (f : Nat → Word) : List Word :=
  (List.range 32).map fun i => if gm.getLsbD i then f i else 0#64

/-- The guarded lanes with their addresses. -/
def pickLanes (gm : BitVec 32) (f : Nat → Word) : List (Nat × Word) := (guardedLanes gm).map fun i => (i, f i)

/-- The lane addresses of a strided access (Table 13-7). -/
def strideAddr (base step : Word) (i : Nat) : Word := base + BitVec.ofNat 64 i * step

/-- The lane addresses of an indexed access (Table 13-7). -/
def indexAddr (base : Word) (ix : Vec) (c : BitVec 2) (i : Nat) : Word := base + ((lane ix i).setWidth 64 <<< c.toNat)

/-- The lane addresses of RBIAS: the head's table and the bucket (R370). -/
def biasAddr (base : Word) (ix : Vec) (h : BitVec 5) (i : Nat) : Word :=
  base + BitVec.ofNat 64 (64 * h.toNat + 2 * ((lane ix i).toNat % 32))

/-- VLD (R322). -/
def execVld (g : BitVec 4) (d a : BitVec 6) (imm : BitVec 15) (s : State) : Out :=
  whenLanes g s fun gm t =>
    let ea := t.sr a + (imm.signExtend 64 <<< 4)
    t.vectorLoad (.vld g d a imm) gm [ea] (unitLanes gm ea) true 0#1024
/-- VST (R322). -/
def execVst (g : BitVec 4) (d a : BitVec 6) (imm : BitVec 15) (s : State) : Out :=
  whenLanes g s fun gm t =>
    let ea := t.sr a + (imm.signExtend 64 <<< 4)
    t.vectorStore (.vst g d a imm) gm [ea] (unitLanes gm ea) true (t.vr d)
/-- VLDS (R322). -/
def execVlds (g : BitVec 4) (d a b : BitVec 6) (s : State) : Out :=
  whenLanes g s fun gm t =>
    let f := strideAddr (t.sr a) (t.sr b)
    t.vectorLoad (.vlds g d a b) gm (laneAddrs gm f) (pickLanes gm f) false 0#1024
/-- VSTS (R322). -/
def execVsts (g : BitVec 4) (d a b : BitVec 6) (s : State) : Out :=
  whenLanes g s fun gm t =>
    let f := strideAddr (t.sr a) (t.sr b)
    t.vectorStore (.vsts g d a b) gm (laneAddrs gm f) (pickLanes gm f) false (t.vr d)
/-- VLDX (R322). -/
def execVldx (g : BitVec 4) (d a b : BitVec 6) (c : BitVec 2) (s : State) : Out :=
  whenLanes g s fun gm t =>
    let f := indexAddr (t.sr a) (t.vr b) c
    t.vectorLoad (.vldx g d a b c) gm (laneAddrs gm f) (pickLanes gm f) false 0#1024
/-- VSTX (R322). -/
def execVstx (g : BitVec 4) (d a b : BitVec 6) (c : BitVec 2) (s : State) : Out :=
  whenLanes g s fun gm t =>
    let f := indexAddr (t.sr a) (t.vr b) c
    t.vectorStore (.vstx g d a b c) gm (laneAddrs gm f) (pickLanes gm f) false (t.vr d)
/-- VLDB: one word for every guarded lane (R322). -/
def execVldb (g : BitVec 4) (d a : BitVec 6) (imm : BitVec 15) (s : State) : Out :=
  whenLanes g s fun gm t =>
    let ea := t.sr a + (imm.signExtend 64 <<< 2)
    t.vectorLoad (.vldb g d a imm) gm [ea] [(0, ea)] true 0#1024
/-- RBKT, latency 3 (R369). -/
def execRbkt (g : BitVec 4) (d a : BitVec 6) (m : BitVec 1) (s : State) : Out :=
  whenLanes g s fun gm t => t.retV 3 (.rbkt g d a m) (vres d (rbktVal m (t.vr a)) gm) (t.vr a) 0#1024 0#1024 gm
/-- RBIAS (R370). -/
def execRbias (g : BitVec 4) (d a b : BitVec 6) (k : BitVec 5) (s : State) : Out :=
  whenLanes g s fun gm t =>
    let f := biasAddr (t.sr a) (t.vr b) k
    t.vectorLoad (.rbias g d a b k) gm (laneAddrs gm f) (pickLanes gm f) false (t.vr d)

end Sys2Proof.Machine
end

