-- ==== Sys2Proof/Machine/Dispatch.lean ====
section
/-! DEFINITION. One arm per constructor of Instr: a direct call of its meaning. -/

namespace Sys2Proof.Machine

/-- The meaning of an instruction or event. -/
def exec (i : Instr) (s : State) : Host.Outcome State Fault Refusal :=
  match i with
  | .nop => Sys2Proof.Machine.execNop s
  | .hdr h => Sys2Proof.Machine.execHdr h s
  | .br g off => Sys2Proof.Machine.execBr g off s
  | .brl g off => Sys2Proof.Machine.execBrl g off s
  | .jr g a => Sys2Proof.Machine.execJr g a s
  | .jrl g d a => Sys2Proof.Machine.execJrl g d a s
  | .loop g lv a dist => Sys2Proof.Machine.execLoop g lv a dist s
  | .loopi g lv n dist => Sys2Proof.Machine.execLoopi g lv n dist s
  | .lbrk g lv => Sys2Proof.Machine.execLbrk g lv s
  | .mtl g k a => Sys2Proof.Machine.execMtl g k a s
  | .mfl g d k => Sys2Proof.Machine.execMfl g d k s
  | .yield g n => Sys2Proof.Machine.execYield g n s
  | .seg g a aflag => Sys2Proof.Machine.execSeg g a aflag s
  | .rdv g twr k => Sys2Proof.Machine.execRdv g twr k s
  | .trap g code => Sys2Proof.Machine.execTrap g code s
  | .trapb g code a bound => Sys2Proof.Machine.execTrapb g code a bound s
  | .eret g => Sys2Proof.Machine.execEret g s
  | .exit g => Sys2Proof.Machine.execExit g s
  | .pause g => Sys2Proof.Machine.execPause g s
  | .xadd g d a b => Sys2Proof.Machine.execXadd g d a b s
  | .xaddi g d a imm => Sys2Proof.Machine.execXaddi g d a imm s
  | .xmovi g d imm => Sys2Proof.Machine.execXmovi g d imm s
  | .xmovhi g d imm => Sys2Proof.Machine.execXmovhi g d imm s
  | .add g d a b => Sys2Proof.Machine.execAdd g d a b s
  | .sub g d a b => Sys2Proof.Machine.execSub g d a b s
  | .addi g d a imm => Sys2Proof.Machine.execAddi g d a imm s
  | .mul g d a b => Sys2Proof.Machine.execMul g d a b s
  | .mulhs g d a b => Sys2Proof.Machine.execMulhs g d a b s
  | .mulhu g d a b => Sys2Proof.Machine.execMulhu g d a b s
  | .divs g d a b => Sys2Proof.Machine.execDivs g d a b s
  | .divu g d a b => Sys2Proof.Machine.execDivu g d a b s
  | .rems g d a b => Sys2Proof.Machine.execRems g d a b s
  | .remu g d a b => Sys2Proof.Machine.execRemu g d a b s
  | .and g d a b => Sys2Proof.Machine.execAnd g d a b s
  | .or g d a b => Sys2Proof.Machine.execOr g d a b s
  | .xor g d a b => Sys2Proof.Machine.execXor g d a b s
  | .andi g d a imm => Sys2Proof.Machine.execAndi g d a imm s
  | .ori g d a imm => Sys2Proof.Machine.execOri g d a imm s
  | .xori g d a imm => Sys2Proof.Machine.execXori g d a imm s
  | .shl g d a b => Sys2Proof.Machine.execShl g d a b s
  | .shr g d a b => Sys2Proof.Machine.execShr g d a b s
  | .sar g d a b => Sys2Proof.Machine.execSar g d a b s
  | .shli g d a k => Sys2Proof.Machine.execShli g d a k s
  | .shri g d a k => Sys2Proof.Machine.execShri g d a k s
  | .sari g d a k => Sys2Proof.Machine.execSari g d a k s
  | .rotr g d a b => Sys2Proof.Machine.execRotr g d a b s
  | .clz g d a => Sys2Proof.Machine.execClz g d a s
  | .ctz g d a => Sys2Proof.Machine.execCtz g d a s
  | .popc g d a => Sys2Proof.Machine.execPopc g d a s
  | .mins g d a b => Sys2Proof.Machine.execMins g d a b s
  | .maxs g d a b => Sys2Proof.Machine.execMaxs g d a b s
  | .minu g d a b => Sys2Proof.Machine.execMinu g d a b s
  | .maxu g d a b => Sys2Proof.Machine.execMaxu g d a b s
  | .abs g d a => Sys2Proof.Machine.execAbs g d a s
  | .bfx g d a b x => Sys2Proof.Machine.execBfx g d a b x s
  | .bfi g d a b => Sys2Proof.Machine.execBfi g d a b s
  | .mov g d a => Sys2Proof.Machine.execMov g d a s
  | .movi g d imm => Sys2Proof.Machine.execMovi g d imm s
  | .movhi g d imm => Sys2Proof.Machine.execMovhi g d imm s
  | .sel g d a b p => Sys2Proof.Machine.execSel g d a b p s
  | .cmpeq g d a b => Sys2Proof.Machine.execCmpeq g d a b s
  | .cmpne g d a b => Sys2Proof.Machine.execCmpne g d a b s
  | .cmplt g d a b => Sys2Proof.Machine.execCmplt g d a b s
  | .cmple g d a b => Sys2Proof.Machine.execCmple g d a b s
  | .cmpltu g d a b => Sys2Proof.Machine.execCmpltu g d a b s
  | .cmpleu g d a b => Sys2Proof.Machine.execCmpleu g d a b s
  | .cmpeqi g d a imm => Sys2Proof.Machine.execCmpeqi g d a imm s
  | .cmplti g d a imm => Sys2Proof.Machine.execCmplti g d a imm s
  | .pand g d a b => Sys2Proof.Machine.execPand g d a b s
  | .por g d a b => Sys2Proof.Machine.execPor g d a b s
  | .pxor g d a b => Sys2Proof.Machine.execPxor g d a b s
  | .pnot g d a => Sys2Proof.Machine.execPnot g d a s
  | .pmov g d a => Sys2Proof.Machine.execPmov g d a s
  | .mfp g d a => Sys2Proof.Machine.execMfp g d a s
  | .ldb g d a imm => Sys2Proof.Machine.execLdb g d a imm s
  | .ldbu g d a imm => Sys2Proof.Machine.execLdbu g d a imm s
  | .ldh g d a imm => Sys2Proof.Machine.execLdh g d a imm s
  | .ldhu g d a imm => Sys2Proof.Machine.execLdhu g d a imm s
  | .ldw g d a imm => Sys2Proof.Machine.execLdw g d a imm s
  | .ldwu g d a imm => Sys2Proof.Machine.execLdwu g d a imm s
  | .ldd g d a imm => Sys2Proof.Machine.execLdd g d a imm s
  | .ldq g d a imm => Sys2Proof.Machine.execLdq g d a imm s
  | .stb g d a imm => Sys2Proof.Machine.execStb g d a imm s
  | .sth g d a imm => Sys2Proof.Machine.execSth g d a imm s
  | .stw g d a imm => Sys2Proof.Machine.execStw g d a imm s
  | .std g d a imm => Sys2Proof.Machine.execStd g d a imm s
  | .stq g d a imm => Sys2Proof.Machine.execStq g d a imm s
  | .pft g h a imm => Sys2Proof.Machine.execPft g h a imm s
  | .aadd g a b w => Sys2Proof.Machine.execAadd g a b w s
  | .amin g a b w => Sys2Proof.Machine.execAmin g a b w s
  | .amax g a b w => Sys2Proof.Machine.execAmax g a b w s
  | .aminu g a b w => Sys2Proof.Machine.execAminu g a b w s
  | .amaxu g a b w => Sys2Proof.Machine.execAmaxu g a b w s
  | .aand g a b w => Sys2Proof.Machine.execAand g a b w s
  | .aor g a b w => Sys2Proof.Machine.execAor g a b w s
  | .axor g a b w => Sys2Proof.Machine.execAxor g a b w s
  | .axchg g a b w => Sys2Proof.Machine.execAxchg g a b w s
  | .acas g d a b w => Sys2Proof.Machine.execAcas g d a b w s
  | .radd g a b w => Sys2Proof.Machine.execRadd g a b w s
  | .rmin g a b u w => Sys2Proof.Machine.execRmin g a b u w s
  | .rmax g a b u w => Sys2Proof.Machine.execRmax g a b u w s
  | .rand g a b w => Sys2Proof.Machine.execRand g a b w s
  | .ror g a b w => Sys2Proof.Machine.execRor g a b w s
  | .rxor g a b w => Sys2Proof.Machine.execRxor g a b w s
  | .popq g d => Sys2Proof.Machine.execPopq g d s
  | .rfadd g a b => Sys2Proof.Machine.execRfadd g a b s
  | .drain g sc fl => Sys2Proof.Machine.execDrain g sc fl s
  | .waita g a b w c => Sys2Proof.Machine.execWaita g a b w c s
  | .mtg g a k => Sys2Proof.Machine.execMtg g a k s
  | .mfg g d k => Sys2Proof.Machine.execMfg g d k s
  | .mfsr g d n => Sys2Proof.Machine.execMfsr g d n s
  | .vadd g d a b m w => Sys2Proof.Machine.execVadd g d a b m w s
  | .vsub g d a b m w => Sys2Proof.Machine.execVsub g d a b m w s
  | .vmul g d a b w => Sys2Proof.Machine.execVmul g d a b w s
  | .vmulh g d a b u w => Sys2Proof.Machine.execVmulh g d a b u w s
  | .vmac g d a b w => Sys2Proof.Machine.execVmac g d a b w s
  | .vmins g d a b w => Sys2Proof.Machine.execVmins g d a b w s
  | .vmaxs g d a b w => Sys2Proof.Machine.execVmaxs g d a b w s
  | .vminu g d a b w => Sys2Proof.Machine.execVminu g d a b w s
  | .vmaxu g d a b w => Sys2Proof.Machine.execVmaxu g d a b w s
  | .vabs g d a w => Sys2Proof.Machine.execVabs g d a w s
  | .vand g d a b => Sys2Proof.Machine.execVand g d a b s
  | .vor g d a b => Sys2Proof.Machine.execVor g d a b s
  | .vxor g d a b => Sys2Proof.Machine.execVxor g d a b s
  | .vshl g d a b w => Sys2Proof.Machine.execVshl g d a b w s
  | .vshr g d a b w => Sys2Proof.Machine.execVshr g d a b w s
  | .vsar g d a b w => Sys2Proof.Machine.execVsar g d a b w s
  | .vfshl g d a b k => Sys2Proof.Machine.execVfshl g d a b k s
  | .vfshr g d a b k => Sys2Proof.Machine.execVfshr g d a b k s
  | .vrot g d a b w => Sys2Proof.Machine.execVrot g d a b w s
  | .vpopc g d a w => Sys2Proof.Machine.execVpopc g d a w s
  | .vclz g d a w => Sys2Proof.Machine.execVclz g d a w s
  | .vshi g d a k w n => Sys2Proof.Machine.execVshi g d a k w n s
  | .vbcst g d a w => Sys2Proof.Machine.execVbcst g d a w s
  | .vtern g d a b t => Sys2Proof.Machine.execVtern g d a b t s
  | .vfadd g d a b r e => Sys2Proof.Machine.execVfadd g d a b r e s
  | .vfsub g d a b r e => Sys2Proof.Machine.execVfsub g d a b r e s
  | .vfmul g d a b r e => Sys2Proof.Machine.execVfmul g d a b r e s
  | .vfma g d a b r e => Sys2Proof.Machine.execVfma g d a b r e s
  | .vfmax g d a b e => Sys2Proof.Machine.execVfmax g d a b e s
  | .vfmin g d a b e => Sys2Proof.Machine.execVfmin g d a b e s
  | .vexp2 g d a => Sys2Proof.Machine.execVexp2 g d a s
  | .vrcp g d a => Sys2Proof.Machine.execVrcp g d a s
  | .vrsq g d a => Sys2Proof.Machine.execVrsq g d a s
  | .vfcmp g d a b c => Sys2Proof.Machine.execVfcmp g d a b c s
  | .vcvt g d a r c x p => Sys2Proof.Machine.execVcvt g d a r c x p s
  | .vcvts g d a c x p => Sys2Proof.Machine.execVcvts g d a c x p s
  | .vmxq g d a b q m e => Sys2Proof.Machine.execVmxq g d a b q m e s
  | .vmxd g d a b q e => Sys2Proof.Machine.execVmxd g d a b q e s
  | .vperm g d a b => Sys2Proof.Machine.execVperm g d a b s
  | .vslide g d a b k => Sys2Proof.Machine.execVslide g d a b k s
  | .vradd g d a => Sys2Proof.Machine.execVradd g d a s
  | .vrmax g d a u => Sys2Proof.Machine.execVrmax g d a u s
  | .vrfadd g d a => Sys2Proof.Machine.execVrfadd g d a s
  | .vrfmax g d a => Sys2Proof.Machine.execVrfmax g d a s
  | .vsel g d a b p => Sys2Proof.Machine.execVsel g d a b p s
  | .vmov g d a => Sys2Proof.Machine.execVmov g d a s
  | .vext g d a k => Sys2Proof.Machine.execVext g d a k s
  | .vins g d a k => Sys2Proof.Machine.execVins g d a k s
  | .vcmp g d a b c w => Sys2Proof.Machine.execVcmp g d a b c w s
  | .vmcnt g d a => Sys2Proof.Machine.execVmcnt g d a s
  | .vmfst g d a => Sys2Proof.Machine.execVmfst g d a s
  | .vld g d a imm => Sys2Proof.Machine.execVld g d a imm s
  | .vst g d a imm => Sys2Proof.Machine.execVst g d a imm s
  | .vlds g d a b => Sys2Proof.Machine.execVlds g d a b s
  | .vsts g d a b => Sys2Proof.Machine.execVsts g d a b s
  | .vldx g d a b c => Sys2Proof.Machine.execVldx g d a b c s
  | .vstx g d a b c => Sys2Proof.Machine.execVstx g d a b c s
  | .vldb g d a imm => Sys2Proof.Machine.execVldb g d a imm s
  | .mma g d z => Sys2Proof.Machine.execMma g d z s
  | .mmag g d z => Sys2Proof.Machine.execMmag g d z s
  | .zclr g d x y => Sys2Proof.Machine.execZclr g d x y s
  | .zld g d a b x y => Sys2Proof.Machine.execZld g d a b x y s
  | .zst g d a b x y => Sys2Proof.Machine.execZst g d a b x y s
  | .osm g d a => Sys2Proof.Machine.execOsm g d a s
  | .osmf g d => Sys2Proof.Machine.execOsmf g d s
  | .rbkt g d a m => Sys2Proof.Machine.execRbkt g d a m s
  | .rbias g d a b k => Sys2Proof.Machine.execRbias g d a b k s
  | .cpy g => Sys2Proof.Machine.execCpy g s
  | .cpy2 g => Sys2Proof.Machine.execCpy2 g s
  | .cpyg g => Sys2Proof.Machine.execCpyg g s
  | .cpyf g => Sys2Proof.Machine.execCpyf g s
  | .fmap g a q => Sys2Proof.Machine.execFmap g a q s
  | .fmapRel g a q => Sys2Proof.Machine.execFmapRel g a q s
  | .fmode g a m h q => Sys2Proof.Machine.execFmode g a m h q s
  | .fload g d a t h q => Sys2Proof.Machine.execFload g d a t h q s
  | .fswap g a q => Sys2Proof.Machine.execFswap g a q s
  | .fgo g => Sys2Proof.Machine.execFgo g s
  | .fstat g d a q => Sys2Proof.Machine.execFstat g d a q s
  | .fremap g a => Sys2Proof.Machine.execFremap g a s
  | .sqnew g a => Sys2Proof.Machine.execSqnew g a s
  | .sqnewReg g a b => Sys2Proof.Machine.execSqnewReg g a b s
  | .sqrsv g a b => Sys2Proof.Machine.execSqrsv g a b s
  | .sqcmt g d a b c => Sys2Proof.Machine.execSqcmt g d a b c s
  | .sqabn g d a b => Sys2Proof.Machine.execSqabn g d a b s
  | .sqfork g d a b => Sys2Proof.Machine.execSqfork g d a b s
  | .sqdrop g a => Sys2Proof.Machine.execSqdrop g a s
  | .sqlen g a => Sys2Proof.Machine.execSqlen g a s
  | .sqpos g d a b x w => Sys2Proof.Machine.execSqpos g d a b x w s
  | .sqsplc g d a b => Sys2Proof.Machine.execSqsplc g d a b s
  | .rprchk g a => Sys2Proof.Machine.execRprchk g a s
  | .rprins g a => Sys2Proof.Machine.execRprins g a s
  | .rprstat g a c => Sys2Proof.Machine.execRprstat g a c s
  | .cred g r => Sys2Proof.Machine.execCred g r s
  | .cbcst g => Sys2Proof.Machine.execCbcst g s
  | .cagth g => Sys2Proof.Machine.execCagth g s
  | .ca2a g => Sys2Proof.Machine.execCa2a g s
  | .rbseed g a b => Sys2Proof.Machine.execRbseed g a b s
  | .rbctr g a b => Sys2Proof.Machine.execRbctr g a b s
  | .rbrd g d => Sys2Proof.Machine.execRbrd g d s
  | .assay g q nmu seed dig => Sys2Proof.Machine.execAssay g q nmu seed dig s
  | .bara g twr k => Sys2Proof.Machine.execBara g twr k s
  | .barw g twr k => Sys2Proof.Machine.execBarw g twr k s
  | .bacq g a p m => Sys2Proof.Machine.execBacq g a p m s
  | .brel g a p m => Sys2Proof.Machine.execBrel g a p m s
  | .plaunch g a => Sys2Proof.Machine.execPlaunch g a s
  | .chenq g a c => Sys2Proof.Machine.execChenq g a c s
  | .chdeq g a c => Sys2Proof.Machine.execChdeq g a c s
  | .csrr g d n => Sys2Proof.Machine.execCsrr g d n s
  | .csrw g a n => Sys2Proof.Machine.execCsrw g a n s
  | .tlbi g a x => Sys2Proof.Machine.execTlbi g a x s
  | .tlbsync g => Sys2Proof.Machine.execTlbsync g s
  | .dcfl g a => Sys2Proof.Machine.execDcfl g a s
  | .dcinv g a => Sys2Proof.Machine.execDcinv g a s
  | .l2fl g a => Sys2Proof.Machine.execL2fl g a s
  | .mscfl g a => Sys2Proof.Machine.execMscfl g a s
  | .ctxsv g a b => Sys2Proof.Machine.execCtxsv g a b s
  | .ctxld g a b => Sys2Proof.Machine.execCtxld g a b s
  | .sstep g a m => Sys2Proof.Machine.execSstep g a m s
  | .migr g a b => Sys2Proof.Machine.execMigr g a b s
  | .promo g a b => Sys2Proof.Machine.execPromo g a b s
  | .nmuOperationComplete => Sys2Proof.Machine.execNmuOperationComplete s
  | .gangStart => Sys2Proof.Machine.execGangStart s
  | .copyCommandStart => Sys2Proof.Machine.execCopyCommandStart s
  | .copyCommandComplete => Sys2Proof.Machine.execCopyCommandComplete s
  | .engineCommandFault => Sys2Proof.Machine.execEngineCommandFault s
  | .fmapArrival => Sys2Proof.Machine.execFmapArrival s
  | .fmodePerform => Sys2Proof.Machine.execFmodePerform s
  | .fswapPerform => Sys2Proof.Machine.execFswapPerform s
  | .plotReleasePerform => Sys2Proof.Machine.execPlotReleasePerform s
  | .reloadStart => Sys2Proof.Machine.execReloadStart s
  | .reloadFault => Sys2Proof.Machine.execReloadFault s
  | .reloadComplete => Sys2Proof.Machine.execReloadComplete s
  | .nestStart => Sys2Proof.Machine.execNestStart s
  | .nestStep => Sys2Proof.Machine.execNestStep s
  | .collectorApply => Sys2Proof.Machine.execCollectorApply s
  | .nestComplete => Sys2Proof.Machine.execNestComplete s
  | .storageViewArrival => Sys2Proof.Machine.execStorageViewArrival s
  | .rowCheck => Sys2Proof.Machine.execRowCheck s
  | .rowRefetchComplete => Sys2Proof.Machine.execRowRefetchComplete s
  | .ptcInvalidation => Sys2Proof.Machine.execPtcInvalidation s
  | .collectiveArrival => Sys2Proof.Machine.execCollectiveArrival s
  | .collectiveComplete => Sys2Proof.Machine.execCollectiveComplete s
  | .assayOutcome => Sys2Proof.Machine.execAssayOutcome s
  | .barrierArrival => Sys2Proof.Machine.execBarrierArrival s
  | .bankAcquireEffect => Sys2Proof.Machine.execBankAcquireEffect s
  | .bankReleaseEffect => Sys2Proof.Machine.execBankReleaseEffect s
  | .manifestRead => Sys2Proof.Machine.execManifestRead s
  | .channelEntryAvailable => Sys2Proof.Machine.execChannelEntryAvailable s
  | .tableWalk => Sys2Proof.Machine.execTableWalk s
  | .remoteLoadLanding => Sys2Proof.Machine.execRemoteLoadLanding s
  | .remoteAccessPerform => Sys2Proof.Machine.execRemoteAccessPerform s
  | .invalidationApply => Sys2Proof.Machine.execInvalidationApply s
  | .inboundInvalidationReceive => Sys2Proof.Machine.execInboundInvalidationReceive s
  | .inboundInvalidationApply => Sys2Proof.Machine.execInboundInvalidationApply s
  | .alqValueArrival => Sys2Proof.Machine.execAlqValueArrival s
  | .alqFaultCapture => Sys2Proof.Machine.execAlqFaultCapture s
  | .monitorReread => Sys2Proof.Machine.execMonitorReread s
  | .monitorTimeoutRead => Sys2Proof.Machine.execMonitorTimeoutRead s
  | .forcedYield => Sys2Proof.Machine.execForcedYield s
  | .strandRankAging => Sys2Proof.Machine.execStrandRankAging s
  | .trapEntry => Sys2Proof.Machine.execTrapEntry s
  | .dispatcherTick => Sys2Proof.Machine.execDispatcherTick s
  | .taskImageArrival => Sys2Proof.Machine.execTaskImageArrival s
  | .shadowBankSwap => Sys2Proof.Machine.execShadowBankSwap s
  | .swapEnd => Sys2Proof.Machine.execSwapEnd s
  | .spillComplete => Sys2Proof.Machine.execSpillComplete s
  | .reinstatementComplete => Sys2Proof.Machine.execReinstatementComplete s
  | .pipelineDone => Sys2Proof.Machine.execPipelineDone s
  | .pipelineKill => Sys2Proof.Machine.execPipelineKill s
  | .dspholdRelease => Sys2Proof.Machine.execDspholdRelease s
  | .barrierTargetWrite => Sys2Proof.Machine.execBarrierTargetWrite s
  | .bheldWrite => Sys2Proof.Machine.execBheldWrite s
  | .bholdWrite => Sys2Proof.Machine.execBholdWrite s
  | .hcommitGo => Sys2Proof.Machine.execHcommitGo s
  | .hashCommitComplete => Sys2Proof.Machine.execHashCommitComplete s
  | .rtrctlEnable => Sys2Proof.Machine.execRtrctlEnable s
  | .rtrctlDisable => Sys2Proof.Machine.execRtrctlDisable s
  | .redirectActive => Sys2Proof.Machine.execRedirectActive s
  | .redirectReleased => Sys2Proof.Machine.execRedirectReleased s
  | .quarantineClear => Sys2Proof.Machine.execQuarantineClear s
  | .plotOwnedRelease => Sys2Proof.Machine.execPlotOwnedRelease s
  | .msigenWrite => Sys2Proof.Machine.execMsigenWrite s
  | .msixUnmask => Sys2Proof.Machine.execMsixUnmask s
  | .attestCert => Sys2Proof.Machine.execAttestCert s
  | .attestReport => Sys2Proof.Machine.execAttestReport s
  | .attestComplete => Sys2Proof.Machine.execAttestComplete s
  | .registerWrite => Sys2Proof.Machine.execRegisterWrite s
  | .hostPostedWrite => Sys2Proof.Machine.execHostPostedWrite s
  | .hostRead => Sys2Proof.Machine.execHostRead s
  | .atsTranslationCompletion => Sys2Proof.Machine.execAtsTranslationCompletion s
  | .atsInvalidationRequest => Sys2Proof.Machine.execAtsInvalidationRequest s
  | .pageRequestReply => Sys2Proof.Machine.execPageRequestReply s
  | .pageRequestTimeout => Sys2Proof.Machine.execPageRequestTimeout s
  | .scrubVisit => Sys2Proof.Machine.execScrubVisit s
  | .thermalForecastUpdate => Sys2Proof.Machine.execThermalForecastUpdate s
  | .slayerFlushComplete => Sys2Proof.Machine.execSlayerFlushComplete s
  | .slayerCutoff => Sys2Proof.Machine.execSlayerCutoff s
  | .towerFence => Sys2Proof.Machine.execTowerFence s
  | .droopStretch => Sys2Proof.Machine.execDroopStretch s
  | .currentPeakStretch => Sys2Proof.Machine.execCurrentPeakStretch s
  | .powerControlUpdate => Sys2Proof.Machine.execPowerControlUpdate s
  | .moduleReset => Sys2Proof.Machine.execModuleReset s
  | .portReset => Sys2Proof.Machine.execPortReset s
  | .selfHeatingTimeout => Sys2Proof.Machine.execSelfHeatingTimeout s
  | .alctlEnable => Sys2Proof.Machine.execAlctlEnable s
  | .alctlDisable => Sys2Proof.Machine.execAlctlDisable s
  | .linkUp => Sys2Proof.Machine.execLinkUp s
  | .linkDown => Sys2Proof.Machine.execLinkDown s
  | .linkFlitReceive => Sys2Proof.Machine.execLinkFlitReceive s
  | .sequenceUnitOperation => Sys2Proof.Machine.execSequenceUnitOperation s
  | .vslBelowRetention => Sys2Proof.Machine.execVslBelowRetention s
  | .railDroopEnd => Sys2Proof.Machine.execRailDroopEnd s
  | .selfHeatingComplete => Sys2Proof.Machine.execSelfHeatingComplete s

end Sys2Proof.Machine
end

