-- ==== Sys2Proof/Machine/Bundle.lean ====
section
/-! DEFINITION. One bundle of the running strand: the boundary before it (R116, R160, R192, R211), its fetch and checks (R88, R192,
R234, R239 to R245), its slots together (R112, R240), and its end (R158 to R160, R210). -/

namespace Sys2Proof.Machine

/-! ## What a turn of a core did (for its counters, R432) -/

/-- How a turn ended. -/
inductive Turn where
  /-- The core has no bundle to issue. -/
  | idle
  | yielded
  | trapped
  /-- A bundle took effect. -/
  | issued
  /-- A bundle was skipped at no cost, or as a no-op of one cycle. -/
  | skipped
  | noop
  /-- The strand blocked and the core switched. -/
  | switched
  /-- Issue was frozen: by the group interlock, the scoreboard, a drain, or another cause. -/
  | interlock
  | scoreboard
  | draining
  | waiting
  deriving DecidableEq, Repr, Inhabited

/-! ## Fetch and decode (R88, R234, R239, R256) -/

/-- The end of a fetch: the bundle's bits; or the state after a trap; or a wait that freezes issue; or one that lets the core switch. -/
inductive Fetch where
  | bits (b : BitVec 128) (s : State)
  | stop (s : State)
  | hold (s : State)
  | sleep (s : State)
  deriving DecidableEq, Repr

/-- An issue trap of a fetch (R234). -/
def State.fetchTrap (s : State) (cause : BitVec 8) (pc : Word) : State := s.trapAt .x cause pc (finfo 3 16)

/-- Where the agents' image holds the bundle at pc for the running strand, its bytes: the agent and the shipped trap handler run from the image that
firmware verified, which no store reaches (R421, R447, log 19). -/
def State.imageBytes (s : State) (pc : Word) : Option (List Byte) :=
  if s.agentRun && (s.ctx.agent || (s.ctx.r.deep && s.reg (oTVEC (twrOf s.here)) == (Config.handlerEntry &&& ~~~0xf#64))) then
    let img := Config.agentImage s.agentNo
    let o := pc.toNat - (Config.agentEntry &&& ~~~0xf#64).toNat
    if (Config.agentEntry &&& ~~~0xf#64).toNat ≤ pc.toNat ∧ o + 16 ≤ img.length then some ((img.drop o).take 16) else none
  else none

/-- 16 bytes read for the running strand as instructions (R69, R88, R233, R234, R256). What holds a load holds the fetch (R93, R102); a page request
lets the core switch, and its refusal is a trap (R98). -/
def State.fetchAt (s : State) (pc : Word) : Fetch :=
  if pc.toNat % 16 ≠ 0 then .stop (s.fetchTrap cALIGN pc)
  else match s.imageBytes pc with
  | some bs => .bits (BitVec.ofNat 128 (bytesToNat bs)) s
  | none =>
  if fixedBase ≤ pc.toNat then .stop (s.fetchTrap cPROT pc)
  else match translate s (.core s.here) pc.toNat s.ctx.r.sup .fetch with
    | (t, .fault c) => .stop (t.fetchTrap c pc)
    | (t, .busy) => .hold t
    | (t, .ask) =>
      let u := t.sleepHere pc (fun k => k.fetchTrap cPAGE pc) id
      if u.ctx.asks = 0#64 then .stop u else .sleep u
    | (t, .ok l nc) =>
      if t.piecesWait t.strand t.here false [(l, 16, nc)] then .hold t
      else
        let u := t.noteLinks t.here [(l, 16, nc)]
        if u.poisonedAt l 16 || u.isFenced l then .stop (u.consume .x 6 pc (finfo 3 16))
        else if u.badCrcAt l 16 then .stop (u.failCrc .x pc (finfo 3 16) (u.crcSynd l))
        else
          let bs := if isHbm l then u.bytesAt l 16 else u.bytesFor u.here l 16
          .bits (BitVec.ofNat 128 (bytesToNat bs)) (if nc then u.sectorReads l 16 true else u.fillICache u.here (lineOf l))

/-- The bundle at the program counter: the next of those fetched ahead, whose bytes may be old, or read now (R69, log 59). -/
def State.fetch (s : State) : Fetch :=
  match s.ctx.ahead with
  | (pc, b) :: t => if pc = s.ctx.r.pc then .bits b (s.withCtx fun c => { c with ahead := t }) else (s.withCtx fun c => { c with ahead := [] }).fetchAt s.ctx.r.pc
  | [] => s.fetchAt s.ctx.r.pc

/-- The running strand's core fetches bundles ahead of issue until n of them wait, while nothing stops or holds a fetch (R69, log 59). -/
def State.fetchAhead (s : State) : Nat → State
  | 0 => s
  | n + 1 =>
    let t := s.fetchAhead n
    if t.ctx.ahead.length != n || t.ctx.ahead.any (fun q => q.1.toNat < t.ctx.r.pc.toNat) then t
    else
      let pc := t.ctx.r.pc + BitVec.ofNat 64 (16 * n)
      match t.fetchAt pc with
      | .bits b u => u.withCtx fun c => { c with ahead := c.ahead ++ [(pc, b)] }
      | _ => t

/-- The slots of a bundle in position order. -/
def slotsOf (b : Bundle) : List (Pos × Slot) := [(.x, b.x), (.s, b.s), (.v, b.v), (.e, b.e)]

/-- The slots of 128 bits that decode, each on its own, up to the first that does not: a bundle with such a slot traps ILL there; an
ERET beside anything else, at the first slot that is not a NOP (R192, R239, R249, R269). -/
def illPrefix (b : BitVec 128) : List (Pos × Slot) :=
  let we := b.extractLsb' 96 32
  match decodeSlot .x none (b.extractLsb' 0 32) with
  | none => []
  | some (ix, sx) =>
    let H : Option (BitVec 24) := match ix with
      | .hdr h => some h
      | _ => none
    let Hm : Option (BitVec 24) := if we.extractLsb' 20 7 == 0x3b#7 then none else H
    let alone := fun (i : Instr) => ix.isEret && !i.isNop
    match decodeSlot .s Hm (b.extractLsb' 32 32) with
    | none => [(.x, ⟨ix, sx⟩)]
    | some (is, ss) =>
      if alone is then [(.x, ⟨ix, sx⟩)]
      else match decodeSlot .v Hm (b.extractLsb' 64 32) with
        | none => [(.x, ⟨ix, sx⟩), (.s, ⟨is, ss⟩)]
        | some (iv, sv) =>
          if alone iv then [(.x, ⟨ix, sx⟩), (.s, ⟨is, ss⟩)]
          else [(.x, ⟨ix, sx⟩), (.s, ⟨is, ss⟩), (.v, ⟨iv, sv⟩)]

/-! ## The group rules (R240, R241) -/

/-- Two lists of registers meet. -/
def meets (a b : List Reg) : Bool := a.any fun x => b.any fun y => x == y

/-- The first PRIV or GRP of the slots, in position order: grp holds what earlier bundles of the open group wrote, cur what earlier
slots of this bundle in it wrote (R192, R241, R244). -/
def encodingTrap (sup : Bool) : List (Pos × Slot) → List Reg → List Reg → Option (Pos × BitVec 8)
  | [], _, _ => none
  | (p, k) :: t, grp, cur =>
    let n := namesOf k.i
    if supOnly k.i && !sup then some (p, cPRIV)
    else if meets grp n.1 || meets (grp ++ cur) n.2 then some (p, cGRP)
    else if k.stop then encodingTrap sup t [] []
    else encodingTrap sup t grp (cur ++ n.2)

/-- What the open group has written after the bundle (R240, R241). -/
def groupAfter : List (Pos × Slot) → List Reg → List Reg
  | [], grp => grp
  | (_, k) :: t, grp => groupAfter t (if k.stop then [] else grp ++ (namesOf k.i).2)

/-- The trap of a bundle's encoding and privilege, at the lowest faulting slot (R192, R239, R241, R244, R249). -/
def State.bundleTrap (s : State) (w : BitVec 128) : Option (Pos × BitVec 8) :=
  match decodeBundle w with
  | some b => encodingTrap s.ctx.r.sup (slotsOf b) s.ctx.grp []
  | none =>
    let l := illPrefix w
    match encodingTrap s.ctx.r.sup l s.ctx.grp [] with
    | some c => some c
    | none => some ((match l.length with
        | 0 => .x
        | 1 => .s
        | 2 => .v
        | _ => .e), cILL)

/-- The slots of 128 bits that have a place in a bundle: all of it, or those up to the first that does not decode. -/
def legalSlots (w : BitVec 128) : List (Pos × Slot) :=
  match decodeBundle w with
  | some b => slotsOf b
  | none => illPrefix w

/-! ## The group interlock (R242) -/

/-- The tiles that an operation writes; a ZST only reads its tile (R242). -/
def tilesWritten : Instr → List (BitVec 2)
  | .zst _ _ _ _ _ _ => []
  | i => tilesOf i

/-- The destinations of the variable-latency results that a strand awaits: all of them, or those of earlier groups only. -/
def State.awaited (s : State) (all : Bool) : List Reg :=
  (s.ctx.flight.flatMap fun a => if isLoadInstr a.i && !a.flt && (all || a.old) then writesOf a.i else []) ++
  (s.core.nmuq.flatMap fun q => if s.ownOp q.x q.tag && (all || q.old) then (tilesWritten q.i).map Reg.z else [])

/-- A slot names a destination that its group waits for; slots after a stop of the bundle belong to a later group (R240, R242). -/
def State.interlocked (s : State) : List (Pos × Slot) → Bool → Bool
  | [], _ => false
  | (_, k) :: t, all =>
    let n := namesOf k.i
    meets (s.awaited all) (n.1 ++ n.2) || s.interlocked t (all || k.stop)

/-- What a look at a later bundle of the group finds (R241). -/
inductive Look where
  | is (b : Bundle)
  /-- Its fetch or its decoding traps: the group ends before it. -/
  | trap
  /-- Its bytes cannot be read yet. -/
  | waits
  deriving DecidableEq, Repr

/-- The decoding of a later bundle. -/
def lookAt (w : BitVec 128) : Look :=
  match decodeBundle w with
  | some b => .is b
  | none => .trap

/-- The bundle at an address of the group, decoded ahead (R241). -/
def State.decodeAhead (s : State) (pc : Word) : Look :=
  match s.ctx.ahead.find? fun q => q.1 == pc with
  | some q => lookAt q.2
  | none =>
    match s.fetchAt pc with
    | .bits b _ => lookAt b
    | .stop _ => .trap
    | _ => .waits

/-- The slots of a bundle that belong to the group open before it. -/
def upToStop (b : Bundle) : List (Pos × Slot) :=
  let l := slotsOf b
  l.take ((l.takeWhile fun q => !q.2.stop).length + 1)

/-- A later slot of the group that a bundle's last slots leave open names a destination that the group waits for: from the next bundle at pc to
the group's first stop, to a bundle that always transfers control or whose fetch traps, or to the end of the paged region, n bundles
on; a bundle whose bytes have to be waited for may name any (R240 to R242, log 15). all says that a stop of the bundle lies before them. -/
def State.groupNames (s : State) (all : Bool) : Nat → Bundle → Word → Bool
  | 0, _, _ => false
  | n + 1, b, pc =>
    if b.e.stop || alwaysLeaves b.x.i then false
    else match s.decodeAhead pc with
      | .trap => false
      | .waits => true
      | .is c => s.interlocked (upToStop c) all || (!(slotsOf c).any (·.2.stop) && s.groupNames all n c (pc + 16#64))

/-- Bundles from an address to the end of the paged region. -/
def bundlesAhead (pc : Word) : Nat := (fixedBase - pc.toNat) / 16

/-- Issue is frozen before the bundle: a variable-latency result of an earlier group has not landed, and a slot of a group that the
bundle belongs to names its destination (R242). -/
def State.interlock (s : State) (b : Bundle) : Bool :=
  if (s.awaited true).isEmpty then false
  else
    let pc := s.ctx.r.pc + 16#64
    s.interlocked (slotsOf b) false ||
      (!(s.awaited ((slotsOf b).any (·.2.stop))).isEmpty && s.groupNames ((slotsOf b).any (·.2.stop)) (bundlesAhead pc) b pc)

/-! ## The nullifier (R245) -/

/-- A slot's guard is false. -/
def State.guardFalse (s : State) (p : Pos) (i : Instr) : Bool :=
  match i.guard with
  | none => false
  | some g => if p = .v then s.pr g == 0#32 else !s.on g

/-- The bundle is skipped: it has a slot that is neither a header nor a NOP, and every such slot's guard is false (R245). -/
def State.nullified (s : State) (l : List (Pos × Slot)) : Bool :=
  let real := l.filter fun q => q.2.i.guard.isSome
  !real.isEmpty && real.all fun q => s.guardFalse q.1 q.2.i

/-- The skipped bundle takes no cycle of its own: the last write of each of its guard predicates landed at least 3 bundles before it (R245). -/
def State.skipsFree (s : State) (l : List (Pos × Slot)) : Bool :=
  l.all fun q => match q.2.i.guard with
    | none => true
    | some g => (findKey s.ctx.pland g.toNat).all fun bc => decide (3 ≤ (s.ctx.r.bc - bc).toNat)

/-! ## The slots (R112, R191, R240) -/

/-- The state after an instruction's meaning; every meaning answers a next state. -/
def State.after (s : State) (i : Instr) : State :=
  match exec i s with
  | .next t => t
  | _ => s

/-- The order in which the slots of a bundle act: reads of memory before stores, stores in position order, engine operations after
both, and control last (R112, log 15). -/
def slotOrder (b : Bundle) : List Slot :=
  let vload := isLoadInstr b.v.i
  let csr := match b.e.i with
    | .csrr _ _ _ => true
    | _ => false
  let first := if csr then [b.e] else []
  let last := if csr then [] else [b.e]
  first ++ (if vload then [b.v, b.s] else [b.s, b.v]) ++ last ++ [b.x]

/-- The first slot in position order whose meaning, on the state before the bundle, ends in the phase (log 15). -/
def State.firstSlot (s : State) (b : Bundle) (p : Phase) : Option State :=
  ((slotsOf b).map fun q => s.after q.2.i).find? fun t => t.ctx.phase == p

/-- The first of some slots whose meaning, on the state before the bundle, traps or waits for the frame of its trap (R102, R191, R193). -/
def State.firstTrap (s : State) (l : List (Pos × Slot)) : Option State :=
  (l.map fun q => s.after q.2.i).find? fun t => t.ctx.phase == .issueTrap || t.ctx.phase == .entering

/-- A freeze's counter source by the slot that froze (R432). -/
def freezeKind (i : Instr) : Turn :=
  match i with
  | .bara _ _ _ => .draining
  | .rdv _ _ _ => .draining
  | .sqcmt _ _ _ _ _ => .draining
  | .chenq _ _ _ => .draining
  | i => if isLoadInstr i || accessWidth i ≠ 8 then .scoreboard else match i with
    | .std _ _ _ _ => .scoreboard
    | _ => .waiting

/-- The kind of the first freeze of a bundle. -/
def State.freezeOf (s : State) (b : Bundle) : Turn :=
  match (slotsOf b).find? fun q => (s.after q.2.i).ctx.phase == .frozen with
  | some q => freezeKind q.2.i
  | none => .waiting

/-- The slots one after another while the bundle goes on. -/
def State.runSlots (s : State) : List Slot → State
  | [] => s
  | k :: t =>
    let u := s.after k.i
    if u.ctx.phase = .normal then u.runSlots t else u

/-- The boundary after a bundle that took effect: the group rules, and the SSTEP trap (R210, R240 to R242). -/
def State.afterBundle (s old : State) (b : Bundle) (skip : Bool) : State :=
  let bc := old.ctx.r.bc
  let stopped := (slotsOf b).any (·.2.stop)
  let upTo := ((slotsOf b).filter (·.2.stop)).foldl (fun (m : Nat) q => max m (posNum q.1)) 0
  let ends := fun (q : NmuOp) =>
    if s.ownOp q.x q.tag && (decide (2 ≤ upTo) || decide (q.id ≤ old.uid)) then { q with old := true } else q
  let t := if stopped then
      { s with
        ctx := { s.ctx with flight := s.ctx.flight.map fun (a : Access) =>
          if a.bc != bc || decide (posNum a.pos ≤ upTo) then { a with old := true } else a }
        core := { s.core with nmuq := s.core.nmuq.map ends } }
    else s
  (t.withCtx fun c => { c with grp := if c.r.pc = old.ctx.r.pc + 16#64 then groupAfter (slotsOf b) old.ctx.grp else [] }).stepDue skip

/-- A DRAIN of the bundle closes the batch of held stores, those of its own bundle among them (R116, R127). -/
def State.closeBatch (s : State) : State :=
  if s.ctx.markDue then
    s.withCtx fun c => { c with
      markDue := false
      seg := c.seg.map fun g => if g.held.isEmpty then g else { g with held := g.held ++ [.marker] } }
  else s

/-- How a turn that took a trap ended: the handler is next, or the trap still waits for a page of its frame, with a freeze or, where the host is
asked for it, with a switch (R93, R98, R102, R193). -/
def State.entered (s : State) : State × Turn :=
  if s.ctx.phase = .entering then
    (s.withCtx fun c => { c with phase := .normal }, if s.ctx.asks.toNat % 16 = 1 then .switched else .waiting)
  else (s, .trapped)

/-- The bundle's slots act together, or none of them does: the lowest issue trap, an open segment that has to close, a block, a freeze,
and otherwise every effect and the boundary (R112, R144, R157, R191, log 15). -/
def State.issue (s0 : State) (b : Bundle) : State × Turn :=
  match s0.firstTrap (slotsOf b) with
  | some t => t.entered
  | none =>
    let closes := s0.inSeg && (slotsOf b).any fun q => closesSeg q.2.i && !s0.guardFalse q.1 q.2.i
    let c := if closes then s0.closeSeg else (s0, true)
    if !c.2 then (if c.1.ctx.phase = .frozen then (c.1, .waiting) else c.1.entered)
    else
      let s := c.1
      match s.firstTrap (slotsOf b), s.firstSlot b .left, s.firstSlot b .blocked, s.firstSlot b .frozen with
      | some t, _, _, _ => t.entered
      | none, some t, none, none =>
        let u := s.runSlots (slotOrder b)
        (if u.ctx.phase = .left then u else t, .issued)
      | none, _, some t, _ => (t, .switched)
      | none, _, none, some t => (t, s.freezeOf b)
      | none, none, none, none =>
        let old := s.ctx.r
        let t := s.runSlots (slotOrder b)
        match t.ctx.phase with
        | .normal => ((finishBundle old t.closeBatch).afterBundle s b false, .issued)
        | .done =>
          (match b.x.i with
            | .seg _ _ _ => t.closeBatch.afterBundle s b false
            | _ => t.closeBatch, .issued)
        | .left => (t, .issued)
        | .issueTrap => (t, .trapped)
        | .entering => t.entered
        | .blocked => (s.block, .switched)
        | .frozen => (s.freeze, s.freezeOf b)

/-- A skipped bundle (R245). -/
def State.skip (s : State) (b : Bundle) : State :=
  (finishBundle s.ctx.r s).afterBundle s b true

/-- The bundle at the program counter, tried: the traps of its encoding and of its operands at the lowest faulting slot, the interlock, the nullifier,
and its slots (R157, R191, R192, R239 to R245). -/
def State.tryBundle (s : State) : State × Turn :=
  match s.fetch with
  | .stop t => t.entered
  | .hold t => (t.freeze, .waiting)
  | .sleep t => (t.block, .switched)
  | .bits w t0 =>
    let t := t0.withCtx fun c => { c with stepId := t0.uid }
    match t.bundleTrap w with
    | some c =>
      let lower := (legalSlots w).filter fun q => decide (posNum q.1 < posNum c.1)
      if t.interlocked lower false then (t.freeze, .interlock)
      else ((t.firstTrap lower).getD (t.trapAt c.1 c.2 0#64 0#64)).entered
    | none =>
      match decodeBundle w with
      | none => (t, .waiting)
      | some b =>
        if t.interlock b then (t.freeze, .interlock)
        else if t.nullified (slotsOf b) then (t.skip b, if t.skipsFree (slotsOf b) then .skipped else .noop)
        else t.issue b

/-- A turn that leaves the bundle for another try keeps what was fetched ahead. -/
def State.keepAhead (s : State) (r : State × Turn) : State × Turn :=
  match r.2 with
  | .issued => r
  | .skipped => r
  | .noop => r
  | .trapped => r
  | u => (r.1.withCtx fun c => { c with ahead := s.ctx.ahead }, u)

/-! ## The boundary before a bundle -/

/-- The joins of the bundle last tried have all happened: its variable-latency results, the ALQ values that it reserved, its engine operations and
its drain (R211). -/
def State.quiet (s : State) : Bool :=
  let new := fun (id : Nat) => decide (s.ctx.stepId < id)
  !s.ctx.flight.any (fun a => new a.id && (isLoadInstr a.i || isAtomicInstr a.i)) &&
  s.ctx.r.alq.all (fun e => e.valid || !new e.id) && !s.ctx.eq.any (fun c => new c.id) &&
  !s.core.nmuq.any (fun q => s.ownOp q.x q.tag && new q.id) &&
  !s.core.nests.any (fun n => s.ownOp n.x n.tag && new n.id) && !s.ctx.assays.any (fun a => new a.id) &&
  s.drained s.ctx.drn s.ctx.drnScope

/-- The trap due at the boundary waits for the joins of a stepped bundle (R211). -/
def State.stepWaits (s : State) : Bool :=
  match s.ctx.firstDue with
  | some t => t.cause == cSSTEP && s.ctx.r.ssq && !s.quiet
  | none => false

/-- The running strand at its boundary and, where nothing stands before it, its bundle: an assay holds it (R412), then come the traps that are due
(R192, R211), a drain (R116), what earlier bundles left (R143, R146), and a yield point (R160). can names blocked strands whose cause has cleared. -/
def State.boundaryWith (s : State) (can : Nat → Bool) : State × Turn :=
  if !s.ctx.assays.isEmpty then (s, .waiting)
  else if s.stepWaits then (s, .waiting)
  else if s.ctx.firstDue.isSome then s.takeDue.entered
  else if s.ctx.drn != 0#3 && !s.drained s.ctx.drn s.ctx.drnScope then (s, .draining)
  else
    let u := (s.acquire s.ctx.drn).withCtx fun c => { c with drn := 0#3, drnScope := 0 }
    match u.runPost u.ctx.post with
    | (t, some .blocked) => (t.block, .switched)
    | (t, some _) => (t.freeze, if t.ctx.drn = 0#3 then .waiting else .draining)
    | (t, none) =>
      match t.ctx.yreq with
      | some n => (t.yieldPoint can n, .yielded)
      | none => if t.ctx.flight.any (·.sleep) then (t.block, .switched) else t.keepAhead t.tryBundle

/-- A blocked context's strand would go on if it had issue now, so that its cause has cleared and it is ready (R158, R161, R162). -/
def State.wouldIssue (s : State) (X : Nat) : Bool :=
  let t := (s.turnTo s.here (BitVec.ofNat 2 X)).withCtx fun c => { c with phase := .normal }
  (t.boundaryWith fun _ => false).2 != .switched

/-- The boundary of the running strand. -/
def State.boundary (s : State) : State × Turn := s.boundaryWith s.wouldIssue

/-- A cycle held by the strand leaves its remaining run; when none is left before its next YIELD, its next boundary is a yield point with a run of
YBUD (R160). -/
def State.hold (s : State) : State :=
  let r := s.ctx.r.run - (if s.ctx.r.run = 0#32 then 0#32 else 1#32)
  (s.withRegs fun k => { k with run := r }).withCtx Ctx.forceYield

/-- What the core does after the turn (R158 to R160). -/
def State.settleTurn (s : State) (u : Turn) : State :=
  match u with
  | .switched => (s.withCtx fun c => { c with st := if c.st = .running then .blocked else c.st, phase := .normal }).switch
  | .issued => if s.ctx.phase = .left then s else (s.withCtx fun c => { c with phase := .normal }).hold
  | .noop => (s.withCtx fun c => { c with phase := .normal }).hold
  | .interlock => (s.withCtx fun c => { c with phase := .normal }).hold
  | .scoreboard => (s.withCtx fun c => { c with phase := .normal }).hold
  | .draining => (s.withCtx fun c => { c with phase := .normal }).hold
  | .waiting => (s.withCtx fun c => { c with phase := .normal }).hold
  | _ => if s.ctx.phase = .left then s else s.withCtx fun c => { c with phase := .normal }

/-- The blocked strands of the core whose cause has cleared are ready from now on (R158, R162). -/
def State.wakeReady (s : State) : State :=
  [0, 1, 2, 3].foldl (fun (t : State) X =>
    match findKey t.ctxs (4 * t.here + X) with
    | none => t
    | some c => if c.st = .blocked && !c.gone && t.wouldIssue X then { t with ctxs := putKey t.ctxs (4 * t.here + X) (c.wake (t.cycAt (4 * t.here))) } else t) s

/-- One turn of the core whose turn it is, which first fetches up to n bundles ahead: its running strand's boundary and bundle, or another strand in
rotation, or nothing (R69, R156, R158). -/
def State.coreTurn (s0 : State) (n : Nat) : State × Turn :=
  let s := s0.wakeReady
  if s.ctx.st != .stopped && s.ctx.canRun then
    let r := ((s.withCtx fun c => { c with st := .running, phase := .normal }).fetchAhead n).boundary
    (r.1.settleTurn r.2, r.2)
  else match s.nextCtx with
    | some _ => (s.switch, .switched)
    | none => (s, .idle)

end Sys2Proof.Machine
end

