-- ==== Sys2Proof/Machine/Counters.lean ====
section
/-! DEFINITION. Event counters (R432): what a step adds to each enabled counter, from the states before and after it and from what it met on its
way (State.hits). -/

namespace Sys2Proof.Machine

/-- The part of a turn that a core counts (Table 19-7). -/
def turnHits (s : State) (u : Turn) : List Hit :=
  let here := fun (n : Nat) => ({ src := n, at' := .core s.here, ctx := some s.core.cur.toNat } : Hit)
  match u with
  | .issued => [here 0x01, { src := 0x10 + s.core.cur.toNat, at' := .core s.here }]
  | .switched => [here 0x04]
  | .idle => [{ src := 0x05, at' := .core s.here }]
  | .interlock => [here 0x06]
  | .scoreboard => [here 0x07]
  | .draining => [here 0x08]
  | .waiting => [here 0x09]
  | .yielded => [here 0x0a]
  | .trapped => []
  | .skipped => [here 0x02]
  | .noop => [here 0x03]

/-- The accesses of the running strand, held or in flight, that this step issued. -/
def newAccesses (s t : State) : List Access :=
  let held := match t.ctx.seg with
    | some g => g.held.filterMap fun h => match h with
        | .access a => some a
        | .marker => none
    | none => []
  (t.ctx.flight ++ held).filter fun a => decide (s.uid < a.id)

/-- What the running strand itself adds (Table 19-7). -/
def strandHits (s t : State) : List Hit :=
  let here := fun (k n : Nat) => ({ src := k, at' := .core s.here, ctx := some s.core.cur.toNat, n := n } : Hit)
  if s.me != t.me then []
  else
    let new := newAccesses s t
    [here 0x0b (b2n (s.ctx.yreq.isNone && t.ctx.yreq == some 65537)),
     here 0x0d (b2n (!s.ctx.r.deep && t.ctx.r.deep)),
     here 0x0e (((t.ctx.seg.map (·.rewinds)).getD 0) - ((s.ctx.seg.map (·.rewinds)).getD 0)),
     here 0x23 (new.filter fun a => isLoadInstr a.i).length,
     here 0x24 (new.filter fun a => !isLoadInstr a.i && !isAtomicInstr a.i).length,
     here 0x25 (new.filter fun a => isAtomicInstr a.i).length,
     here 0x30 (t.ctx.eq.filter fun c => isCopy c.i && decide (s.uid < c.id)).length,
     here 0x32 (b2n (s.ctx.mon.isSome && t.ctx.mon.isNone))]

/-- What an event adds to its core or tower (Tables 19-7, 19-8). -/
def eventHits (s t : State) (e : Ev) : List Hit :=
  let core := fun (k n : Nat) => ({ src := k, at' := .core e.x, n := n } : Hit)
  let ctx := fun (k n : Nat) => ({ src := k, at' := .core (e.x / 4), ctx := some (e.x % 4), n := n } : Hit)
  let of := fun (k x n : Nat) => ({ src := k, at' := .core e.x, ctx := some (x % 4), n := n } : Hit)
  match e.i with
  | .trapEntry => [ctx 0x0d (b2n (!s.ctx.r.deep && t.ctx.r.deep))]
  | .forcedYield => [ctx 0x0b (b2n ((s.ctxAt e.x).any (·.yreq.isNone) && (t.ctxAt e.x).any (·.yreq.isSome)))]
  | .swapEnd => [core 0x0c (b2n ((s.coreAt e.x).shadow.any (·.swapping) && !(t.coreAt e.x).shadow.any (·.swapping)))]
  | .nestStep => (s.coreAt e.x).nest.toList.map fun g => of 0x18 g.x (b2n (some g.step != ((t.coreAt e.x).nest.map (·.step))))
  | .nmuOperationComplete => ((s.coreAt e.x).nmuq.filter fun q => !(t.coreAt e.x).nmuq.any (·.id == q.id)).map fun q => of 0x1b q.x 1
  | .copyCommandComplete =>
    let prog := fun (u : State) => (u.findCtx (Ctx.hasCmd e.y)).bind fun q => (q.2.2.eq.find? fun c => c.id == e.y).map (·.prog)
    [ctx 0x31 (((prog t).getD 0) - ((prog s).getD 0))]
  | _ => []

/-- The segment rewinds that an event brings to the strands in contexts (Table 19-7). -/
def rewindHits (s t : State) : List Hit :=
  let n := fun (c : Ctx) => (c.seg.map (·.rewinds)).getD 0
  ((s.me, s.ctx) :: s.ctxs).map fun q =>
    { src := 0x0e, at' := .core (q.1 / 4), ctx := some (q.1 % 4), n := ((t.ctxAt q.1).map n).getD 0 - n q.2 }

/-- What an event adds to a tower (Table 19-8). -/
def towerHits (s t : State) (e : Ev) : List Hit :=
  let tower := fun (T k n : Nat) => ({ src := k, at' := .tower T, n := n } : Hit)
  let fop := s.fops.find? fun o => o.id == e.y
  let loads := fun (u : State) => u.fops.filter fun o => o.kind == 3
  match e.i with
  | .dispatcherTick => [tower e.x 0x01 1]
  | .taskImageArrival => [tower e.x 0x02 (s.placing.length - t.placing.length)]
  | .shadowBankSwap => [tower (twrOf e.x) 0x03 (b2n (!(s.coreAt e.x).shadow.any (·.swapping) && (t.coreAt e.x).shadow.any (·.swapping)))]
  | .spillComplete => [tower (twrOf e.x) 0x04 (b2n (e.z == 0 && decide (s.spilled.length < t.spilled.length)))]
  | .reloadComplete => [tower ((fop.map fun o => plotTower o.plot).getD 0) 0x0d ((loads s).length - (loads t).length)]
  | .rowRefetchComplete => [tower (plotTower (e.x / 128)) 0x0e (s.refetch.length - t.refetch.length)]
  | .sequenceUnitOperation =>
    let q := s.sqq.find? fun r => r.id == e.y
    let n := b2n (decide (t.sqq.length < s.sqq.length))
    [tower e.x 0x0f n, tower e.x 0x10 (match q.map (·.i) with
      | some (Instr.rprins _ _) => n
      | _ => 0)]
  | .collectiveComplete => ((s.colls.find? fun g => g.id == e.x).bind fun g => towerOfLoc g.key).toList.map fun T =>
      tower T 0x11 (s.colls.length - t.colls.length)
  | .droopStretch => [tower e.x 0x13 1]
  | _ => []

/-- Reserved source codes of a core count nothing (Table 19-7). -/
def coreReserved (k : Nat) : Bool :=
  [0x0f, 0x14, 0x15, 0x16, 0x17, 0x1d, 0x1e, 0x1f].any (· == k) || decide (0x28 ≤ k ∧ k ≤ 0x2f) || decide (0x34 ≤ k)

/-- An enabled selector of a source that is not reserved: its counter's offset, whose it is, the source and the mask of contexts (Table 19-6). -/
def selected (q : Nat × Word) : Option (Nat × Counted × Nat × Nat) :=
  let T := q.1 / 0x100000
  let o := q.1 % 0x100000
  let k := bits q.2 5 0
  if 0x800000 ≤ q.1 || !q.2.getLsbD 8 then none
  else if 0x20000 ≤ o ∧ o < 0x26000 ∧ 0x40 ≤ o % 0x80 then
    (if coreReserved k then none else some (q.1 - 0x40, .core (192 * T + (o - 0x20000) / 0x80), k, bits q.2 15 12))
  else if 0x18100 ≤ o ∧ o < 0x18200 ∧ k < 0x14 then some (q.1 - 0x100, .tower T, k, 0)
  else none

/-- A hit belongs to a unit. -/
def Hit.belongs (h : Hit) (u : Counted) : Bool :=
  h.at' == u || (match h.at', u with
    | .cores T, .core G => twrOf G == T
    | _, _ => false)

/-- What some hits add to a counter of a source of a unit; a core's counter counts only contexts of its mask (R432). -/
def hitsFor (l : List Hit) (u : Counted) (k mask : Nat) : Nat :=
  l.foldl (fun (acc : Nat) h => if h.src = k ∧ h.belongs u ∧ (h.ctx.all fun x => bitOf mask x) then acc + h.n else acc) 0

/-- Every enabled counter raised by some hits (R432). -/
def State.count (s : State) (l : List Hit) : State :=
  s.csr.foldl (fun (t : State) q => match selected q with
    | some (off, u, k, mask) => t.countUp off (hitsFor l u k mask)
    | none => t) s

/-- The counters after an event. -/
def State.countEvent (t s : State) (e : Ev) : State := t.count (t.hits ++ rewindHits s t ++ eventHits s t e ++ towerHits s t e)

/-- The counters after a turn. -/
def State.countTurn (t s : State) (u : Turn) : State := t.count (t.hits ++ turnHits s u ++ strandHits s t)

/-- Cycles whose number the spec leaves to the implementation's timing: of the feeder's delay, of the collector's pause, of a port's conflict; each
cycle has one of them or not (R61, R432, log 12). -/
def openCycles (k : Nat) : Bool := k == 0x19 || k == 0x1a || k == 0x26

/-- What a cycle of the towers in a list adds: cycles, cycles with a redirect in force, and those of a core whose NMU is busy (R432). -/
def State.cycleHits (s : State) (ts : List Nat) : List Hit :=
  (ts.flatMap fun T => [({ src := 0, at' := .cores T } : Hit), { src := 0, at' := .tower T },
    { src := 0x12, at' := .tower T, n := b2n ((s.reg (oRTRCTL T)).getLsbD 16) }]) ++
  ((s.allCores.filter fun q => ts.any (· == twrOf q.1)).filterMap fun q => q.2.nmuq.head?.map fun op =>
    ({ src := 0x1c, at' := .core q.1, ctx := some (op.x % 4) } : Hit))

/-- The counters after a cycle of the towers in a list (R432). -/
def State.countCycle (s : State) (ts : List Nat) : State :=
  let t := s.count (s.cycleHits ts)
  t.csr.foldl (fun (u : State) q => match selected q with
    | some (off, .core G, k, _) =>
      if openCycles k && ts.any (· == twrOf G) then { (u.countUp off (Config.freeIndex u.free % 2)) with free := u.free + 1 } else u
    | _ => u) t

end Sys2Proof.Machine
end

