-- ==== Sys2Proof/Machine/Run.lean ====
section
/-! DEFINITION. What moves next (log 1, log 2, log 3): an event that is due, the bundle of the core whose turn it is, or a stage of
bring-up; and how a word is placed for the first instruction after reset (log 8). -/

namespace Sys2Proof.Machine

/-! ## Time (R172, R162) -/

/-- The dispatcher ticks of towers whose count of cycles is a multiple of 256 (R172). -/
def State.ticksDue (s : State) (ts : List Nat) : List Ev :=
  (ts.filter fun T => (s.cycOf T).toNat % 256 == 0).map fun T => { i := .dispatcherTick, x := T }

/-- The strands that have been ready for another 2^20 cycles (R162). -/
def State.agingDue (s : State) : List Ev :=
  (s.ctxs.filter fun c => c.2.st == .ready && !c.2.agent && decide (0x100000 ≤ (s.cycAt c.1 - c.2.since).toNat) &&
    !s.agenda.any fun (e : Ev) => e.i == Instr.strandRankAging && e.x == c.1).map fun c => ({ i := .strandRankAging, x := c.1 } : Ev)

/-- The next cycle of the towers in a list, while the others' clocks do not run: towers have clocks of their own (R425, log 2). -/
def State.nextCycle (s : State) (ts : List Nat) : State :=
  let lag := Vector.ofFn fun (T : Fin 8) => s.lag[T] + (if ts.any (· == T.val) then 0#64 else 1#64)
  let t := ({ s with cyc := s.cyc + 1#64, lag := lag } : State).countCycle ts
  { t with agenda := t.agenda ++ t.ticksDue ts ++ t.agingDue }

/-! ## The choice of what moves (log 3) -/

/-- A core other than the present one that has a strand to run: the next one in number. -/
def State.nextCore (s : State) : Option Nat :=
  let l := s.ctxs.filter fun c => c.1 / 4 != s.here && c.2.canRun
  match l.find? fun c => decide (s.here < c.1 / 4) with
  | some c => some (c.1 / 4)
  | none => (l.head?).map (·.1 / 4)

/-- The turn passes to core G. -/
def State.giveTurn (s : State) (G : Nat) : State := if G = s.here then s else s.bring G (s.coreAt G).cur

/-- An event that neither sleeps nor is a host's or link's access that has to wait. -/
def State.canGo (s : State) (e : Ev) : Bool :=
  !e.asleep && (match e.i with
    | .hostPostedWrite => !s.hostWriteWaits e.y e.z e.bytes.length
    | .hostRead => !s.hostWaits e.y e.z e.v.toNat
    | .linkFlitReceive => !s.flitWaits e
    | .slayerCutoff => decide (e.w.toNat ≤ (s.cycOf e.x).toNat)
    | _ => true)

/-- The place of the event that has to go first for the one at place k: the first that its port sent before it and that keeps its order with it, and
so on from there, in at most n steps (R51, R115). -/
def State.portFirst (s : State) (l : List Ev) : Nat → Nat → Nat
  | 0, k => k
  | n + 1, k =>
    match l[k]?.bind fun e => (l.take k).findIdx? (s.portAfter e) with
    | none => k
    | some j => s.portFirst l n j

/-- The number that chooses: 0 a bundle, k the k-th event due, 2^16 + G the core G; 2^20 times the bundles fetched ahead more (R69), and 2^23 times a
mask of towers whose clocks do not run in the step (R425); where
nothing is chosen from outside, bundles alternate with the first event that need not wait, and every fourth cycle the turn passes on. -/
def State.choice (s : State) : Nat :=
  match s.sched with
  | n :: _ => n
  | [] =>
    if s.cyc.toNat % 2 = 0 then ((s.agenda.zipIdx.find? fun q => s.canGo q.1 && s.portFirst s.agenda q.2 q.2 == q.2).map (·.2 + 1)).getD 0
    else if s.cyc.toNat % 4 = 3 then (match s.nextCore with
      | some G => 65536 + G
      | none => 0)
    else 0

/-- The event at a place of the agenda taken out and performed. -/
def State.performAt (s : State) (k : Nat) : Host.Outcome State Fault Refusal :=
  match s.agenda[k]? with
  | none => .next s
  | some e =>
    if e.asleep then .next s
    else match exec e.i { s with agenda := s.agenda.eraseIdx k, ev := e } with
      | .next t => .next (t.countEvent s e)
      | .fault f => .fault f
      | .refused r => .refused r

/-- The event at a place of the agenda, or the one of its port that has to go first, performed. -/
def State.perform (s : State) (k : Nat) : Host.Outcome State Fault Refusal := s.performAt (s.portFirst s.agenda k k)

/-- The turn of the core in its place, with up to n bundles fetched ahead. -/
def State.bundleTurn (s : State) (n : Nat) : State :=
  let r := s.coreTurn n
  r.1.countTurn s r.2

/-- The core that the choice gives the turn. -/
def State.turnCore (s : State) : Nat :=
  let n := s.choice % 0x100000
  if n = 0 then s.here else (n - 65536) % 1536

/-- The towers whose clocks run in the next step: all but those of the choice's mask, and always that of a core that moves a bundle (R425). -/
def State.clocks (s : State) : List Nat :=
  let n := s.choice % 0x100000
  (List.range 8).filter fun T => !bitOf (s.choice / 0x800000) T || (decide (n = 0 ∨ 65536 ≤ n) && twrOf s.turnCore == T)

/-- The state in which what a step chooses takes its turn: the choice used up, no event at work, nothing counted, the next cycle begun. -/
def State.chosen (s : State) : State :=
  ({ s with sched := s.sched.tail, ev := { i := .nop }, hits := [] } : State).nextCycle s.clocks

/-- One step of a running module. -/
def State.runStep (s : State) : Host.Outcome State Fault Refusal :=
  let n := s.choice % 0x100000
  let d := min 4 (s.choice / 0x100000 % 8)
  if n = 0 then .next (s.chosen.bundleTurn d)
  else if n < 65536 then s.chosen.perform (n - 1)
  else .next ((s.chosen.giveTurn s.turnCore).bundleTurn d)

/-! ## Bring-up (R429) -/

/-- What the module still serves when bring-up has failed: the BARs, and another reset (R429). -/
def servedWhenStopped : Instr → Bool
  | .hostRead => true
  | .hostPostedWrite => true
  | .moduleReset => true
  | .portReset => true
  | _ => false

/-- An event that makes HBM4 traffic, which begins only at stage 4 (R430). -/
def Ev.usesHbm (e : Ev) : Bool :=
  match e.i with
  | .hostRead => e.y != 0 && e.y != 2
  | .hostPostedWrite => e.y != 0 && e.y != 2
  | .linkFlitReceive => true
  | .attestCert => true
  | .attestReport => true
  | _ => false

/-- The first event due that a test lets pass and that, with what its port sent before it, need not wait for stage 4 (R51, R115, R430). -/
def State.bootEvent (s : State) (ok : Ev → Bool) : Option Nat :=
  let early := fun (e : Ev) => decide (s.stage < 4) && e.usesHbm
  ((s.agenda.zipIdx.find? fun q => ok q.1 && s.canGo q.1 && !early q.1 && !(s.agenda[s.portFirst s.agenda q.2 q.2]?).any early)).map (·.2)

/-- One step of a module whose bring-up has failed (R429). -/
def State.stoppedStep (s : State) : Host.Outcome State Fault Refusal :=
  match s.bootEvent fun e => servedWhenStopped e.i with
  | some k => s.perform k
  | none => .fault .bringUpStopped

/-- One step of bring-up: an event that is due, or the next stage (R429, R430). -/
def State.bootingStep (s : State) : Host.Outcome State Fault Refusal :=
  match s.bootEvent fun _ => true with
  | some k => s.perform k
  | none => .next s.bootStep

/-! ## A word placed for the next fetch (log 8, log 9) -/

/-- Page tables at physical addresses 0x1000 to 0x4000 that map the 1 GiB around an address to 0x4000_0000, with every right
(Table 4-2). -/
def State.mapForWord (s : State) (pc : Nat) : State :=
  let put := fun (t : State) (tab lvl : Nat) (e : Nat) => t.putBytes (tab + 8 * (pc / 2 ^ stepLg lvl % 512)) (natToBytes 8 e)
  put (put (put (put s 0x1000 5 0x2001) 0x2000 4 0x3001) 0x3000 3 0x4001) 0x4000 2 0x40000c73

/-- The bundle whose slot of the word's class is the word, the others NOP. -/
def bundleOfWord (w : Nat) : List Byte :=
  let p := match decodeTableClass (BitVec.ofNat 32 w) with
    | some (p, _) => posNum p
    | none => 1
  List.replicate (4 * p) 0#8 ++ natToBytes 4 w ++ List.replicate (12 - 4 * p) 0#8

/-- The state with a word stored where the next step fetches: bring-up over, the word's address mapped, and a strand of the present
context at its boundary. -/
def State.placeWord (s : State) (w : Nat) : State :=
  let pc := s.ctx.r.pc.toNat % 0x10000000000 / 16 * 16
  let s1 := (s.setReg oBOOTST 7#64).setReg oTRROOT 0x1001#64
  let s2 := (s1.mapForWord pc).putBytes (0x40000000 + pc % 0x40000000) (bundleOfWord w)
  { s2 with
    ctx := { s2.ctx with r := { s2.ctx.r with pc := BitVec.ofNat 64 pc, run := 65536#32 }, st := .running, phase := .normal,
                         npc := none, grp := [], due := [], yreq := none, drn := 0#3, post := [], gone := false, ahead := [], assays := [],
                         flight := [], asks := 0#64, lset := 0#4 }
    poison := []
    badcrc := []
    dirty := []
    inval := []
    inbound := []
    moves := []
    tlb := []
    walkc := []
    ats := []
    agenda := []
    sched := []
    cyc := 1#64
    lag := Vector.replicate 8 0#64
    sent := []
    cut := []
    agentRun := false
    fenced := 0#8 }

end Sys2Proof.Machine
end

