-- ==== Sys2Proof/Machine/Step.lean ====
section
/-! DEFINITION. One step of the module: bring-up, then a bundle or an event (log 1 to log 3). -/

namespace Sys2Proof.Machine

/-- The step. -/
def step (s : State) : Host.Outcome State Fault Refusal :=
  if s.bootFailed then s.stoppedStep else if s.stage < 7 then s.bootingStep else s.runStep

/-- The state whose very next step fetches and runs the word (log 8). -/
def State.withFetchWord (s : State) (_nbits w : Nat) : State := s.placeWord w

end Sys2Proof.Machine
end

