-- ==== Sys2Proof/Safety.lean ====
section
/-! DEFINITION. What a safe run is: none of its steps ends in a fault or a refusal. -/

namespace Sys2Proof.Safety

/-- The state after n steps, where no step stops. -/
def after : Nat → Machine.State → Option Machine.State
  | 0, s => some s
  | n + 1, s => match Machine.step s with
    | .next t => after n t
    | _ => none

/-- A state from which no run stops. -/
def safe (s : Machine.State) : Prop := ∀ n, (after n s).isSome = true

end Sys2Proof.Safety
end

