-- ==== Sys2Proof/Certificates/Slice0/Obligations.lean ====
section
/-! DEFINITION. The statements for the provers, each a proposition about the model in the spec's own terms. -/

namespace Sys2Proof.Claim

open Sys2Proof Sys2Proof.Machine

/-! ## Frames -/

/-- Every byte of memory reads as before. -/
def SameBytes (s t : State) : Prop := ∀ l : Nat, t.byteAt l = s.byteAt l

/-- Every byte outside the n bytes from location a reads as before. -/
def SameBytesBut (a n : Nat) (s t : State) : Prop := ∀ l : Nat, l < a ∨ a + n ≤ l → t.byteAt l = s.byteAt l

/-- Every register of the MMIO and CSR window holds what it held. -/
def SameCsr (s t : State) : Prop := ∀ off : Nat, t.reg off = s.reg off

/-- t is s but for the results that the current strand awaits: every general, vector, predicate, loop and staging register, the mode
and trap state, every core, memory and window register is unchanged. -/
def OnlyPend (s t : State) : Prop := t = { s with ctx := { s.ctx with r := { s.ctx.r with pend := t.ctx.r.pend } } }

/-- t is s but for the strand of the current context. -/
def OnlyCtx (s t : State) : Prop := t = { s with ctx := t.ctx }

/-- t is s but for the strand of the current context and the current core's own state. -/
def OnlyCore (s t : State) : Prop := t = { s with ctx := t.ctx, core := t.core, agenda := t.agenda, uid := t.uid }

/-- Results written with a latency by an instruction of the bundle being executed, each register's on its own but for the pair of LDQ, which lands
together: the value is the last of its register to land (R243, R282). -/
def Awaits (i : Instr) (s t : State) (lat : Nat) (p : Pos) (ws : List Write) : Prop :=
  ∃ mk : List Write → Pend, t.ctx.r.pend = (landParts i ws).foldl (fun l w => addPend l (mk w)) s.ctx.r.pend ∧
    ∀ w, (mk w).left = lat ∧ (mk w).ws = w ∧ (mk w).bc = s.ctx.r.bc ∧ (mk w).pos = p ∧ (mk w).supplied = false

/-- The instruction answers a next state that differs from s in one awaited result alone. -/
def Returns (i : Instr) (s : State) (lat : Nat) (p : Pos) (ws : List Write) : Prop :=
  ∃ t, exec i s = .next t ∧ Awaits i s t lat p ws ∧ OnlyPend s t ∧ SameBytes s t ∧ SameCsr s t

/-! ## Canonical form -/

/-- Memory and the register window stand in their canonical form. -/
def Canonical (s : State) : Prop := Memory.wf s.mem ∧ sparseWf csrReset s.csr = true

/-! ## Guards -/

/-- The guard of an instruction is false: bit 0 of p[g] in the X, S and E slots, every lane in the V slot (R244). -/
def Idle (i : Instr) (g : BitVec 4) (s : State) : Prop :=
  i.guard = some g ∧ (if i.pos = some Pos.v then s.pr g = 0#32 else (s.pr g).getLsbD 0 = false)

/-! ## One bundle -/

/-- The bundle holds instruction i in one position, and NOP words or a header elsewhere. -/
def Holds (b : Bundle) (i : Instr) : Prop :=
  ∃ p : Pos, ∀ q ∈ slotsOf b, if q.1 = p then q.2.i = i else q.2.i = Instr.nop ∨ ∃ h, q.2.i = Instr.hdr h

/-- What the core makes of t, the state that exec of i answers at v, the state at the bundle: the boundary after it, or the trap,
block or freeze that i met, or the wait for the frame of a trap. -/
def afterExec (v : State) (b : Bundle) (i : Instr) (t : State) : State × Turn :=
  match t.ctx.phase with
  | .normal => ((finishBundle v.ctx.r t.closeBatch).afterBundle v b false, .issued)
  | .done => (match b.x.i with
      | .seg _ _ _ => t.closeBatch.afterBundle v b false
      | _ => t.closeBatch, .issued)
  | .left => (t, .issued)
  | .issueTrap => t.entered
  | .entering => t.entered
  | .blocked => (t, .switched)
  | .frozen => (t, freezeKind i)

/-- The state in which the running strand of the present core tries its bundle: the core's blocked strands whose cause has cleared are
ready, and no drain is left before it. -/
def atBundle (s : State) : State :=
  s.chosen.wakeReady.withCtx fun c => { c with st := .running, phase := .normal, drn := 0#3, drnScope := 0 }

/-- The module is up and the present core's bundle moves next, with nothing due before it (R116, R192, R211, log 3). -/
def BundleNext (s : State) : Prop :=
  s.bootFailed = false ∧ 7 ≤ s.stage ∧ s.choice = 0 ∧ s.ctx.st ≠ .stopped ∧ s.ctx.canRun = true ∧ s.ctx.yreq = none ∧
  s.ctx.firstDue = none ∧ s.ctx.drn = 0#3 ∧ s.ctx.post = [] ∧ s.ctx.flight.any (·.sleep) = false ∧ s.ctx.assays = []


/-! ## Shared shapes of conclusion -/

/-- Memory, poison and every register of the window are as before. -/
def SameStore (s t : State) : Prop := SameBytes s t ∧ SameCsr s t ∧ t.poison = s.poison

/-- The general, vector, predicate, loop and staging registers are as before. -/
def SameFile (a b : Regs) : Prop := b.s = a.s ∧ b.v = a.v ∧ b.p = a.p ∧ b.l = a.l ∧ b.g = a.g

/-- The strand is in its trap handler: depth 1, supervisor level, TVEC next, no level active, no single step, nothing in the
replay queue left to land (R193). -/
def InHandler (s t : State) : Prop :=
  t.ctx.r.pc = s.reg (oTVEC (twrOf s.here)) ∧ t.ctx.r.sup = true ∧ t.ctx.r.deep = true ∧ t.ctx.r.lact = 0#4 ∧
  t.ctx.r.ssm = false ∧ t.ctx.r.pend = []

/-- The strand at the boundary after the current bundle, with no other trap due there. -/
def boundaryOf (s : State) : State :=
  (s.finish.withCtx fun c => { c with due := [], sspend := false }).withRegs Regs.settle

/-- The software trap of a code (R268). -/
def swTrapOf (code : Nat) : Trap := { kind := .after, cause := 0x12#8, finfo := BitVec.ofNat 64 (code * 256) }

/-- What a loop start with a count above 0 makes of level k (R258). -/
def Started (s t : State) (k : Nat) (cnt e : Word) : Prop :=
  t.ctx.r.lreg k = cnt ∧ t.ctx.r.lreg (4 + k) = s.ctx.r.pc + 16#64 ∧ t.ctx.r.lreg (8 + k) = e ∧
  (∀ j, j < 12 → j % 4 ≠ k → t.ctx.r.lreg j = s.ctx.r.lreg j) ∧ t.ctx.r.lact = s.ctx.r.lact ||| (1#4 <<< k) ∧
  t.ctx.npc = s.ctx.npc ∧ t.ctx.r.s = s.ctx.r.s ∧ t.ctx.r.v = s.ctx.r.v ∧ t.ctx.r.p = s.ctx.r.p ∧ t.ctx.r.g = s.ctx.r.g ∧
  SameBytes s t ∧ SameCsr s t

/-! ## Shapes for memory -/

/-- Two, four and eight bytes of memory from a location, the lowest address in the lowest byte (R5). -/
def two (s : State) (l : Nat) : BitVec 16 := s.byteAt (l + 1) ++ s.byteAt l
/-- Four bytes. -/
def four (s : State) (l : Nat) : BitVec 32 := two s (l + 2) ++ two s l
/-- Eight bytes. -/
def eight (s : State) (l : Nat) : BitVec 64 := four s (l + 4) ++ four s l

/-- The effective address of a scalar access: a register plus a signed immediate, modulo 2^64 (R280). -/
def ea (s : State) (a : BitVec 6) (imm : BitVec 15) : Word := BitVec.ofInt 64 ((s.sr a).toInt + imm.toInt)

/-- The n bytes at local location l can be read at once: no engine operation writes them and none is poisoned (R124, R139). -/
def Readable (s : State) (l n : Nat) : Prop := s.conflicts s.here l n false = false ∧ s.poisonedAt l n = false

/-- The n bytes at local location l can be written at once, outside a segment (R124, R144). -/
def Writable (s : State) (l n : Nat) : Prop :=
  s.conflicts s.here l n true = false ∧ s.poisonedAt l n = false ∧ s.badCrcAt l n = false ∧ s.ctx.seg = none

/-- The instruction stores the n bytes of x at l, lowest first, and changes nothing else that a program reads. -/
def Stores (i : Instr) (s : State) (l n : Nat) (x : Nat) : Prop :=
  ∃ t, exec i s = .next t ∧ (∀ k, k < n → t.byteAt (l + k) = BitVec.ofNat 8 (x / 256 ^ k)) ∧ SameBytesBut l n s t ∧
    SameCsr s t ∧ t.ctx = s.ctx ∧ t.core = s.core ∧ t.poison = s.poison

/-- The instruction puts one access in flight, with its captured addresses, data and guard mask, every part of it that performs on its own still
to come, each by its own event (R114, R117, R197, R325). -/
def Flies (i : Instr) (s : State) (p : Pos) (addrs : List Word) (data pre : Vec) (gm : BitVec 32) : Prop :=
  ∀ (f : Access) (ks : List Nat),
    f = { id := s.uid + 1, bc := s.ctx.r.bc, pos := p, i := i, core := s.here, sup := s.ctx.r.sup, gm := gm,
          addrs := addrs, data := data, pre := pre } →
    ks = List.range (max 1 (unitsOf f).length) →
    exec i s = .next { s with uid := s.uid + 1, ctx := { s.ctx with flight := s.ctx.flight ++ [{ f with left := ks }] },
                              agenda := s.agenda ++ ks.map (accessEvent s.me f) }

/-- A remote access can be put in flight: the context runs, no store of it is held in a segment, and fewer than 28 are outstanding
(R144, R198). -/
def CanFly (s : State) : Prop := s.ctx.st ≠ .stopped ∧ s.inSeg = false ∧ s.flightFull = false

/-- The instruction reserves the next ALQ entry with its operands for an atomic put in flight (R120, R285). -/
def SendsAtomic (i : Instr) (s : State) (a : Word) (x y : Word) : Prop :=
  ∃ t f e, exec i s = .next t ∧
    f = ({ id := s.uid + 1, bc := s.ctx.r.bc, pos := .s, i := i, core := s.here, sup := s.ctx.r.sup,
           gm := (s.ctx.r.alqh + BitVec.ofNat 4 s.ctx.r.alq.length).setWidth 32, addrs := [a],
           data := x.setWidth 1024 ||| (y.setWidth 1024 <<< 64) } : Access) ∧
    e = ({ id := s.uid + 1, pos := .s, i := i, opa := x, opb := y } : AlqEntry) ∧
    t = { s with uid := s.uid + 1, agenda := s.agenda ++ [accessEvent s.me f 0],
                 ctx := { s.ctx with flight := s.ctx.flight ++ [f], r := { s.ctx.r with alq := s.ctx.r.alq ++ [e] } } }

/-! ## Shapes for vectors -/

/-- The element width of a width field (R307). -/
def Width (w : BitVec 2) (n : Nat) : Prop := (w = 0#2 ∧ n = 8) ∨ (w = 1#2 ∧ n = 16) ∨ (w = 2#2 ∧ n = 32)

/-- A vector result lands in d at a latency under the guard mask, its element j of n bits being f j (R307). -/
def VecResult (i : Instr) (s : State) (lat : Nat) (d : BitVec 6) (gm : BitVec 32) (n : Nat) (f : Nat → BitVec n) : Prop :=
  ∃ x m : Vec, Returns i s lat .v [.v d x m] ∧
    (∀ k, k < 32 → lane m k = if gm.getLsbD k then 0xffffffff#32 else 0#32) ∧
    ∀ j, (j + 1) * n ≤ 1024 → elem x n j = f j

/-- A predicate result lands in the guarded bits of d, bit i being c i (R307). -/
def PredResult (i : Instr) (s : State) (lat : Nat) (d : BitVec 4) (gm : BitVec 32) (c : Nat → Prop) : Prop :=
  ∃ x : BitVec 32, Returns i s lat .v [.p d x gm] ∧ ∀ k, k < 32 → (x.getLsbD k = true ↔ c k)

/-- The integer conditions of a vector compare (R319). -/
def Cond (c : BitVec 3) {n : Nat} (x y : BitVec n) : Prop :=
  (c = 0#3 ∧ x = y) ∨ (c = 1#3 ∧ x ≠ y) ∨ (c = 2#3 ∧ x.toInt < y.toInt) ∨ (c = 3#3 ∧ x.toInt ≤ y.toInt) ∨
  (c = 4#3 ∧ x.toNat < y.toNat) ∨ (c = 5#3 ∧ x.toNat ≤ y.toNat)

/-- The fixed reduction tree of five levels over 32 lanes (R320). -/
def treeOf (f : BitVec 32 → BitVec 32 → BitVec 32) (x : Nat → BitVec 32) : BitVec 32 :=
  let up := fun (y : Nat → BitVec 32) i => f (y (2 * i)) (y (2 * i + 1))
  up (up (up (up (up x)))) 0

/-- The lane addresses of the guarded lanes. -/
def lanesAt (gm : BitVec 32) (f : Nat → Word) : List (Nat × Word) :=
  ((List.range 32).filter fun i => gm.getLsbD i).map fun i => (i, f i)

/-- The captured lane addresses, zero for a lane whose guard is false (R196). -/
def captured (gm : BitVec 32) (f : Nat → Word) : List Word := (List.range 32).map fun i => if gm.getLsbD i then f i else 0#64

/-- Every guarded lane's n bytes lie in local memory, lane i at loc i, and can be read at once. -/
def LanesHere (s : State) (gm : BitVec 32) (n : Nat) (f : Nat → Word) (loc : Nat → Nat) : Prop :=
  ∀ i, i < 32 → gm.getLsbD i = true → s.target .vector (f i) n = .here (loc i) ∧ Readable s (loc i) n

/-- No guarded lane traps and every one lies in remote memory. -/
def LanesAway (s : State) (gm : BitVec 32) (n : Nat) (f : Nat → Word) : Prop :=
  ∀ i, i < 32 → gm.getLsbD i = true → ∃ w l, s.target .vector (f i) n = .remote w l

/-- The instruction stores lane i of x at loc i for each guarded lane, the highest lane last where two overlap, and changes no other
byte and no register (R325). -/
def StoresLanes (i : Instr) (s : State) (gm : BitVec 32) (loc : Nat → Nat) (x : Vec) : Prop :=
  ∃ t, exec i s = .next t ∧ t.ctx = s.ctx ∧ SameCsr s t ∧
    (∀ k, k < 32 → gm.getLsbD k = true →
      (∀ j, k < j → j < 32 → gm.getLsbD j = true → loc k + 4 ≤ loc j ∨ loc j + 4 ≤ loc k) → four t (loc k) = lane x k) ∧
    ∀ a : Nat, (∀ k, k < 32 → gm.getLsbD k = true → a < loc k ∨ loc k + 4 ≤ a) → t.byteAt a = s.byteAt a

/-- z is the larger, or the smaller, of the encodings x and y: the other operand when exactly one is a NaN, the canonical NaN when both are, and
minus zero below plus zero (R218). -/
def Picks (F : Fmt) (big : Bool) (x y z : Nat) : Prop :=
  (F.val x = .nan → F.val y = .nan → z = F.nanCode) ∧ (F.val x = .nan → F.val y ≠ .nan → z = y) ∧
  (F.val x ≠ .nan → F.val y = .nan → z = x) ∧
  (F.val x ≠ .nan → F.val y ≠ .nan → (z = x ∨ z = y) ∧
    (big = true → (F.val x).le (F.val z) = true ∧ (F.val y).le (F.val z) = true) ∧
    (big = false → (F.val z).le (F.val x) = true ∧ (F.val z).le (F.val y) = true)) ∧
  (x = 0 ∧ y = 2 ^ F.width ∨ x = 2 ^ F.width ∧ y = 0 → z = if big then 0 else 2 ^ F.width)

/-- A conversion type's code and the bits of one value (Table 13-4). -/
def CvtType (c : BitVec 4) (n : Nat) : Prop :=
  (c = 1#4 ∧ n = 16) ∨ (c = 2#4 ∧ n = 8) ∨ (c = 3#4 ∧ n = 8) ∨ (c = 4#4 ∧ n = 4) ∨ (c = 5#4 ∧ n = 32) ∨ (c = 6#4 ∧ n = 32) ∨
  (c = 7#4 ∧ n = 16) ∨ (c = 8#4 ∧ n = 16) ∨ (c = 9#4 ∧ n = 8) ∨ (c = 10#4 ∧ n = 8)

/-- The result x under the mask m holds in part p of each guarded lane, n bits a part, the value that f gives the lane, and writes no other bit
(R314). -/
def Packed (gm : BitVec 32) (n p : Nat) (f : Nat → Nat) (x m : Vec) : Prop :=
  ∀ i, i < 32 → (gm.getLsbD i = true → (lane x i).toNat / 2 ^ (n * p) % 2 ^ n = f i) ∧
    ∀ k, k < 32 → ((lane m i).getLsbD k = true ↔ gm.getLsbD i = true ∧ n * p ≤ k ∧ k < n * (p + 1))

/-- The instruction answers a next state that differs from s in the awaited results and in the one word that the strand's generator has given up
(R222, R315). -/
def ReturnsPopped (i : Instr) (s : State) (lat : Nat) (ws : List Write) : Prop :=
  ∃ t, exec i s = .next t ∧ (∃ u : State, u = { s with ctx := { s.ctx with r := s.ctx.r.rbShared.2 } } ∧ Awaits i u t lat .v ws ∧ OnlyPend u t) ∧
    SameBytes s t ∧ SameCsr s t

/-- The result x under the mask m holds in block slot q the elements el of an MX format, element k in its bits, and writes every lane of the slot
and no other (R316). -/
def Block (F : Mx) (q : Nat) (el : List Nat) (x m : Vec) : Prop :=
  (∀ k, k < 32 → x.toNat / 2 ^ (256 * q + F.bits * k) % 2 ^ F.bits = el.getD k 0) ∧
  ∀ i, i < 32 → lane m i = if 8 * q ≤ i ∧ i < 8 * q + F.bits then 0xffffffff#32 else 0#32

/-! ## Shapes for engines -/

/-- The operation is queued on the NMU with its captured staging registers and addresses, its local ranges are entered in the
scoreboard, and its completion is due; no register and no byte changes (R124, R356). -/
def NmuSent (i : Instr) (s : State) (a b : Word) (rs : List Rng) : Prop :=
  ∃ t op es, exec i s = .next t ∧ op.id = s.uid + 1 ∧ op.x = s.me ∧ op.i = i ∧ op.ng = s.ngs ∧ op.a = a ∧ op.b = b ∧
    op.gang = false ∧ op.sbs = es.map (fun e => e.id) ∧ es.map (fun e => (e.lo, e.hi, e.wr)) = rs ∧
    t.core = { s.core with sb := s.core.sb ++ es, rng := s.core.rng ++ es, nmuq := s.core.nmuq ++ [op] } ∧
    t.ctx = { s.ctx with ops := s.ctx.ops ++ [op.id] } ∧ SameBytes s t ∧ SameCsr s t ∧
    t.agenda = s.agenda ++ [{ i := .nmuOperationComplete, x := s.here, y := op.id }]

/-- The scoreboard entries that operation op makes for its local ranges, numbered from n on (R124). -/
def entriesOf (s : State) (op n : Nat) (rs : List Rng) : List SbEntry :=
  rs.zipIdx.map fun q => { id := n + q.2, lo := q.1.1, hi := q.1.2.1, wr := q.1.2.2, x := s.me, op := op, tag := s.ctx.r.tag }

/-- The state in which the present strand's next operation, s.uid + 1, has entered its ranges. -/
def entered (s : State) (rs : List Rng) : State :=
  { s with uid := s.uid + 1 + rs.length, core := { s.core with sb := s.core.sb ++ entriesOf s (s.uid + 1) (s.uid + 2) rs,
                                                               rng := s.core.rng ++ entriesOf s (s.uid + 1) (s.uid + 2) rs } }

/-- u is t with the record w of the present strand's next command stored in its queue area, whose pages can be written at once (R208). -/
def Recorded (t : State) (w : List Word) (u : State) : Prop :=
  ∃ v, t.eqStore (.core t.here) t.here t.ctx.r.tfb (0x100 + 64 * ((t.ctx.eqHead + t.ctx.eq.length) % 16)) w = .ok v ∧
    v.eqStore (.core t.here) t.here t.ctx.r.tfb 0
      [BitVec.ofNat 64 t.ctx.eqHead, BitVec.ofNat 64 (t.ctx.eqHead + t.ctx.eq.length + 1)] = .ok u

/-- From v, the state in which the instruction has claimed what it needs, command k enters the queue of its strand, its record is stored, and the
event that starts it is due; nothing else changes (R208, R399). -/
def CommandQueuedFrom (i : Instr) (s v : State) (k : Cmd) (ev : Instr) : Prop :=
  ∀ u : State, Recorded v k.w u →
    exec i s = .next { u with ctx := { v.ctx with eq := v.ctx.eq ++ [k] }, agenda := u.agenda ++ [{ i := ev, x := s.me, y := k.id }] }

/-- The command enters the queue of its strand with its captured words and its local ranges (R208, R399). -/
def CommandQueued (i : Instr) (s : State) (w : List Word) (rs : List Rng) (seg : Bool) (ev : Instr) : Prop :=
  CommandQueuedFrom i s (entered s rs)
    { id := s.uid + 1, i := i, w := w, x := s.me, core := s.here, sup := s.ctx.r.sup, bc := s.ctx.r.bc,
      sbs := (entriesOf s (s.uid + 1) (s.uid + 2) rs).map (fun e => e.id), seg := seg } ev

/-- A field operation on plot n is put in plot order with its event, its strand remembers it, and nothing else changes (R338, R347). -/
def FieldSent (i : Instr) (s : State) (ev : Instr) (n kind h v : Nat) (org : Word) : Prop :=
  exec i s = .next { s with uid := s.uid + 1,
                            ctx := { s.ctx with ops := s.ctx.ops ++ [s.uid + 1] },
                            fops := s.fops ++ [{ id := s.uid + 1, core := s.here, tfb := s.ctx.r.tfb, plot := n, kind := kind, h := h,
                                                 v := v, org := org, sup := s.ctx.r.sup }]
                            agenda := s.agenda ++ [{ i := ev, y := s.uid + 1 }] }

/-- The field operation that the event names has its turn. -/
def FieldTurn (s : State) (op : FieldOp) : Prop := (s.fops.find? fun o => o.id == s.ev.y) = some op ∧ s.fopReady op = true

/-- The status word of plot n becomes w, the operation leaves plot order and its strand, and no other register and no byte changes. -/
def PlotBecomes (i : Instr) (s : State) (op : FieldOp) (w : Word) : Prop :=
  ∃ t, exec i s = .next t ∧ t.plotWord op.plot = w ∧ (∀ o, o ≠ oFPLST (plotTower op.plot) (op.plot % 256) → t.reg o = s.reg o) ∧
    (∀ o ∈ t.fops, o.id ≠ op.id) ∧ SameBytes s t ∧ t.ctx = { s.ctx with ops := s.ctx.ops.filter (· != op.id) } ∧
    t.core = { s.core with shadow := t.core.shadow }

/-- No byte of memory is poisoned or fails its CRC. -/
def Clean (s : State) : Prop := s.poison = [] ∧ s.badcrc = []

/-! ## Shapes for units -/

/-- The instruction sends its request to a sequence unit with its captured operands and staging words, and reserves n ALQ entries for its
values; nothing else of u, the state in which it issues, changes (R372, R380, R393). -/
def SeqSent (i : Instr) (s u : State) (a b c : Word) (stg : List Word) (n : Nat) : Prop :=
  ∃ (q : SeqReq) (l : List AlqEntry), q.id = s.uid + 1 ∧ q.x = s.me ∧ q.bc = s.ctx.r.bc ∧ q.i = i ∧ q.a = a ∧ q.b = b ∧ q.c = c ∧
    q.stg = stg ∧ q.sup = s.ctx.r.sup ∧ q.quiet = false ∧ q.slot = s.ctx.r.alqh + BitVec.ofNat 4 s.ctx.r.alq.length ∧
    l.length = n ∧ (∀ e ∈ l, e.i = i ∧ e.opa = a ∧ e.opb = b ∧ e.opc = c ∧ e.stg = stg ∧ e.valid = false ∧ e.faulted = false) ∧
    exec i s = .next { u with uid := s.uid + n, ctx := { u.ctx with r := { s.ctx.r with alq := s.ctx.r.alq ++ l } },
                              sqq := s.sqq ++ [q],
                              agenda := s.agenda ++ [{ i := .sequenceUnitOperation, x := q.twr, y := s.uid + 1 }] }

/-- The state whose next bundle waits for a DRAIN.S of a scope too (R116, R126). -/
def drainedAt (s : State) (sc : Nat) : State := { s with ctx := s.ctx.drain 1#3 sc s.uid }

/-- The dispatcher is enabled, and its reads of the manifest of launch q give a header of version 1 with good counts, and stage and channel records gs
and cs without a must-be-zero bit; v is the state that the reads leave (R165, R168, R169, R171). -/
def ManifestSound (s v : State) (q : Nat × Nat × Word) (gs : List Stage) (cs : List Chan) : Prop :=
  ∃ (h sw cw : List Word) (s1 s2 : State) (n m : Nat) (srec crec : List (List Word)),
    (s.launches.find? fun k => k.1 == s.ev.x && k.2.1 == s.ev.y) = some q ∧ (s.dsp.getD s.ev.x 0#64).getLsbD 0 = true ∧
    s.dispRead (s.ev.y / 4) q.2.2 8 = .ok (h, s1) ∧ headerIll h = false ∧ bits (h.getD 0 0#64) 15 8 = 1 ∧
    n = bits (h.getD 0 0#64) 23 16 ∧ 1 ≤ n ∧ n ≤ 16 ∧ m = bits (h.getD 0 0#64) 31 24 ∧ m ≤ 32 ∧
    s1.dispRead (s.ev.y / 4) (q.2.2 + 0x40#64) (16 * n) = .ok (sw, s2) ∧
    s2.dispRead (s.ev.y / 4) (q.2.2 + BitVec.ofNat 64 (0x40 + 128 * n)) (8 * m) = .ok (cw, v) ∧
    srec = (List.range n).map (fun k => (sw.drop (16 * k)).take 16) ∧ crec = (List.range m).map (fun k => (cw.drop (8 * k)).take 8) ∧
    srec.any stageIll = false ∧ crec.any chanIll = false ∧ gs = srec.map stageOfWords ∧ cs = crec.zipIdx.map fun k => chanOfWords k.2 k.1

/-- The launch that the event names is answered: its PLAUNCH completes, and it is asked for no more. -/
def Launched (s t : State) : Prop :=
  t.ctx.launched = some (0#8, 0#64) ∧ ∀ k ∈ t.launches, ¬ (k.1 = s.ev.x ∧ k.2.1 = s.ev.y)

/-- The sequence unit answers request q, which leaves its queue, with one value; u is the state that its operation leaves (R372). -/
def UnitAnswers (s u : State) (q : SeqReq) (v : Word) : Prop :=
  ∃ t, exec .sequenceUnitOperation s = .next t ∧
    t.agenda = u.agenda ++ [{ i := .alqValueArrival, x := q.x, y := q.slot.toNat, v := v, w := BitVec.ofNat 64 q.id }] ∧
    (∀ r ∈ t.sqq, r.id ≠ q.id) ∧ SameBytes u t

/-- The next ALQ entry is reserved for the instruction with its operands, and its value is on its way. -/
def Answers (i : Instr) (s t : State) (a b v : Word) : Prop :=
  exec i s = .next t ∧ t.ctx.r.alq = s.ctx.r.alq ++ [{ id := s.uid + 1, pos := .e, i := i, opa := a, opb := b }] ∧
  ({ i := .alqValueArrival, x := s.me, y := (s.ctx.r.alqh + BitVec.ofNat 4 s.ctx.r.alq.length).toNat, v := v,
     w := BitVec.ofNat 64 (s.uid + 1) } : Ev) ∈ t.agenda ∧ SameFile s.ctx.r t.ctx.r ∧ SameBytes s t

/-- A move is begun from k with the next ALQ entry reserved for its value, and its event is due; nothing else of k changes (R305, R306). -/
def MoveBegins (i : Instr) (s k : State) (a b : Word) (target : Nat) (ev : Ev) : Prop :=
  exec i s = .next { k with
    uid := s.uid + 1
    ctx := { s.ctx with r := { s.ctx.r with alq := s.ctx.r.alq ++ [{ id := s.uid + 1, pos := .e, i := i, opa := a, opb := b }] } }
    moves := s.moves ++ [{ id := s.uid + 1, slot := s.ctx.r.alqh + BitVec.ofNat 4 s.ctx.r.alq.length, i := i, x := s.me,
                           target := target, va := b }]
    agenda := k.agenda ++ [ev] }

/-- The event makes one register of the window w; every other register, every byte, and the running strand are unchanged. -/
def RegBecomes (i : Instr) (s : State) (off : Nat) (w : Word) : Prop :=
  ∃ t, exec i s = .next t ∧ t.reg off = w ∧ (∀ o : Nat, o ≠ off → t.reg o = s.reg o) ∧ SameBytes s t ∧ t.ctx = s.ctx

/-- The access is the strand's oldest in flight, performs whole at one address, and has its turn; its event tells of no error (R98, R114, R115). -/
def AccessDue (s : State) (a : Access) (l : List Access) (va : Word) : Prop :=
  s.ctx.flight = a :: l ∧ a.id = s.ev.y ∧ s.ev.z = 0 ∧ s.ev.w = 0#64 ∧ a.flt = false ∧ a.addrs = [va] ∧ a.pre = 0#1024 ∧ a.left = [0] ∧
  a.got = 0 ∧ s.unitTurn s.ctx a 0 = true ∧ s.portTurn a 0 = true ∧ s.ctx.gone = false ∧ s.ctx.seg = none ∧ s.ctx.st ≠ .stopped ∧
  (s.findCtx fun c => c.hasAccess a.id && c != s.ctx) = none ∧ s.spilled = [] ∧ s.sent = []

/-! ## Shapes for encodings -/

/-- The four 5-bit fields d, a, b and f of the twenty operand bits (Table 10-3). -/
def fd (x : BitVec 20) : BitVec 5 := x.extractLsb' 15 5
/-- Field a. -/
def fa (x : BitVec 20) : BitVec 5 := x.extractLsb' 10 5
/-- Field b. -/
def fb (x : BitVec 20) : BitVec 5 := x.extractLsb' 5 5
/-- Field f. -/
def ff (x : BitVec 20) : BitVec 5 := x.extractLsb' 0 5

/-- In a bundle without a header, the word of any stop bit, any guard, this opcode and any operand bits decodes in position p to what mk
gives of the guard and the operand bits (Table 10-2). -/
def Coded (p : Pos) (op : BitVec 7) (mk : BitVec 4 → BitVec 20 → Option Instr) : Prop :=
  ∀ (st : BitVec 1) (g : BitVec 4) (x : BitVec 20),
    decodeSlot p none (st ++ g ++ op ++ x) = (mk g x).map fun i => (i, st == 1#1)

/-- The format d-a-b-f of three scalar registers with f zero. -/
def three (mk : BitVec 4 → BitVec 6 → BitVec 6 → BitVec 6 → Instr) (g : BitVec 4) (x : BitVec 20) : Option Instr :=
  if ff x = 0#5 then some (mk g ((fd x).setWidth 6) ((fa x).setWidth 6) ((fb x).setWidth 6)) else none

/-- The format d-a-b-f of a predicate below 16 and two scalar registers with f zero. -/
def compare (mk : BitVec 4 → BitVec 4 → BitVec 6 → BitVec 6 → Instr) (g : BitVec 4) (x : BitVec 20) : Option Instr :=
  if ff x = 0#5 ∧ (fd x).toNat < 16 then some (mk g ((fd x).setWidth 4) ((fa x).setWidth 6) ((fb x).setWidth 6)) else none

/-- The format d-a-b-f of three predicates below 16 with f zero. -/
def logic (mk : BitVec 4 → BitVec 4 → BitVec 4 → BitVec 4 → Instr) (g : BitVec 4) (x : BitVec 20) : Option Instr :=
  if ff x = 0#5 ∧ (fd x).toNat < 16 ∧ (fa x).toNat < 16 ∧ (fb x).toNat < 16 then
    some (mk g ((fd x).setWidth 4) ((fa x).setWidth 4) ((fb x).setWidth 4)) else none

end Sys2Proof.Claim

open Sys2Proof Sys2Proof.Machine Sys2Proof.Claim

/-! ## Encoding -/

/-- R235 to R239: the word and header that the encoder gives a well-formed slot instruction decode to it with its stop bit. A
header carries no stop bit and an ASSAY always one (R237, R410). -/
def Obligations.EncodeThenDecode : Prop :=
  ∀ (i : Instr) (p : Pos) (stop : Bool), i.wf = true → i.pos = some p ∨ i = Instr.nop →
    ((∃ h, i = Instr.hdr h) → stop = false) → (i.isAssay = true → stop = true) →
    decodeSlot p (encode p stop i).1 (encode p stop i).2 = some (i, stop)

/-- R235, R236: a slot word that decodes is the word that the encoder gives, so that no two words name one instruction with one
stop bit in one position. -/
def Obligations.DecodeThenEncodeKeepsWord : Prop :=
  ∀ (p : Pos) (H : Option (BitVec 24)) (w : BitVec 32) (i : Instr) (stop : Bool),
    decodeSlot p H w = some (i, stop) →
    (encode p stop i).2 = w ∧ i.wf = true ∧ (i.pos = some p ∨ i = Instr.nop)

/-- Words written out from the spec's own encodings (R235, and the worked examples of the entries) decode to the instructions that
they stand for; a NOP word with another bit set, a reserved opcode of each slot's class, and an ERET with an operation beside
it are refused (R236, R249, R269). -/
def Obligations.SpecWordsDecode : Prop :=
  decodeSlot .x none 0x081ffffd#32 = some (.br 1#4 0xffffd#20, false) ∧
  decodeSlot .x none 0x01108283#32 = some (.loopi 0#4 1#2 5#8 3#7, false) ∧
  decodeSlot .s none 0x84629040#32 = some (.ldd 0#4 5#6 4#6 64#15, true) ∧
  decodeSlot .s none 0x060010a1#32 = some (.aadd 0#4 4#6 5#6 1#1, false) ∧
  decodeSlot .v none 0x001190a5#32 = some (.vadd 0#4 3#6 4#6 5#6 1#2 1#2, false) ∧
  decodeSlot .v none 0x06008001#32 = some (.mma 0#4 1#2 1#1, false) ∧
  decodeSlot .e none 0x01000005#32 = some (.fmap 0#4 0#6 5#5, false) ∧
  decodeSlot .e none 0x03a48000#32 = some (.rbrd 0#4 9#6, false) ∧
  decodeSlot .e none 0x81400000#32 = some (.fgo 0#4, true) ∧
  decodeBundle 0x800000000000000010140ce007f00080#128 =
    some ⟨⟨.hdr 0x00080#24, false⟩, ⟨.add 2#4 40#6 3#6 7#6, false⟩, ⟨.nop, false⟩, ⟨.nop, true⟩⟩ ∧
  decodeSlot .s none 0x00000001#32 = none ∧
  decodeSlot .x none 0x00500000#32 = none ∧ decodeSlot .x none 0x04000000#32 = none ∧ decodeSlot .s none 0x02600000#32 = none ∧
  decodeSlot .s none 0x07f00000#32 = none ∧ decodeSlot .v none 0x02e00000#32 = none ∧ decodeSlot .v none 0x07000000#32 = none ∧
  decodeSlot .e none 0x01700000#32 = none ∧ decodeSlot .e none 0x04000000#32 = none ∧
  decodeBundle 0x00000000000000000010000002500000#128 = none

/-! ## Steps and reset -/

/-- When the 16 bytes at the program counter decode to a bundle whose one operation is i, and no rule holds the bundle back (R192,
R240 to R245), a step is exec of i at that state and the boundary after it; the step adds the next cycle, the turn's
bookkeeping and the core's event counters (log 1 to log 3). -/
def Obligations.StepRunsDecoded : Prop :=
  ∀ (s u v t : State) (w : BitVec 128) (b : Bundle) (i : Instr),
    BundleNext s → (atBundle s).fetch = .bits w u → v = (u.withCtx fun c => { c with stepId := u.uid }) → v.ctx.phase = .normal →
    v.bundleTrap w = none → decodeBundle w = some b → Holds b i →
    v.interlock b = false → v.nullified (slotsOf b) = false → v.inSeg = false →
    exec i v = .next t →
    step s = .next ((((atBundle s).keepAhead (afterExec v b i t)).1.settleTurn (afterExec v b i t).2).countTurn
      s.chosen (afterExec v b i t).2)

/-- A step that an event takes performs the event's row on the state without it, where the event does not sleep on a page request
(R98) and no earlier one of its port has to go first (R51, log 3). R69, R233, R256: a fetch takes the 16 bytes that the
translated location holds, lowest byte first; an address that is not a multiple of 16 traps ALIGN, and one in the fixed region
traps PROT, both with the address in FADDR; where nothing was fetched ahead, a bundle is fetched at its program counter; what
an agent or the shipped handler runs comes from the agents' image (log 19, the model's choice). -/
def Obligations.StepsPerformEventsAndFetch : Prop :=
  (∀ (s u t : State) (k : Nat) (e : Ev),
      s.bootFailed = false → 7 ≤ s.stage → s.choice % 0x100000 = k + 1 → k < 65535 →
      u = s.chosen → u.agenda[k]? = some e → e.asleep = false → (∀ d ∈ u.agenda.take k, u.portAfter e d = false) →
      exec e.i { u with agenda := u.agenda.eraseIdx k, ev := e } = .next t →
      step s = .next (t.countEvent u e)) ∧
  (∀ s : State,
      (s.ctx.ahead = [] → s.fetch = s.fetchAt s.ctx.r.pc) ∧
      ∀ pc : Word,
        (pc.toNat % 16 ≠ 0 → s.fetchAt pc = .stop (s.fetchTrap cALIGN pc)) ∧
        (s.imageBytes pc = none ∨ ∃ bs, s.imageBytes pc = some bs ∧
          (pc.toNat % 16 = 0 → s.fetchAt pc = .bits (BitVec.ofNat 128 (bytesToNat bs)) s)) ∧
        (pc.toNat % 16 = 0 → s.imageBytes pc = none → fixedBase ≤ pc.toNat → s.fetchAt pc = .stop (s.fetchTrap cPROT pc)) ∧
        (∀ (t : State) (l : Nat) (nc : Bool), pc.toNat % 16 = 0 → s.imageBytes pc = none → pc.toNat < fixedBase →
          translate s (.core s.here) pc.toNat s.ctx.r.sup .fetch = (t, .ok l nc) →
          t.piecesWait t.strand t.here false [(l, 16, nc)] = false → t.isFenced l = false → t.poisonedAt l 16 = false →
          t.badCrcAt l 16 = false →
          ∃ b u, s.fetchAt pc = .bits b u ∧
            ∀ k, k < 16 → b.extractLsb' (8 * k) 8 = if isHbm l then t.byteAt (l + k) else t.byteFor t.here (l + k)))

/-- R9, R429: every register of the window after reset holds the value of its Reset column, and where the spec gives none the
model's (logs 6 and 7, the model's choice); bring-up has not begun, and no strand, page translation, event, engine command,
nest, NMU operation, collective or segment exists. Events, identities and their order are the model's own form (log 3). -/
def Obligations.ResetLeavesSpecValues : Prop :=
  (∀ o : Nat, State.reset.reg o = csrReset o) ∧
  (∀ T, T < 8 → State.reset.reg (oSDCAP T) = 0x1000#64 ∧ State.reset.reg (oERRCTL T) = 0x3e#64 ∧
    State.reset.reg (oDSPCTL T) = 0x20000014800#64 ∧ State.reset.reg (oFNCTL T) = 1#64 ∧ State.reset.reg (oTVEC T) = 0#64 ∧
    State.reset.reg (oCLKST T) = 800#64 ∧ State.reset.reg (oHCOMMIT T) = 0#64) ∧
  State.reset.reg oBOOTST = 0#64 ∧ State.reset.reg oTRROOT = 0#64 ∧
  State.reset.ctxs = [] ∧ State.reset.ctx.st = .stopped ∧ State.reset.tlb = [] ∧ State.reset.agenda = [] ∧
  State.reset.ctx.eq = [] ∧ State.reset.ctx.seg = none ∧ State.reset.core.nest = none ∧ State.reset.core.commits = [] ∧
  State.reset.core.nmuq = [] ∧ State.reset.cores = [] ∧ State.reset.fops = [] ∧ State.reset.colls = [] ∧ State.reset.gangs = []

/-- Every step keeps memory and the register window canonical: addresses strictly rising, no entry equal to what an unlisted
address reads as. Equal contents are then equal data. -/
def Obligations.StepKeepsCanonicalForm : Prop :=
  ∀ s t : State, Canonical s → step s = .next t → Canonical t

/-- The state after reset is canonical, and every word placed for a fetch keeps that form. -/
def Obligations.ResetIsCanonical : Prop :=
  Canonical State.reset ∧ ∀ n w : Nat, Canonical (State.reset.withFetchWord n w)

/-! ## Guards and privilege -/

/-- R244: an instruction whose guard is false has no effect, whatever its operands; a supervisor instruction at user level traps
whatever its guard, and is the next statement's. R244, R249: a supervisor instruction at user level takes the issue trap PRIV
of its slot, with no other effect, whatever its guard. -/
def Obligations.GuardsAndPrivilegeDecide : Prop :=
  (∀ (i : Instr) (g : BitVec 4) (s : State), Idle i g s → s.ctx.r.sup = true ∨ supOnly i = false → exec i s = .next s) ∧
  (∀ (i : Instr) (p : Pos) (s : State), supOnly i = true → i.pos = some p → s.ctx.r.sup = false →
      exec i s = .next (s.trapAt p cPRIV 0#64 0#64))

/-! ## Traps and returns -/

/-- R193: at depth 0 with a handler and a frame that can be written, taking a trap writes the frame, enters the handler and leaves
every general, vector, predicate, loop and staging register, and everything but the frame, as it was. Clauses that rest on
logs 25 and 14 are the model's choice and no rule of the spec. -/
def Obligations.TrapEntersHandler : Prop :=
  ∀ (s u : State) (k : Trap), s.ctx.r.deep = false → s.reg (oTVEC (twrOf s.here)) ≠ 0#64 →
    (s.withRegs Regs.settle).putFrame k = .ok u →
    InHandler s (takeTrap k s) ∧ SameBytes u (takeTrap k s) ∧ SameCsr u (takeTrap k s) ∧
    SameFile u.ctx.r (takeTrap k s).ctx.r ∧
    (takeTrap k s).ctx.flight = (u.ctx.flight.filter fun a => !a.replays).map fun a => { a with old := true }

/-- R194: a trap at depth 1, or with TVEC 0, is a double trap: the strand ends, its context frees once its loads have landed, and
no handler is entered. R270: EXIT outside a segment ends the strand after its bundle: its context issues nothing more and is
free once its loads have landed. -/
def Obligations.StrandsEnd : Prop :=
  (∀ (s : State) (k : Trap), s.ctx.st ≠ .stopped → s.ctx.r.deep = true ∨ s.reg (oTVEC (twrOf s.here)) = 0#64 →
      (takeTrap k s).ctx.phase = .left ∧ ((takeTrap k s).ctx.gone = true ∨ (takeTrap k s).ctx.st = .stopped)) ∧
  (∀ (s : State) (g : BitVec 4), s.on g = true → s.ctx.seg = none → s.ctx.st ≠ .stopped →
      ∃ t, exec (.exit g) s = .next t ∧ t.ctx.phase = .left ∧ (t.ctx.gone = true ∨ t.ctx.st = .stopped) ∧ SameBytes s t ∧
        ((s.ctx.flight.any fun a => isLoadInstr a.i) = false → t.ctx.st = .stopped))

/-- R195, Table 8-4: the head of the frame holds the cause, slot, level, replay count and loop states in word 0, then the program
counter, the bundle count, the fault's address and information, the twelve loop registers, and s56 to s63. -/
def Obligations.FrameRecordsTrap : Prop :=
  ∀ (c : Ctx) (k : Trap) (n : Nat) (q : List Word), n ≤ 48 → k.kind ≠ .alq →
    (frameHead c k n q).length = 32 ∧
    bits ((frameHead c k n q).getD 0 0#64) 7 0 = k.cause.toNat ∧
    bits ((frameHead c k n q).getD 0 0#64) 11 10 = k.slot.toNat ∧
    (((frameHead c k n q).getD 0 0#64).getLsbD 12 = c.r.sup) ∧
    (((frameHead c k n q).getD 0 0#64).getLsbD 18 = c.sspend) ∧
    bits ((frameHead c k n q).getD 0 0#64) 23 20 = c.r.lact.toNat ∧
    (((frameHead c k n q).getD 0 0#64).getLsbD 24 = c.r.ssm) ∧
    (((frameHead c k n q).getD 0 0#64).getLsbD 25 = c.r.ssq) ∧
    bits ((frameHead c k n q).getD 0 0#64) 31 26 = n ∧
    (frameHead c k n q).getD 1 0#64 = c.r.pc ∧ (frameHead c k n q).getD 2 0#64 = c.r.bc ∧
    (frameHead c k n q).getD 3 0#64 = k.faddr ∧ (frameHead c k n q).getD 4 0#64 = k.finfo ∧
    (∀ j, j < 12 → (frameHead c k n q).getD (6 + j) 0#64 = c.r.lreg j) ∧
    (∀ j, j < 8 → (frameHead c k n q).getD (24 + j) 0#64 = c.r.sreg (BitVec.ofNat 6 (56 + j)))

/-- R200, R201: at supervisor level and depth 1, once the handler's loads, tile results and stores to the frame are done, ERET
from a frame that breaks no rule, names no faulted ALQ entry and no queue to resume, and whose replay entries are legal and
need not wait, restores the program counter, the bundle count, the level, the loop states and single step from it. From a
frame without replay entries it restores the loop registers and s56 to s63 too, and every other register stays but for results
that land at this boundary (R243); u is the state once the frame is read. R200: ERET at trap depth 0 traps ILL. -/
def Obligations.EretReturns : Prop :=
  (∀ (s v u : State) (g : BitVec 4) (h : List Word) (l : List Replay),
      s.ctx.r.sup = true → s.on g = true → s.ctx.r.deep = true → s.handlerBusy = false →
      s.getWordsVA (.core s.here) s.here s.ctx.r.tfb 32 = .ok (h, v) → frameOk h = true →
      v.readEntries s.here (s.ctx.r.tfb + 0x100#64) (bits (h.getD 0 0#64) 31 26) = .ok (some l, u) → u.replayWaits l = false →
      h.getD 18 0#64 = 0#64 → (h.getD 0 0#64).getLsbD 14 = false →
      ∃ t, exec (.eret g) s = .next t ∧
        t.ctx.r.pc = h.getD 1 0#64 ∧ t.ctx.r.bc = h.getD 2 0#64 ∧ t.ctx.r.sup = (h.getD 0 0#64).getLsbD 12 ∧
        t.ctx.r.deep = false ∧ t.ctx.r.lact.toNat = bits (h.getD 0 0#64) 23 20 ∧ t.ctx.r.ssm = (h.getD 0 0#64).getLsbD 24 ∧
        t.ctx.r.ssq = (h.getD 0 0#64).getLsbD 25 ∧ t.ctx.npc = none ∧
        (l = [] →
          (∀ k, k < 4 → t.ctx.r.lreg k = h.getD (6 + k) 0#64 &&& 0xffffffff#64) ∧
          (∀ k, 4 ≤ k → k < 12 → t.ctx.r.lreg k = h.getD (6 + k) 0#64 &&& ~~~0xf#64) ∧
          (∀ k, k < 8 → t.ctx.r.sreg (BitVec.ofNat 6 (56 + k)) = h.getD (24 + k) 0#64) ∧
          (∀ n : BitVec 6, n.toNat < 56 → t.ctx.r.sreg n = (tickPend u.ctx.r).sreg n) ∧
          t.ctx.r.v = (tickPend u.ctx.r).v ∧ t.ctx.r.p = (tickPend u.ctx.r).p ∧ t.ctx.r.g = (tickPend u.ctx.r).g ∧
          SameBytes u t ∧ SameCsr u t)) ∧
  (∀ (s : State) (g : BitVec 4), s.ctx.r.sup = true → s.on g = true → s.ctx.r.deep = false →
      exec (.eret g) s = .next (s.trapAt .x 0x01#8 0#64 0#64))

/-- R268: TRAP with a true guard, and TRAPB whose value is not below its bound, enter the handler after the bundle with cause
SWTRAP and their code in FINFO; beside an ASSAY that awaits its outcome the trap stays due at the boundary (log 63, the
model's choice); a TRAPB whose test passes has no effect. -/
def Obligations.SoftwareTraps : Prop :=
  (∀ (s u : State) (g : BitVec 4) (code : BitVec 8), s.on g = true → s.ctx.r.deep = false → s.ctx.due = [] →
    s.ctx.assays = [] → (s.ctx.flight.any fun a => a.flt) = false → s.ctx.r.ssm = false → s.reg (oTVEC (twrOf s.here)) ≠ 0#64 →
    (boundaryOf s).putFrame (swTrapOf code.toNat) = .ok u →
    ∃ t, exec (.trap g code) s = .next t ∧ InHandler s t ∧ SameBytes u t ∧ SameCsr u t ∧ SameFile u.ctx.r t.ctx.r) ∧
  (∀ (s u : State) (g : BitVec 4) (code : BitVec 5) (a : BitVec 5) (bound : BitVec 10), s.on g = true → s.ctx.r.deep = false →
    s.ctx.due = [] → s.ctx.assays = [] → (s.ctx.flight.any fun a => a.flt) = false → s.ctx.r.ssm = false →
    s.reg (oTVEC (twrOf s.here)) ≠ 0#64 → bound.toNat ≤ (s.sr (a.setWidth 6)).toNat →
    (boundaryOf s).putFrame (swTrapOf code.toNat) = .ok u →
    ∃ t, exec (.trapb g code a bound) s = .next t ∧ InHandler s t ∧ SameBytes u t ∧ SameCsr u t ∧ SameFile u.ctx.r t.ctx.r) ∧
  (∀ (s : State) (g : BitVec 4) (code : BitVec 8), s.on g = true → s.ctx.r.deep = false → s.ctx.r.ssm = false → s.ctx.assays ≠ [] →
    ∃ t, exec (.trap g code) s = .next t ∧ t.ctx.phase = .done ∧ t.ctx.due = s.ctx.due ++ [swTrapOf code.toNat] ∧ t.ctx.r.deep = false ∧
      SameBytes s t ∧ SameCsr s t) ∧
  (∀ (s : State) (g : BitVec 4) (code : BitVec 5) (a : BitVec 5) (bound : BitVec 10),
    (s.sr (a.setWidth 6)).toNat < bound.toNat → exec (.trapb g code a bound) s = .next s)

/-! ## Control flow -/

/-- R255: the words of the branch family decode as Table 11-1 says; BR and BRL go to the program counter plus 16 times a signed
offset, JR and JRL to a register; BRL and JRL write the address of the next bundle to their link. Nothing else changes. -/
def Obligations.BranchesSetTarget : Prop :=
  Coded .x 0x01#7 (fun g x => some (.br g x)) ∧ Coded .x 0x02#7 (fun g x => some (.brl g x)) ∧
  Coded .x 0x03#7 (fun g x => if fd x = 0#5 ∧ fb x = 0#5 ∧ ff x = 0#5 then some (.jr g (fa x)) else none) ∧
  Coded .x 0x04#7 (fun g x => if fb x = 0#5 ∧ ff x = 0#5 then some (.jrl g (fd x) (fa x)) else none) ∧
  ∀ (s : State) (g : BitVec 4), s.on g = true →
    (∀ off : BitVec 20, ∃ t, exec (.br g off) s = .next t ∧
      t.ctx = { s.ctx with npc := some (BitVec.ofInt 64 (s.ctx.r.pc.toNat + 16 * off.toInt)) } ∧ OnlyCtx s t) ∧
    (∀ a : BitVec 5, ∃ t, exec (.jr g a) s = .next t ∧
      t.ctx = { s.ctx with npc := some (s.sr (a.setWidth 6)) } ∧ OnlyCtx s t) ∧
    (∀ off : BitVec 20, ∃ t, exec (.brl g off) s = .next t ∧ Awaits (.brl g off) s t 1 .x [.s 31#6 (s.ctx.r.pc + 16#64)] ∧
      t.ctx = { s.ctx with npc := some (BitVec.ofInt 64 (s.ctx.r.pc.toNat + 16 * off.toInt))
                           r := { s.ctx.r with pend := t.ctx.r.pend } } ∧ OnlyCtx s t) ∧
    (∀ d a : BitVec 5, ∃ t, exec (.jrl g d a) s = .next t ∧ Awaits (.jrl g d a) s t 1 .x [.s (d.setWidth 6) (s.ctx.r.pc + 16#64)] ∧
      t.ctx = { s.ctx with npc := some (s.sr (a.setWidth 6)), r := { s.ctx.r with pend := t.ctx.r.pend } } ∧ OnlyCtx s t)

/-- R258: LOOP and LOOPI with a count above 0 start their level at the next bundle; a count of 0 skips to the bundle after the end
and leaves the level inactive. R262: LBRK of an active level ends it and the levels above it and goes past its end; of an
inactive one it has no effect. MTL writes a loop register for the next bundle, or three bundles on for the addresses of an
active level (R260, R261); MFL reads one. Clauses that rest on log 14 are the model's choice and no rule of the spec. -/
def Obligations.LoopsStartAndBreak : Prop :=
  (∀ (s : State) (g : BitVec 4) (lv : BitVec 2), s.on g = true → s.ctx.r.pc.toNat % 16 = 0 →
      (∀ (n : BitVec 8) (dist : BitVec 7), n ≠ 0#8 → ∃ t, exec (.loopi g lv n dist) s = .next t ∧
        Started s t lv.toNat (n.setWidth 64) (s.ctx.r.pc + BitVec.ofNat 64 (16 * dist.toNat))) ∧
      (∀ dist : BitVec 7, ∃ t, exec (.loopi g lv 0#8 dist) s = .next t ∧
        t.ctx.npc = some (s.ctx.r.pc + BitVec.ofNat 64 (16 * dist.toNat + 16)) ∧
        t.ctx.r.lact = s.ctx.r.lact &&& ~~~(1#4 <<< lv.toNat) ∧ SameFile s.ctx.r t.ctx.r ∧ SameBytes s t ∧ SameCsr s t) ∧
      (∀ (a : BitVec 5) (dist : BitVec 10), dist ≠ 0#10 → (s.sr (a.setWidth 6)).setWidth 32 ≠ 0#32 →
        ∃ t, exec (.loop g lv a dist) s = .next t ∧
          Started s t lv.toNat (((s.sr (a.setWidth 6)).setWidth 32).setWidth 64)
            (s.ctx.r.pc + BitVec.ofNat 64 (16 * dist.toNat))) ∧
      (∀ a : BitVec 5, (s.sr (a.setWidth 6)).setWidth 32 ≠ 0#32 → ∃ t, exec (.loop g lv a 0#10) s = .next t ∧
          Started s t lv.toNat (((s.sr (a.setWidth 6)).setWidth 32).setWidth 64)
            (s.ctx.r.lreg (8 + lv.toNat) &&& ~~~0xf#64)) ∧
      (∀ (a : BitVec 5) (dist : BitVec 10), dist ≠ 0#10 → (s.sr (a.setWidth 6)).setWidth 32 = 0#32 →
        ∃ t, exec (.loop g lv a dist) s = .next t ∧
          t.ctx.npc = some (s.ctx.r.pc + BitVec.ofNat 64 (16 * dist.toNat + 16)) ∧
          t.ctx.r.lact = s.ctx.r.lact &&& ~~~(1#4 <<< lv.toNat) ∧ SameFile s.ctx.r t.ctx.r ∧ SameBytes s t ∧ SameCsr s t)) ∧
  (Coded .x 0x12#7 (fun g x => if (fd x).toNat < 4 ∧ fa x = 0#5 ∧ fb x = 0#5 ∧ ff x = 0#5 then some (.lbrk g ((fd x).setWidth 2))
      else none) ∧
    ∀ (s : State) (g : BitVec 4), s.on g = true →
      (∀ lv : BitVec 2, s.ctx.r.lact.getLsbD lv.toNat = true → ∃ t, exec (.lbrk g lv) s = .next t ∧
        (∀ j, j < 4 → t.ctx.r.lact.getLsbD j = (s.ctx.r.lact.getLsbD j && decide (j < lv.toNat))) ∧
        t.ctx.npc = some (s.ctx.r.lreg (8 + lv.toNat) + 16#64) ∧ SameFile s.ctx.r t.ctx.r ∧ t.ctx.r.pend = s.ctx.r.pend ∧
        SameBytes s t ∧ SameCsr s t) ∧
      (∀ lv : BitVec 2, s.ctx.r.lact.getLsbD lv.toNat = false → exec (.lbrk g lv) s = .next s) ∧
      (∀ (k : BitVec 4) (a : BitVec 5), Returns (.mtl g k a) s
        (if k.toNat < 4 then 1 else if s.ctx.r.lact.getLsbD (k.toNat % 4) then 3 else 1) .x [.l k (s.sr (a.setWidth 6))]) ∧
      (∀ (d : BitVec 5) (k : BitVec 4), Returns (.mfl g d k) s 1 .x [.s (d.setWidth 6) (s.ctx.r.lreg k.toNat)]))

/-- R12, R259: the boundary after a bundle counts it; a transfer of control goes to its target; else the innermost active level
whose end is this bundle returns to its start with a count above 1 and ends with a count of 1 or 0; else the next bundle
follows. R264, R265: YIELD and PAUSE make a yield point due after the bundle, with the declared run of the YIELD, and none in
a trap handler. NOP and the header have no effect of their own (R236, R272). -/
def Obligations.BoundariesAndYieldPoints : Prop :=
  (∀ s : State,
      ((finishBundle s.ctx.r s).ctx.r.bc = s.ctx.r.bc + 1#64 ∧ (finishBundle s.ctx.r s).ctx.npc = none) ∧
      (∀ a, s.ctx.npc = some a → (finishBundle s.ctx.r s).ctx.r.pc = a ∧ (finishBundle s.ctx.r s).ctx.r.lact = s.ctx.r.lact) ∧
      (s.ctx.npc = none → (∀ k, k < 4 → s.ctx.r.lact.getLsbD k = true → s.ctx.r.lreg (8 + k) ≠ s.ctx.r.pc) →
        (finishBundle s.ctx.r s).ctx.r.pc = s.ctx.r.pc + 16#64 ∧ (finishBundle s.ctx.r s).ctx.r.lact = s.ctx.r.lact) ∧
      (∀ k, k < 4 → s.ctx.npc = none → s.ctx.lset = 0#4 → s.ctx.r.pend = [] → s.ctx.r.lact.getLsbD k = true →
        s.ctx.r.lreg (8 + k) = s.ctx.r.pc →
        (∀ j, j < 4 → k < j → s.ctx.r.lact.getLsbD j = true → s.ctx.r.lreg (8 + j) ≠ s.ctx.r.pc) →
        1 < (s.ctx.r.lreg k).toNat →
        (finishBundle s.ctx.r s).ctx.r.pc = s.ctx.r.lreg (4 + k) ∧ (finishBundle s.ctx.r s).ctx.r.lact = s.ctx.r.lact ∧
        (finishBundle s.ctx.r s).ctx.r.lreg k = ((s.ctx.r.lreg k - 1#64).setWidth 32).setWidth 64 ∧
        ∀ j, j < 12 → j ≠ k → (finishBundle s.ctx.r s).ctx.r.lreg j = s.ctx.r.lreg j) ∧
      (∀ k, k < 4 → s.ctx.npc = none → s.ctx.lset = 0#4 → s.ctx.r.lact.getLsbD k = true → s.ctx.r.lreg (8 + k) = s.ctx.r.pc →
        (∀ j, j < 4 → j ≠ k → s.ctx.r.lact.getLsbD j = true → s.ctx.r.lreg (8 + j) ≠ s.ctx.r.pc) →
        (s.ctx.r.lreg k).toNat ≤ 1 →
        (finishBundle s.ctx.r s).ctx.r.pc = s.ctx.r.pc + 16#64 ∧
        ∀ j, j < 4 → (finishBundle s.ctx.r s).ctx.r.lact.getLsbD j = (s.ctx.r.lact.getLsbD j && decide (j ≠ k)))) ∧
  (∀ (s : State) (g : BitVec 4),
      (∀ n : BitVec 16, s.on g = true → s.ctx.r.deep = false → ∃ t, exec (.yield g n) s = .next t ∧
        t.ctx = { s.ctx with yreq := some (n.toNat + 1) } ∧ OnlyCtx s t) ∧
      (s.on g = true → s.ctx.r.deep = false → ∃ t, exec (.pause g) s = .next t ∧
        t.ctx = { s.ctx with yreq := some 0 } ∧ OnlyCtx s t) ∧
      (∀ n : BitVec 16, s.ctx.r.deep = true → exec (.yield g n) s = .next s) ∧
      (s.ctx.r.deep = true → exec (.pause g) s = .next s) ∧
      exec .nop s = .next s ∧ ∀ h : BitVec 24, exec (.hdr h) s = .next s)

/-- R143, R144, R266: SEG at user level with every bank of its mask held and every variable-latency result and ALQ value arrived
opens a segment after its bundle whose image is the strand at the next bundle; an open segment closes first. Where only its
own bundle's results are still to come, the segment opens at the boundary once they have landed; what earlier bundles issued
freezes it (log 16, the model's choice). A mask with a bank not held traps BANK; at supervisor level SEG has no effect. R147:
the first rewind of a segment restores the rewind buffer's registers, drops the held stores and the unsealed engine commands
of the segment, and counts itself; of the traps due only those of accesses and commands that stay are still due. -/
def Obligations.SegmentsOpenAndRewind : Prop :=
  (∀ (s : State) (g : BitVec 4) (a : BitVec 5) (f : BitVec 1), s.on g = true →
      (s.ctx.r.sup = false → s.ctx.seg = none →
        (∀ b, b < 32 → ((s.sr (a.setWidth 6)).setWidth 32 : BitVec 32).getLsbD b = true → s.mine b = true) →
        (∀ q ∈ s.ctx.flight, isLoadInstr q.i = false) → (∀ e ∈ s.ctx.r.alq, e.valid = true) →
        (∀ q ∈ s.core.nmuq, s.ownOp q.x q.tag = false) →
        ∃ t, exec (.seg g a f) s = .next t ∧ t.ctx.phase = .done ∧ t.ctx.r.bc = s.ctx.r.bc + 1#64 ∧ SameBytes s t ∧ SameCsr s t ∧
          t.ctx.seg = some { mask := (s.sr (a.setWidth 6)).setWidth 32, aflag := f == 1#1, rewinds := 0, img := t.ctx.r,
                             held := [], halves := [] }) ∧
      (∀ u : State, s.ctx.r.sup = false → s.lacking ((s.sr (a.setWidth 6)).setWidth 32) = 0#32 → s.closeSeg = (u, true) →
        u.settled = true →
        ∃ t, exec (.seg g a f) s = .next t ∧ t.ctx.phase = .done ∧ t.ctx.r.bc = u.ctx.r.bc + 1#64 ∧ SameBytes u t ∧ SameCsr u t ∧
          t.ctx.seg = some { mask := (s.sr (a.setWidth 6)).setWidth 32, aflag := f == 1#1, rewinds := 0, img := t.ctx.r,
                             held := [], halves := [] }) ∧
      (∀ u : State, s.ctx.r.sup = false → s.lacking ((s.sr (a.setWidth 6)).setWidth 32) = 0#32 → s.closeSeg = (u, true) → u.settled = false →
        (u.settledOf u.ctx.earlier = true → ∃ t, exec (.seg g a f) s = .next t ∧
          t.ctx = { u.ctx with post := u.ctx.post ++ [.segment ((s.sr (a.setWidth 6)).setWidth 32) (f == 1#1)] } ∧ OnlyCtx u t) ∧
        (u.settledOf u.ctx.earlier = false → ∃ t, exec (.seg g a f) s = .next t ∧ t.ctx = { u.ctx with phase := .frozen } ∧ OnlyCtx u t)) ∧
      (∀ (m : BitVec 32) (l : List Post), s.ctx.post = .segment m (f == 1#1) :: l →
        (s.settled = true → ∃ u : State, s.runPost s.ctx.post = u.runPost l ∧ OnlyCtx s u ∧ u.ctx.r = s.ctx.r ∧
          u.ctx.seg = some { mask := m, aflag := f == 1#1, rewinds := 0, img := s.ctx.r, held := [], halves := [] }) ∧
        (s.settled = false → s.runPost s.ctx.post = (s, some .frozen))) ∧
      (s.ctx.r.sup = false → s.lacking ((s.sr (a.setWidth 6)).setWidth 32) ≠ 0#32 →
        exec (.seg g a f) s = .next (s.trapAt .x 0x09#8 0#64 0#64)) ∧
      (s.ctx.r.sup = true → exec (.seg g a f) s = .next s)) ∧
  (∀ (s : State) (g : Seg) (cls : Nat) (addr : Word), s.ctx.seg = some g → g.rewinds = 0 →
      (s.rewind cls addr).ctx.r = g.img ∧ (s.rewind cls addr).ctx.phase = .issueTrap ∧
      (∀ d, d ∈ (s.rewind cls addr).ctx.due ↔ d ∈ s.ctx.due ∧
        ((d.kind = .completion ∧ ∃ a ∈ (s.rewind cls addr).ctx.flight, a.id = d.acc) ∨
         (d.kind = .async ∧ ∃ c ∈ (s.rewind cls addr).ctx.eq, c.faulted = true))) ∧
      (s.rewind cls addr).ctx.flight = s.ctx.flight.filter (fun a => !isLoadInstr a.i || decide (a.bc.toInt < g.img.bc.toInt)) ∧
      (s.rewind cls addr).ctx.seg = some { g with rewinds := 1, held := [], bad := false, halves := [] } ∧
      (s.rewind cls addr).ctx.eq = s.ctx.eq.filter fun c => !c.seg)

/-- R267, R294: BARA and RDV wait for what earlier bundles issued, arrive at their counter and drain before the next bundle; after
an RDV the strand waits at the boundary while its round is open, then its record is cleared, its later loads are ordered
(R110, R126) and a segment opens over the banks still held (log 16, the model's choice of where the wait stands). BARW goes on
when no round is open for the strand's record, clears it and orders the later loads. Events, identities and their order are
the model's own form (log 3). -/
def Obligations.BarriersArriveAndWait : Prop :=
  ∀ (s : State) (g : BitVec 4) (twr : BitVec 1) (k : BitVec 6), s.on g = true →
    (s.ctx.seg = none → s.drainedOf (fun a => s.ctx.earlier a.id) 3#3 (2 + twr.toNat) = true →
      (∃ t, exec (.bara g twr k) s = .next t ∧
        t.ctx.r.barw = { id := s.uid + 1, recorded := true, twr := twr == 1#1, idx := k.setWidth 8 } ∧
        t.agenda = s.agenda ++ [{ i := .barrierArrival, x := s.me, y := counterAt s.here (twr == 1#1) k.toNat, z := s.uid + 1,
                                  w := s.ctx.r.bc }] ∧
        t.ctx.drn = s.ctx.drn ||| 3#3 ∧ t.ctx.post = s.ctx.post ∧ SameFile s.ctx.r t.ctx.r ∧ SameBytes s t ∧ SameCsr s t) ∧
      (∃ t, exec (.rdv g twr k) s = .next t ∧ t.ctx.phase = s.ctx.phase ∧
        t.ctx.r.barw = { id := s.uid + 1, waiting := true, recorded := true, twr := twr == 1#1, idx := k.setWidth 8 } ∧
        t.agenda = s.agenda ++ [{ i := .barrierArrival, x := s.me, y := counterAt s.here (twr == 1#1) k.toNat, z := s.uid + 1,
                                  w := s.ctx.r.bc }] ∧
        t.ctx.drn = s.ctx.drn ||| 3#3 ∧
        t.ctx.post = s.ctx.post ++ .round twr k :: (if s.ctx.r.sup then [] else [.reopen]) ∧ SameFile s.ctx.r t.ctx.r ∧
        SameBytes s t ∧ SameCsr s t)) ∧
    (s.ctx.seg = none → s.drainedOf (fun a => s.ctx.earlier a.id) 3#3 (2 + twr.toNat) = false →
      ∃ t, exec (.bara g twr k) s = .next t ∧ exec (.rdv g twr k) s = .next t ∧ t.ctx = { s.ctx with phase := .frozen } ∧ OnlyCtx s t) ∧
    (∀ l : List Post, s.ctx.post = .round twr k :: l →
      (s.roundOpen twr k = true → s.runPost s.ctx.post = (s, some .blocked)) ∧
      (s.roundOpen twr k = false → s.recordNames twr k = true → s.drained 2#3 (2 + twr.toNat) = true →
        ∃ u : State, s.runPost s.ctx.post = u.runPost l ∧ u.ctx = { s.ctx with r := { s.ctx.r with barw := {} } } ∧
          (∀ v ∈ u.inval, v.core = s.here → v.acc = false) ∧ SameBytes s u ∧ SameCsr s u)) ∧
    (∀ l : List Post, s.ctx.post = .reopen :: l →
      (s.settled = false → s.runPost s.ctx.post = (s, some .frozen)) ∧
      (s.settled = true → ∃ u : State, s.runPost s.ctx.post = u.runPost l ∧ OnlyCtx s u ∧ u.ctx.r = s.ctx.r ∧
        ∃ m : BitVec 32, (∀ b, b < 32 → (m.getLsbD b = true ↔ s.ctx.segMask.getLsbD b = true ∧ s.mine b = true)) ∧
          u.ctx.seg = some { mask := m, aflag := s.ctx.segA, rewinds := 0, img := s.ctx.r, held := [], halves := [] })) ∧
    (s.recordNames twr k = true → s.roundOpen twr k = false → ∃ t, exec (.barw g twr k) s = .next t ∧
      t.ctx.r.barw = {} ∧ t.ctx.drn = s.ctx.drn ||| 2#3 ∧ (∀ v ∈ t.inval, v.core = s.here → v.acc = false) ∧ SameFile s.ctx.r t.ctx.r ∧
      SameBytes s t ∧ SameCsr s t) ∧
    (s.recordNames twr k = false → ∃ t, exec (.barw g twr k) s = .next t ∧ t.ctx.r = s.ctx.r ∧
      t.ctx.drn = s.ctx.drn ||| 2#3 ∧ SameBytes s t ∧ SameCsr s t) ∧
    (s.roundOpen twr k = true → ∃ t, exec (.barw g twr k) s = .next t ∧ t.ctx.phase = .blocked ∧ SameFile s.ctx.r t.ctx.r ∧
      SameBytes s t ∧ SameCsr s t)

/-! ## Scalar results -/

/-- R273, R274: the words of Table 11-8 decode as it says; the two-operand arithmetic of the S slot lands in its destination at
latency 1: sums and differences modulo 2^64, bitwise operations, shifts and rotations by the low six bits, and the signed and
unsigned smaller and larger. -/
def Obligations.ScalarArithmeticResults : Prop :=
  Coded .s 0x01#7 (three .add) ∧ Coded .s 0x02#7 (three .sub) ∧ Coded .s 0x0b#7 (three .and) ∧ Coded .s 0x0c#7 (three .or) ∧
  Coded .s 0x0d#7 (three .xor) ∧ Coded .s 0x11#7 (three .shl) ∧ Coded .s 0x12#7 (three .shr) ∧ Coded .s 0x13#7 (three .sar) ∧
  Coded .s 0x17#7 (three .rotr) ∧ Coded .s 0x1b#7 (three .mins) ∧ Coded .s 0x1c#7 (three .maxs) ∧ Coded .s 0x1d#7 (three .minu) ∧
  Coded .s 0x1e#7 (three .maxu) ∧
  ∀ (s : State) (g : BitVec 4) (d a b : BitVec 6), s.on g = true →
    Returns (.add g d a b) s 1 .s [.s d (BitVec.ofNat 64 ((s.sr a).toNat + (s.sr b).toNat))] ∧
    Returns (.sub g d a b) s 1 .s [.s d (BitVec.ofInt 64 ((s.sr a).toInt - (s.sr b).toInt))] ∧
    Returns (.and g d a b) s 1 .s [.s d (s.sr a &&& s.sr b)] ∧
    Returns (.or g d a b) s 1 .s [.s d (s.sr a ||| s.sr b)] ∧
    Returns (.xor g d a b) s 1 .s [.s d (s.sr a ^^^ s.sr b)] ∧
    Returns (.shl g d a b) s 1 .s [.s d (BitVec.ofNat 64 ((s.sr a).toNat * 2 ^ ((s.sr b).toNat % 64)))] ∧
    Returns (.shr g d a b) s 1 .s [.s d (BitVec.ofNat 64 ((s.sr a).toNat / 2 ^ ((s.sr b).toNat % 64)))] ∧
    Returns (.sar g d a b) s 1 .s [.s d (BitVec.ofInt 64 ((s.sr a).toInt / 2 ^ ((s.sr b).toNat % 64)))] ∧
    Returns (.rotr g d a b) s 1 .s
      [.s d ((s.sr a >>> ((s.sr b).toNat % 64)) ||| (s.sr a <<< (64 - (s.sr b).toNat % 64)))] ∧
    Returns (.mins g d a b) s 1 .s [.s d (if (s.sr b).slt (s.sr a) then s.sr b else s.sr a)] ∧
    Returns (.maxs g d a b) s 1 .s [.s d (if (s.sr a).slt (s.sr b) then s.sr b else s.sr a)] ∧
    Returns (.minu g d a b) s 1 .s [.s d (if (s.sr b).ult (s.sr a) then s.sr b else s.sr a)] ∧
    Returns (.maxu g d a b) s 1 .s [.s d (if (s.sr a).ult (s.sr b) then s.sr b else s.sr a)] ∧
    (∀ imm : BitVec 15,
      Returns (.addi g d a imm) s 1 .s [.s d (BitVec.ofInt 64 ((s.sr a).toInt + imm.toInt))] ∧
      Returns (.andi g d a imm) s 1 .s [.s d (s.sr a &&& BitVec.ofInt 64 imm.toInt)] ∧
      Returns (.ori g d a imm) s 1 .s [.s d (s.sr a ||| BitVec.ofInt 64 imm.toInt)] ∧
      Returns (.xori g d a imm) s 1 .s [.s d (s.sr a ^^^ BitVec.ofInt 64 imm.toInt)]) ∧
    (∀ k : BitVec 6,
      Returns (.shli g d a k) s 1 .s [.s d (BitVec.ofNat 64 ((s.sr a).toNat * 2 ^ k.toNat))] ∧
      Returns (.shri g d a k) s 1 .s [.s d (BitVec.ofNat 64 ((s.sr a).toNat / 2 ^ k.toNat))] ∧
      Returns (.sari g d a k) s 1 .s [.s d (BitVec.ofInt 64 ((s.sr a).toInt / 2 ^ k.toNat))])

/-- R275: the words of Table 11-10 decode as it says; products land at latency 3, the high halves those of the signed and the
unsigned 128-bit product; quotients and remainders land at latency 12, toward zero with the sign of the dividend; a zero
divisor gives all ones and the dividend, and no trap. -/
def Obligations.MultiplyDivideResults : Prop :=
  Coded .s 0x04#7 (three .mul) ∧ Coded .s 0x05#7 (three .mulhs) ∧ Coded .s 0x06#7 (three .mulhu) ∧ Coded .s 0x07#7 (three .divs) ∧
  Coded .s 0x08#7 (three .divu) ∧ Coded .s 0x09#7 (three .rems) ∧ Coded .s 0x0a#7 (three .remu) ∧
  ∀ (s : State) (g : BitVec 4) (d a b : BitVec 6), s.on g = true →
    Returns (.mul g d a b) s 3 .s [.s d (BitVec.ofInt 64 ((s.sr a).toInt * (s.sr b).toInt))] ∧
    Returns (.mulhs g d a b) s 3 .s [.s d (((s.sr a).signExtend 128 * (s.sr b).signExtend 128).extractLsb' 64 64)] ∧
    Returns (.mulhu g d a b) s 3 .s [.s d (((s.sr a).setWidth 128 * (s.sr b).setWidth 128).extractLsb' 64 64)] ∧
    (s.sr b ≠ 0#64 →
      Returns (.divs g d a b) s 12 .s [.s d ((s.sr a).sdiv (s.sr b))] ∧
      Returns (.divu g d a b) s 12 .s [.s d (s.sr a / s.sr b)] ∧
      Returns (.rems g d a b) s 12 .s [.s d ((s.sr a).srem (s.sr b))] ∧
      Returns (.remu g d a b) s 12 .s [.s d (s.sr a % s.sr b)]) ∧
    (s.sr b = 0#64 →
      Returns (.divs g d a b) s 12 .s [.s d 0xffffffffffffffff#64] ∧
      Returns (.divu g d a b) s 12 .s [.s d 0xffffffffffffffff#64] ∧
      Returns (.rems g d a b) s 12 .s [.s d (s.sr a)] ∧
      Returns (.remu g d a b) s 12 .s [.s d (s.sr a)])

/-- R276, R277: counts of leading and trailing zeros and of set bits, the magnitude, moves, selection, and the bit fields, whose
position is bits [5:0] and length bits [13:8] of the second operand with 0 meaning 64, cut at bit 63. -/
def Obligations.ScalarBitResults : Prop :=
  ∀ (s : State) (g : BitVec 4) (d a b : BitVec 6), s.on g = true →
    (s.sr a = 0#64 → Returns (.clz g d a) s 1 .s [.s d 64#64] ∧ Returns (.ctz g d a) s 1 .s [.s d 64#64]) ∧
    (∀ n, n < 64 → (s.sr a).getLsbD (63 - n) = true → (∀ j, 63 - n < j → (s.sr a).getLsbD j = false) →
      Returns (.clz g d a) s 1 .s [.s d (BitVec.ofNat 64 n)]) ∧
    (∀ n, n < 64 → (s.sr a).getLsbD n = true → (∀ j, j < n → (s.sr a).getLsbD j = false) →
      Returns (.ctz g d a) s 1 .s [.s d (BitVec.ofNat 64 n)]) ∧
    Returns (.popc g d a) s 1 .s [.s d (BitVec.ofNat 64 ((List.range 64).filter fun k => (s.sr a).getLsbD k).length)] ∧
    Returns (.abs g d a) s 1 .s [.s d (if (s.sr a).msb then 0#64 - s.sr a else s.sr a)] ∧
    Returns (.mov g d a) s 1 .s [.s d (s.sr a)] ∧
    (∀ imm : BitVec 20, Returns (.movi g d imm) s 1 .s [.s d (BitVec.ofInt 64 imm.toInt)]) ∧
    (∀ imm : BitVec 16, Returns (.movhi g d imm) s 1 .s [.s d (BitVec.ofNat 64 ((s.sr d).toNat * 65536 + imm.toNat))]) ∧
    (∀ p : BitVec 4, Returns (.sel g d a b p) s 1 .s [.s d (if (s.pr p).getLsbD 0 then s.sr a else s.sr b)]) ∧
    (∀ p n : Nat, p = (s.sr b).toNat % 64 →
      n = min (if (s.sr b).toNat / 256 % 64 = 0 then 64 else (s.sr b).toNat / 256 % 64) (64 - p) →
      Returns (.bfx g d a b 0#1) s 1 .s [.s d (BitVec.ofNat 64 ((s.sr a).toNat / 2 ^ p % 2 ^ n))] ∧
      Returns (.bfx g d a b 1#1) s 1 .s
        [.s d (BitVec.ofInt 64 (if (s.sr a).toNat / 2 ^ p % 2 ^ n < 2 ^ (n - 1) then ((s.sr a).toNat / 2 ^ p % 2 ^ n : Nat)
          else ((s.sr a).toNat / 2 ^ p % 2 ^ n : Nat) - (2 ^ n : Nat)))] ∧
      ∃ x : BitVec 64, Returns (.bfi g d a b) s 1 .s [.s d x] ∧
        ∀ j, j < 64 → x.getLsbD j = if p ≤ j ∧ j < p + n then (s.sr a).getLsbD (j - p) else (s.sr d).getLsbD j)

/-- R278, R279: the words of Tables 11-13 and 11-14 decode as they say; compares write all 32 bits of their predicate with their
condition; predicate operations act bit by bit; PMOV takes the low 32 bits of a scalar and MFP extends a predicate with zeros. -/
def Obligations.PredicateResults : Prop :=
  Coded .s 0x30#7 (compare .cmpeq) ∧ Coded .s 0x31#7 (compare .cmpne) ∧ Coded .s 0x32#7 (compare .cmplt) ∧
  Coded .s 0x33#7 (compare .cmple) ∧ Coded .s 0x34#7 (compare .cmpltu) ∧ Coded .s 0x35#7 (compare .cmpleu) ∧
  Coded .s 0x36#7 (fun g x => if (fd x).toNat < 16 then some (.cmpeqi g ((fd x).setWidth 4) ((fa x).setWidth 6) ((x.setWidth 10).signExtend 15)) else none) ∧
  Coded .s 0x37#7 (fun g x => if (fd x).toNat < 16 then some (.cmplti g ((fd x).setWidth 4) ((fa x).setWidth 6) ((x.setWidth 10).signExtend 15)) else none) ∧
  Coded .s 0x38#7 (logic .pand) ∧ Coded .s 0x39#7 (logic .por) ∧ Coded .s 0x3a#7 (logic .pxor) ∧
  Coded .s 0x3b#7 (fun g x => if ff x = 0#5 ∧ fb x = 0#5 ∧ (fd x).toNat < 16 ∧ (fa x).toNat < 16 then some (.pnot g ((fd x).setWidth 4) ((fa x).setWidth 4)) else none) ∧
  Coded .s 0x3c#7 (fun g x => if ff x = 0#5 ∧ fb x = 0#5 ∧ (fd x).toNat < 16 then some (.pmov g ((fd x).setWidth 4) ((fa x).setWidth 6)) else none) ∧
  Coded .s 0x3d#7 (fun g x => if ff x = 0#5 ∧ fb x = 0#5 ∧ (fa x).toNat < 16 then some (.mfp g ((fd x).setWidth 6) ((fa x).setWidth 4)) else none) ∧
  ∀ (s : State) (g d : BitVec 4) (a b : BitVec 6), s.on g = true →
    Returns (.cmpeq g d a b) s 1 .s [.p d (if s.sr a = s.sr b then 0xffffffff#32 else 0#32) 0xffffffff#32] ∧
    Returns (.cmpne g d a b) s 1 .s [.p d (if s.sr a = s.sr b then 0#32 else 0xffffffff#32) 0xffffffff#32] ∧
    Returns (.cmplt g d a b) s 1 .s [.p d (if (s.sr a).slt (s.sr b) then 0xffffffff#32 else 0#32) 0xffffffff#32] ∧
    Returns (.cmple g d a b) s 1 .s [.p d (if (s.sr a).sle (s.sr b) then 0xffffffff#32 else 0#32) 0xffffffff#32] ∧
    Returns (.cmpltu g d a b) s 1 .s [.p d (if (s.sr a).ult (s.sr b) then 0xffffffff#32 else 0#32) 0xffffffff#32] ∧
    Returns (.cmpleu g d a b) s 1 .s [.p d (if (s.sr a).ule (s.sr b) then 0xffffffff#32 else 0#32) 0xffffffff#32] ∧
    (∀ imm : BitVec 15,
      Returns (.cmpeqi g d a imm) s 1 .s
        [.p d (if (s.sr a).toInt = imm.toInt then 0xffffffff#32 else 0#32) 0xffffffff#32] ∧
      Returns (.cmplti g d a imm) s 1 .s
        [.p d (if (s.sr a).toInt < imm.toInt then 0xffffffff#32 else 0#32) 0xffffffff#32]) ∧
    (∀ p q : BitVec 4,
      Returns (.pand g d p q) s 1 .s [.p d (s.pr p &&& s.pr q) 0xffffffff#32] ∧
      Returns (.por g d p q) s 1 .s [.p d (s.pr p ||| s.pr q) 0xffffffff#32] ∧
      Returns (.pxor g d p q) s 1 .s [.p d (s.pr p ^^^ s.pr q) 0xffffffff#32] ∧
      Returns (.pnot g d p) s 1 .s [.p d (s.pr p ^^^ 0xffffffff#32) 0xffffffff#32] ∧
      Returns (.mfp g b p) s 1 .s [.s b (BitVec.ofNat 64 (s.pr p).toNat)]) ∧
    Returns (.pmov g d a) s 1 .s [.p d (BitVec.ofNat 32 (s.sr a).toNat) 0xffffffff#32]

/-- R271, R248, R292: the words of Table 11-7 decode as it says; the scalar-lite adder reaches s0 to s31; MTG and MFG move a
staging register; MFSR reads the bundle count, the cycle counter, the core, the cluster, the tower, the context and the number
of reserved ALQ entries. -/
def Obligations.StagingAndSpecialResults : Prop :=
  Coded .x 0x30#7 (fun g x => if ff x = 0#5 then some (.xadd g (fd x) (fa x) (fb x)) else none) ∧
  Coded .x 0x31#7 (fun g x => some (.xaddi g (fd x) (fa x) (x.setWidth 10))) ∧
  Coded .x 0x32#7 (fun g x => some (.xmovi g (fd x) (x.setWidth 15))) ∧ Coded .x 0x33#7 (fun g x => some (.xmovhi g (fd x) (x.setWidth 15))) ∧
  ∀ (s : State) (g : BitVec 4), s.on g = true →
    (∀ d a b : BitVec 5, Returns (.xadd g d a b) s 1 .x [.s (d.setWidth 6)
      (BitVec.ofNat 64 ((s.sr (a.setWidth 6)).toNat + (s.sr (b.setWidth 6)).toNat))]) ∧
    (∀ (d a : BitVec 5) (imm : BitVec 10), Returns (.xaddi g d a imm) s 1 .x [.s (d.setWidth 6)
      (BitVec.ofInt 64 ((s.sr (a.setWidth 6)).toInt + imm.toInt))]) ∧
    (∀ (d : BitVec 5) (imm : BitVec 15), Returns (.xmovi g d imm) s 1 .x [.s (d.setWidth 6) (BitVec.ofInt 64 imm.toInt)] ∧
      Returns (.xmovhi g d imm) s 1 .x [.s (d.setWidth 6) (BitVec.ofNat 64 ((s.sr (d.setWidth 6)).toNat * 65536 + imm.toNat))]) ∧
    (∀ a i : BitVec 6, Returns (.mtg g a i) s 1 .s [.g i (s.sr a)]) ∧
    (∀ d i : BitVec 6, Returns (.mfg g d i) s 1 .s [.s d (s.ctx.r.greg i)]) ∧
    (∀ d : BitVec 6,
      Returns (.mfsr g d 0#6) s 1 .s [.s d s.ctx.r.bc] ∧
      Returns (.mfsr g d 1#6) s 1 .s [.s d (s.cycOf (s.here / 192))] ∧
      Returns (.mfsr g d 2#6) s 1 .s [.s d (BitVec.ofNat 64 (s.here % 24))] ∧
      Returns (.mfsr g d 3#6) s 1 .s [.s d (BitVec.ofNat 64 (s.here / 24 % 8))] ∧
      Returns (.mfsr g d 4#6) s 1 .s [.s d (BitVec.ofNat 64 (s.here / 192))] ∧
      Returns (.mfsr g d 5#6) s 1 .s [.s d (BitVec.ofNat 64 s.core.cur.toNat)] ∧
      Returns (.mfsr g d 6#6) s 1 .s [.s d (BitVec.ofNat 64 s.ctx.r.alq.length)])

/-- R243: a result of latency L is seen from the Lth boundary after its bundle on, and its register holds the old value before.
R243: results due at a boundary land in issue order, the last writer of a register last; a register that no due result names
keeps its value; the others come one bundle nearer; s0 and p0 discard what is written to them (R246). A result issued after
another of the same register never lands before it. -/
def Obligations.ResultsLandAtTheirLatency : Prop :=
  (∀ (r : Regs) (q : Pend) (d : BitVec 6) (x : Word), r.pend = [q] → q.ws = [.s d x] → d ≠ 0#6 → 0 < q.left →
      (∀ j, j < q.left → (Nat.repeat tickPend j r).sreg d = r.sreg d) ∧ ∀ j, q.left ≤ j → (Nat.repeat tickPend j r).sreg d = x) ∧
  ((∀ (r : Regs) (l1 l2 : List Pend) (q : Pend) (d : BitVec 6) (x : Word), r.pend = l1 ++ q :: l2 → q.left ≤ 1 →
      q.ws = [.s d x] → d ≠ 0#6 → (∀ e ∈ l2, e.left ≤ 1 → ∀ w ∈ e.ws, w.reg ≠ .s d) → (tickPend r).sreg d = x) ∧
    (∀ (r : Regs) (l1 l2 : List Pend) (q : Pend) (d : BitVec 4) (x m : BitVec 32), r.pend = l1 ++ q :: l2 → q.left ≤ 1 →
      q.ws = [.p d x m] → d ≠ 0#4 → (∀ e ∈ l1 ++ l2, e.left ≤ 1 → ∀ w ∈ e.ws, w.reg ≠ .p d) →
      (tickPend r).preg d = (r.preg d &&& ~~~m) ||| (x &&& m)) ∧
    (∀ (r : Regs) (l1 l2 : List Pend) (q : Pend) (d : BitVec 6) (x m : Vec), r.pend = l1 ++ q :: l2 → q.left ≤ 1 →
      q.ws = [.v d x m] → (∀ e ∈ l1 ++ l2, e.left ≤ 1 → ∀ w ∈ e.ws, w.reg ≠ .v d) →
      (tickPend r).vreg d = (r.vreg d &&& ~~~m) ||| (x &&& m)) ∧
    (∀ r : Regs,
      (∀ d, (∀ e ∈ r.pend, e.left ≤ 1 → ∀ w ∈ e.ws, w.reg ≠ .s d) → (tickPend r).sreg d = r.sreg d) ∧
      (∀ d, (∀ e ∈ r.pend, e.left ≤ 1 → ∀ w ∈ e.ws, w.reg ≠ .v d) → (tickPend r).vreg d = r.vreg d) ∧
      (∀ d, (∀ e ∈ r.pend, e.left ≤ 1 → ∀ w ∈ e.ws, w.reg ≠ .p d) → (tickPend r).preg d = r.preg d) ∧
      (∀ d, (∀ e ∈ r.pend, e.left ≤ 1 → ∀ w ∈ e.ws, w.reg ≠ .g d) → (tickPend r).greg d = r.greg d) ∧
      (∀ k : BitVec 4, (∀ e ∈ r.pend, e.left ≤ 1 → ∀ w ∈ e.ws, w.reg ≠ .l k) → (tickPend r).lreg k.toNat = r.lreg k.toNat) ∧
      (tickPend r).pend = (r.pend.filter fun e => decide (1 < e.left)).map (fun e => { e with left := e.left - 1 }) ∧
      (tickPend r).sreg 0#6 = 0#64 ∧ (tickPend r).preg 0#4 = 0xffffffff#32) ∧
    (∀ (l : List Pend) (e : Pend), (∀ q ∈ l, q.bc ≠ e.bc) →
      ∃ n, addPend l e = l ++ [{ e with left := n }] ∧ e.left ≤ n ∧ (∀ q ∈ l, q.clash e.ws = true → q.left ≤ n) ∧
        ((∀ q ∈ l, q.clash e.ws = false) → n = e.left)))

/-! ## Memory -/

/-- R36, R37, R39, R40: the address checks of a strand find the own scratchpad and A-store where the map places them; they trap
BOUND in an unused range and where an access leaves its window, PRIV for a mailbox or register at user level, ALIGN for a
misaligned atomic or register access, PROT for an atomic in local memory, and BANK for a bank that another strand holds.
Clauses that rest on log 50 are the model's choice and no rule of the spec. -/
def Obligations.AddressChecks : Prop :=
  ∀ (s : State) (a : Word) (n : Nat), 1 ≤ n → n ≤ 16 →
    (0xfffffffff0000000 ≤ a.toNat → a.toNat + n ≤ 0xfffffffff0080000 →
      (s.bankRefuses s.here s.ctx.r.tag (banksOf (locScratch s.here (a.toNat - 0xfffffffff0000000)) n) = false →
        s.target .scalar a n = .here (locScratch s.here (a.toNat - 0xfffffffff0000000))) ∧
      (s.bankRefuses s.here s.ctx.r.tag (banksOf (locScratch s.here (a.toNat - 0xfffffffff0000000)) n) = true →
        s.target .scalar a n = .trap 0x09#8) ∧
      s.target .atomic a n = (if a.toNat % n = 0 then .trap 0x06#8 else .trap 0x04#8)) ∧
    (0xfffffffff0100000 ≤ a.toNat → a.toNat + n ≤ 0xfffffffff0140000 →
      s.target .scalar a n = .here (locAstore s.here (a.toNat - 0xfffffffff0100000))) ∧
    (0xfffffffff0080000 ≤ a.toNat → a.toNat < 0xfffffffff0100000 → ∀ k, s.target k a n = .trap 0x11#8) ∧
    (a.toNat < 0xfffffffff0080000 → 0xfffffffff0080000 < a.toNat + n → ∀ k, s.target k a n = .trap 0x11#8) ∧
    (0xffffffffff000000 ≤ a.toNat → a.toNat + n ≤ 0xffffffffffc00000 →
      (s.ctx.r.sup = false → ∀ k, s.target k a n = .trap 0x03#8) ∧
      (s.ctx.r.sup = true → a.toNat % 8 = 0 → s.target .scalar a 8 = .remote .csr (a.toNat - 0xffffffffff000000)) ∧
      (s.ctx.r.sup = true → n ≠ 8 → s.target .scalar a n = .trap 0x04#8)) ∧
    (a.toNat + n ≤ 0xfffffff000000000 →
      s.target .scalar a n = .remote .paged a.toNat ∧
      s.target .atomic a n = (if a.toNat % n = 0 then .remote .paged a.toNat else .trap 0x04#8))

/-- R280, R281: a scalar load from local memory lands the bytes at its address at latency 4, lowest address lowest, sign- or
zero-extended, LDQ in two registers. -/
def Obligations.LocalLoadsLand : Prop :=
  ∀ (s : State) (g : BitVec 4) (d a : BitVec 6) (imm : BitVec 15) (l : Nat), s.on g = true →
    (s.target .scalar (ea s a imm) 1 = .here l → Readable s l 1 →
      Returns (.ldb g d a imm) s 4 .s [.s d ((s.byteAt l).signExtend 64)] ∧
      Returns (.ldbu g d a imm) s 4 .s [.s d ((s.byteAt l).setWidth 64)]) ∧
    (s.target .scalar (ea s a imm) 2 = .here l → Readable s l 2 →
      Returns (.ldh g d a imm) s 4 .s [.s d ((two s l).signExtend 64)] ∧
      Returns (.ldhu g d a imm) s 4 .s [.s d ((two s l).setWidth 64)]) ∧
    (s.target .scalar (ea s a imm) 4 = .here l → Readable s l 4 →
      Returns (.ldw g d a imm) s 4 .s [.s d ((four s l).signExtend 64)] ∧
      Returns (.ldwu g d a imm) s 4 .s [.s d ((four s l).setWidth 64)]) ∧
    (s.target .scalar (ea s a imm) 8 = .here l → Readable s l 8 →
      Returns (.ldd g d a imm) s 4 .s [.s d (eight s l)]) ∧
    (s.target .scalar (ea s a imm) 16 = .here l → Readable s l 16 →
      Returns (.ldq g d a imm) s 4 .s [.s d (eight s l), .s (d + 1#6) (eight s (l + 8))])

/-- R280, R281: a scalar store to local memory outside a segment writes its bytes at its address, lowest first, STQ the first
register at the lower addresses; every other byte and every register stays. R138: a write of part of a poisoned 8-byte granule
of a scratchpad changes nothing, and a write of all of it stores its bytes and clears the poison. -/
def Obligations.LocalStoresWrite : Prop :=
  (∀ (s : State) (g : BitVec 4) (d a : BitVec 6) (imm : BitVec 15) (l : Nat), s.on g = true →
      (s.target .scalar (ea s a imm) 1 = .here l → Writable s l 1 → Stores (.stb g d a imm) s l 1 (s.sr d).toNat) ∧
      (s.target .scalar (ea s a imm) 2 = .here l → Writable s l 2 → Stores (.sth g d a imm) s l 2 (s.sr d).toNat) ∧
      (s.target .scalar (ea s a imm) 4 = .here l → Writable s l 4 → Stores (.stw g d a imm) s l 4 (s.sr d).toNat) ∧
      (s.target .scalar (ea s a imm) 8 = .here l → Writable s l 8 → Stores (.std g d a imm) s l 8 (s.sr d).toNat) ∧
      (s.target .scalar (ea s a imm) 16 = .here l → Writable s l 16 →
        Stores (.stq g d a imm) s l 16 ((s.sr d).toNat + (s.sr (d + 1#6)).toNat * 2 ^ 64))) ∧
  (∀ (s : State) (o : Nat) (bs : List Byte), o % 8 = 0 → o < 0x80000 →
      setHas s.poison (locScratch 0 o) = true →
      (∀ k, 0 < bs.length → k + bs.length ≤ 8 → bs.length < 8 → s.write (locScratch 0 o + k) bs = s) ∧
      (bs.length = 8 → (∀ k, k < 8 → (s.write (locScratch 0 o) bs).byteAt (locScratch 0 o + k) = bs.getD k 0#8) ∧
        (s.write (locScratch 0 o) bs).poison = setDel s.poison (locScratch 0 o) ∧
        SameBytesBut (locScratch 0 o) 8 s (s.write (locScratch 0 o) bs)))

/-- R114, R197, R282: a scalar load or store of remote memory that its checks pass is put in flight with its captured address and
data, and changes nothing else; its event performs it. R127, R144: a remote store in an open segment at user level is held, at
the end of the strand's held stores, and reaches no memory. R52, R53: at supervisor level LDD of the register window captures
the register as R52 reads it and lands like a remote load, once the strand's earlier register writes have taken their whole
effect; STD writes the register with its side effects; TVEC takes bits [63:4] and nothing else changes. Clauses that rest on
log 4 are the model's choice and no rule of the spec. Events, identities and their order are the model's own form (log 3). -/
def Obligations.RemoteAndWindowAccesses : Prop :=
  (∀ (s : State) (g : BitVec 4) (d a : BitVec 6) (imm : BitVec 15) (w : Win) (l : Nat), s.on g = true → s.ctx.st ≠ .stopped → s.flightFull = false →
      (s.target .scalar (ea s a imm) 1 = .remote w l →
        Flies (.ldb g d a imm) s .s [ea s a imm] 0#1024 0#1024 (s.pr g) ∧ Flies (.ldbu g d a imm) s .s [ea s a imm] 0#1024 0#1024 (s.pr g) ∧
        (s.inSeg = false → Flies (.stb g d a imm) s .s [ea s a imm] ((s.sr d).setWidth 1024) 0#1024 (s.pr g))) ∧
      (s.target .scalar (ea s a imm) 2 = .remote w l →
        Flies (.ldh g d a imm) s .s [ea s a imm] 0#1024 0#1024 (s.pr g) ∧ Flies (.ldhu g d a imm) s .s [ea s a imm] 0#1024 0#1024 (s.pr g) ∧
        (s.inSeg = false → Flies (.sth g d a imm) s .s [ea s a imm] ((s.sr d).setWidth 1024) 0#1024 (s.pr g))) ∧
      (s.target .scalar (ea s a imm) 4 = .remote w l →
        Flies (.ldw g d a imm) s .s [ea s a imm] 0#1024 0#1024 (s.pr g) ∧ Flies (.ldwu g d a imm) s .s [ea s a imm] 0#1024 0#1024 (s.pr g) ∧
        (s.inSeg = false → Flies (.stw g d a imm) s .s [ea s a imm] ((s.sr d).setWidth 1024) 0#1024 (s.pr g))) ∧
      (s.target .scalar (ea s a imm) 8 = .remote w l → w ≠ .csr →
        Flies (.ldd g d a imm) s .s [ea s a imm] 0#1024 0#1024 (s.pr g) ∧
        (s.inSeg = false → Flies (.std g d a imm) s .s [ea s a imm] ((s.sr d).setWidth 1024) 0#1024 (s.pr g))) ∧
      (s.target .scalar (ea s a imm) 16 = .remote w l →
        Flies (.ldq g d a imm) s .s [ea s a imm] 0#1024 0#1024 (s.pr g) ∧
        (s.inSeg = false → Flies (.stq g d a imm) s .s [ea s a imm] ((s.sr d).setWidth 1024 ||| ((s.sr (d + 1#6)).setWidth 1024 <<< 64)) 0#1024 (s.pr g)))) ∧
  (∀ (s : State) (g : BitVec 4) (d a : BitVec 6) (imm : BitVec 15) (w : Win) (l : Nat) (k : Seg), s.on g = true →
      s.ctx.seg = some k → s.ctx.r.sup = false → s.target .scalar (ea s a imm) 8 = .remote w l → w ≠ .csr → s.heldCount ≤ 254 →
      ∃ t f, exec (.std g d a imm) s = .next t ∧
        f = ({ id := s.uid + 1, bc := s.ctx.r.bc, pos := .s, i := .std g d a imm, core := s.here, sup := false, gm := s.pr g,
               addrs := [ea s a imm], data := (s.sr d).setWidth 1024 } : Access) ∧
        t = { s with uid := s.uid + 1, ctx := { s.ctx with seg := some { k with held := k.held ++ [.access f] } } }) ∧
  (∀ (s : State) (g : BitVec 4) (d a : BitVec 6) (imm : BitVec 15) (off : Nat), s.on g = true →
      s.target .scalar (ea s a imm) 8 = .remote .csr off →
      (s.writesLeft = true → exec (.ldd g d a imm) s = .next s.freeze) ∧
      (s.writesLeft = false → s.ctx.st ≠ .stopped → s.flightFull = false → Flies (.ldd g d a imm) s .s [ea s a imm] ((s.readReg off).setWidth 1024) 0#1024 (s.pr g)) ∧
      exec (.std g d a imm) s = .next (s.writeReg (s.me + 1) off (s.sr d)) ∧
      (∀ T, T < 8 → off = oTVEC T →
        (s.writeReg (s.me + 1) off (s.sr d)).reg (oTVEC T) = (s.reg (oTVEC T) &&& 0xf#64) ||| (s.sr d &&& ~~~0xf#64) ∧
        (∀ o, o ≠ oTVEC T → (s.writeReg (s.me + 1) off (s.sr d)).reg o = s.reg o) ∧ SameBytes s (s.writeReg (s.me + 1) off (s.sr d))))

/-- R283: PFT brings the line of a readable cacheable page near its core and changes no register and no byte but what the walk's
accessed bit writes; an address that does not translate has no effect but the walk's. R108, R110, R116, R127, R289: a DRAIN's
bundle issues, and its flavour and scope join what the next bundle waits for; a batch of held stores ends with a DRAIN.S or
DRAIN.A. At the boundary the next bundle waits until everything issued up to there has performed at the widest scope asked
for; then the acquiring flavours apply every accepted invalidation of the core, and the strand goes on. R290, R291: WAITA on
local memory goes on when its condition holds for the value there, and disarms the monitor; else it arms the monitor with its
condition and blocks. Events, identities and their order are the model's own form (log 3). -/
def Obligations.PrefetchDrainAndWait : Prop :=
  (∀ (s : State) (g : BitVec 4) (h : BitVec 5) (a : BitVec 6) (imm : BitVec 15), s.on g = true →
      (ea s a imm).toNat < 0xfffffff000000000 →
      ∃ t, exec (.pft g h a imm) s = .next t ∧ t.ctx = s.ctx ∧ t.core = s.core ∧
        SameBytes (translate s (.core s.here) (ea s a imm).toNat s.ctx.r.sup .read).1 t ∧
        (∀ u l, translate s (.core s.here) (ea s a imm).toNat s.ctx.r.sup .read = (u, .ok l false) → u.poisonedAt l 1 = false →
          u.waitsAt l 1 = false → h = 0#5 → (s.here, lineOf l) ∈ t.copies ∨ u.holdsOld s.here (lineOf l) = true)) ∧
  ((∀ (s : State) (g : BitVec 4) (sc : BitVec 3) (fl : BitVec 2), s.on g = true →
      ∃ t, exec (.drain g sc fl) s = .next t ∧ OnlyCtx s t ∧
        t.ctx = { s.ctx with drn := s.ctx.drn ||| drainBits sc fl
                             drnScope := if drainBits sc fl = 0#3 then s.ctx.drnScope else max s.ctx.drnScope sc.toNat
                             drnId := if drainBits sc fl = 0#3 then s.ctx.drnId else s.uid
                             markDue := if fl.getLsbD 0 then s.ctx.seg.isSome else s.ctx.markDue }) ∧
    (∀ s : State, s.ctx.assays = [] → s.ctx.firstDue = none → s.ctx.drn ≠ 0#3 →
      (s.drained s.ctx.drn s.ctx.drnScope = false → s.boundary = (s, .draining)) ∧
      (s.drained s.ctx.drn s.ctx.drnScope = true →
        ∃ u : State, s.boundary = u.boundaryWith s.wouldIssue ∧ u.ctx = { s.ctx with drn := 0#3, drnScope := 0 } ∧
          SameBytes s u ∧ SameCsr s u ∧ u.core = s.core ∧
          (s.ctx.drn.getLsbD 1 = true → ∀ v ∈ u.inval, v.core = s.here → v.acc = false) ∧
          (s.ctx.drn.getLsbD 1 = false → u.inval = s.inval)))) ∧
  (∀ (s : State) (g : BitVec 4) (a b : BitVec 6) (c : BitVec 2) (l : Nat) (v : Word), s.on g = true →
      s.target .wait (s.sr a) 8 = .here l → Readable s l 8 → v = eight s l →
      ((c = 0#2 ∧ v = s.sr b) ∨ (c = 1#2 ∧ v ≠ s.sr b) ∨ (c = 2#2 ∧ (s.sr b).toNat ≤ v.toNat) ∨ (c = 3#2 ∧ v &&& s.sr b ≠ 0#64) →
        exec (.waita g a b 0#1 c) s = .next { s with ctx := { s.ctx with mon := none } }) ∧
      (¬ ((c = 0#2 ∧ v = s.sr b) ∨ (c = 1#2 ∧ v ≠ s.sr b) ∨ (c = 2#2 ∧ (s.sr b).toNat ≤ v.toNat) ∨
          (c = 3#2 ∧ v &&& s.sr b ≠ 0#64)) →
        ∃ t, exec (.waita g a b 0#1 c) s = .next t ∧ t.ctx.phase = .blocked ∧
          t.ctx.mon = some ⟨l, 8, c, s.sr b⟩ ∧ t.ctx.r = s.ctx.r ∧ SameBytes s t ∧ SameCsr s t))

/-- R120, R285: a value-returning atomic that its checks pass, with room in the ALQ and outside a segment, reserves the next entry
and goes in flight; with a full ALQ it blocks. R121, R285, R288: a reduction that its checks pass behaves as a store of its
operand: it goes in flight and reserves nothing. Clauses that rest on log 3 are the model's choice and no rule of the spec. -/
def Obligations.AtomicsAndReductionsIssue : Prop :=
  (∀ (s : State) (g : BitVec 4) (a b d : BitVec 6) (w : BitVec 1) (win : Win) (l : Nat), s.on g = true →
      s.target .atomic (s.sr a) (if w = 1#1 then 8 else 4) = .remote win l →
      (s.ctx.r.alq.length < 16 → s.ctx.seg = none → s.ctx.st ≠ .stopped →
        SendsAtomic (.aadd g a b w) s (s.sr a) (s.sr b) 0#64 ∧ SendsAtomic (.amin g a b w) s (s.sr a) (s.sr b) 0#64 ∧
        SendsAtomic (.amax g a b w) s (s.sr a) (s.sr b) 0#64 ∧ SendsAtomic (.aminu g a b w) s (s.sr a) (s.sr b) 0#64 ∧
        SendsAtomic (.amaxu g a b w) s (s.sr a) (s.sr b) 0#64 ∧ SendsAtomic (.aand g a b w) s (s.sr a) (s.sr b) 0#64 ∧
        SendsAtomic (.aor g a b w) s (s.sr a) (s.sr b) 0#64 ∧ SendsAtomic (.axor g a b w) s (s.sr a) (s.sr b) 0#64 ∧
        SendsAtomic (.axchg g a b w) s (s.sr a) (s.sr b) 0#64 ∧ SendsAtomic (.acas g d a b w) s (s.sr a) (s.sr b) (s.sr d)) ∧
      (16 ≤ s.ctx.r.alq.length → exec (.aadd g a b w) s = .next s.block ∧ exec (.acas g d a b w) s = .next s.block)) ∧
  (∀ (s : State) (g : BitVec 4) (a b : BitVec 6) (u w : BitVec 1) (win : Win) (l : Nat), s.on g = true → CanFly s →
      (s.target .atomic (s.sr a) (if w = 1#1 then 8 else 4) = .remote win l →
        Flies (.radd g a b w) s .s [s.sr a] ((s.sr b).setWidth 1024) 0#1024 (s.pr g) ∧
        Flies (.rmin g a b u w) s .s [s.sr a] ((s.sr b).setWidth 1024) 0#1024 (s.pr g) ∧
        Flies (.rmax g a b u w) s .s [s.sr a] ((s.sr b).setWidth 1024) 0#1024 (s.pr g) ∧
        Flies (.rand g a b w) s .s [s.sr a] ((s.sr b).setWidth 1024) 0#1024 (s.pr g) ∧
        Flies (.ror g a b w) s .s [s.sr a] ((s.sr b).setWidth 1024) 0#1024 (s.pr g) ∧
        Flies (.rxor g a b w) s .s [s.sr a] ((s.sr b).setWidth 1024) 0#1024 (s.pr g)) ∧
      (s.target .atomic (s.sr a) 4 = .remote win l →
        Flies (.rfadd g a b) s .s [s.sr a] ((s.sr b).setWidth 1024) 0#1024 (s.pr g)))

/-- R284, Table 12-2: the new value of an integer atomic or reduction of w bits on the value in memory m with operand x; ACAS
stores y where m equals x. R119: an atomic of any strand performing on an aligned uncached location answers the value it read
and leaves the new value there, with every other byte as it was. -/
def Obligations.AtomicsPerform : Prop :=
  (∀ (n : Nat) (g : BitVec 4) (a b d : BitVec 6) (w : BitVec 1) (m x y : BitVec n), 0 < n →
      amoNew (.aadd g a b w) n m.toNat x.toNat y.toNat = (m + x).toNat ∧
      amoNew (.amin g a b w) n m.toNat x.toNat y.toNat = (if x.slt m then x else m).toNat ∧
      amoNew (.amax g a b w) n m.toNat x.toNat y.toNat = (if m.slt x then x else m).toNat ∧
      amoNew (.aminu g a b w) n m.toNat x.toNat y.toNat = (if x.ult m then x else m).toNat ∧
      amoNew (.amaxu g a b w) n m.toNat x.toNat y.toNat = (if m.ult x then x else m).toNat ∧
      amoNew (.aand g a b w) n m.toNat x.toNat y.toNat = (m &&& x).toNat ∧
      amoNew (.aor g a b w) n m.toNat x.toNat y.toNat = (m ||| x).toNat ∧
      amoNew (.axor g a b w) n m.toNat x.toNat y.toNat = (m ^^^ x).toNat ∧
      amoNew (.axchg g a b w) n m.toNat x.toNat y.toNat = x.toNat ∧
      amoNew (.acas g d a b w) n m.toNat x.toNat y.toNat = (if m = x then y else m).toNat ∧
      amoNew (.radd g a b w) n m.toNat x.toNat y.toNat = (m + x).toNat ∧
      amoNew (.rmin g a b 0#1 w) n m.toNat x.toNat y.toNat = (if x.slt m then x else m).toNat ∧
      amoNew (.rmin g a b 1#1 w) n m.toNat x.toNat y.toNat = (if x.ult m then x else m).toNat ∧
      amoNew (.rmax g a b 0#1 w) n m.toNat x.toNat y.toNat = (if m.slt x then x else m).toNat ∧
      amoNew (.rmax g a b 1#1 w) n m.toNat x.toNat y.toNat = (if m.ult x then x else m).toNat ∧
      amoNew (.rand g a b w) n m.toNat x.toNat y.toNat = (m &&& x).toNat ∧
      amoNew (.ror g a b w) n m.toNat x.toNat y.toNat = (m ||| x).toNat ∧
      amoNew (.rxor g a b w) n m.toNat x.toNat y.toNat = (m ^^^ x).toNat) ∧
  (∀ (s : State) (src : Nat) (a : Access) (l n : Nat), n = accessWidth a.i → n = 4 ∨ n = 8 → l % n = 0 → regionOf l < 5 →
      isAtomicInstr a.i = true → s.isFenced l = false → s.poisonedAt l n = false → s.badCrcAt l n = false →
      (s.modify src a [(l, n, true)]).2 = s.natAt l n ∧
      (∀ k, k < n → (s.modify src a [(l, n, true)]).1.byteAt (l + k) =
        BitVec.ofNat 8 (amoNew a.i (8 * n) (s.natAt l n) (a.data.toNat % 2 ^ (8 * n)) (a.data.toNat / 2 ^ 64 % 2 ^ (8 * n)) / 256 ^ k)) ∧
      SameBytesBut l n s (s.modify src a [(l, n, true)]).1)

/-- R120, R287, R385: POPQ of an empty ALQ writes 0; of a valid entry its value, and the entry leaves the queue, that of an SQLEN
with an acquiring drain before the next bundle; of a value that has not arrived it freezes or switches. -/
def Obligations.PopqTakesOldestEntry : Prop :=
  ∀ (s : State) (g : BitVec 4) (d : BitVec 6), s.on g = true →
    (s.ctx.r.alq = [] → Returns (.popq g d) s 1 .s [.s d 0#64]) ∧
    (∀ e l, s.ctx.r.alq = e :: l → e.valid = true → e.faulted = false → e.poisoned = false → e.crc = false →
      ∃ t, exec (.popq g d) s = .next t ∧ Awaits (.popq g d) s t 1 .s [.s d e.value] ∧ t.ctx.r.alq = l ∧
        t.ctx.r.alqh = s.ctx.r.alqh + 1#4 ∧ t.ctx.drn = (if isSqlen e.i then s.ctx.drn ||| 2#3 else s.ctx.drn) ∧ SameFile s.ctx.r t.ctx.r ∧ SameBytes s t ∧ SameCsr s t) ∧
    (∀ e l, s.ctx.r.alq = e :: l → e.valid = false →
      exec (.popq g d) s = .next (if s.ownAtomic e then s.freeze else (s.meetCore 0x33 s.here).block))

/-! ## Vectors -/

/-- R308 to R310: the integer family acts on elements of 8, 16 or 32 bits under the guard mask at latency 2: sums and differences
that wrap or saturate, products and their high halves, multiply-accumulate on the destination as read, smaller and larger,
magnitudes, bitwise operations, shifts past the width, rotations, funnel shifts, counts, and VTERN's truth table on the
destination and both sources. R318, R320, R321: permutes, slides, selections, moves and insertions act lane by lane; VEXT,
VMCNT and VMFST write a scalar; sums and maxima of the guarded lanes, and the floating-point reductions in the fixed tree of
five levels, go to every guarded lane at latency 6. -/
def Obligations.VectorResults : Prop :=
  (∀ (s : State) (g : BitVec 4) (d a b : BitVec 6) (gm : BitVec 32), s.pr g = gm → gm ≠ 0#32 →
      (∀ (w : BitVec 2) (n : Nat), Width w n →
        VecResult (.vadd g d a b 0#2 w) s 2 d gm n (fun j => elem (s.vr a) n j + elem (s.vr b) n j) ∧
        VecResult (.vadd g d a b 1#2 w) s 2 d gm n (fun j => BitVec.ofInt n (max (-(2 ^ (n - 1) : Int))
          (min (2 ^ (n - 1) - 1 : Int) ((elem (s.vr a) n j).toInt + (elem (s.vr b) n j).toInt)))) ∧
        VecResult (.vadd g d a b 2#2 w) s 2 d gm n (fun j => BitVec.ofNat n
          (min (2 ^ n - 1) ((elem (s.vr a) n j).toNat + (elem (s.vr b) n j).toNat))) ∧
        VecResult (.vsub g d a b 0#2 w) s 2 d gm n (fun j => elem (s.vr a) n j - elem (s.vr b) n j) ∧
        VecResult (.vsub g d a b 1#2 w) s 2 d gm n (fun j => BitVec.ofInt n (max (-(2 ^ (n - 1) : Int))
          (min (2 ^ (n - 1) - 1 : Int) ((elem (s.vr a) n j).toInt - (elem (s.vr b) n j).toInt)))) ∧
        VecResult (.vsub g d a b 2#2 w) s 2 d gm n (fun j => BitVec.ofNat n
          ((elem (s.vr a) n j).toNat - (elem (s.vr b) n j).toNat)) ∧
        VecResult (.vmul g d a b w) s 2 d gm n (fun j => elem (s.vr a) n j * elem (s.vr b) n j) ∧
        VecResult (.vmulh g d a b 0#1 w) s 2 d gm n (fun j =>
          ((elem (s.vr a) n j).signExtend (2 * n) * (elem (s.vr b) n j).signExtend (2 * n)).extractLsb' n n) ∧
        VecResult (.vmulh g d a b 1#1 w) s 2 d gm n (fun j =>
          ((elem (s.vr a) n j).setWidth (2 * n) * (elem (s.vr b) n j).setWidth (2 * n)).extractLsb' n n) ∧
        VecResult (.vmac g d a b w) s 2 d gm n (fun j => elem (s.vr d) n j + elem (s.vr a) n j * elem (s.vr b) n j) ∧
        VecResult (.vmins g d a b w) s 2 d gm n (fun j =>
          if (elem (s.vr b) n j).slt (elem (s.vr a) n j) then elem (s.vr b) n j else elem (s.vr a) n j) ∧
        VecResult (.vmaxs g d a b w) s 2 d gm n (fun j =>
          if (elem (s.vr a) n j).slt (elem (s.vr b) n j) then elem (s.vr b) n j else elem (s.vr a) n j) ∧
        VecResult (.vminu g d a b w) s 2 d gm n (fun j =>
          if (elem (s.vr b) n j).ult (elem (s.vr a) n j) then elem (s.vr b) n j else elem (s.vr a) n j) ∧
        VecResult (.vmaxu g d a b w) s 2 d gm n (fun j =>
          if (elem (s.vr a) n j).ult (elem (s.vr b) n j) then elem (s.vr b) n j else elem (s.vr a) n j) ∧
        VecResult (.vabs g d a w) s 2 d gm n (fun j =>
          if (elem (s.vr a) n j).msb then 0#n - elem (s.vr a) n j else elem (s.vr a) n j) ∧
        VecResult (.vshl g d a b w) s 2 d gm n (fun j => elem (s.vr a) n j <<< (elem (s.vr b) n j).toNat) ∧
        VecResult (.vshr g d a b w) s 2 d gm n (fun j => elem (s.vr a) n j >>> (elem (s.vr b) n j).toNat) ∧
        VecResult (.vsar g d a b w) s 2 d gm n (fun j => (elem (s.vr a) n j).sshiftRight (elem (s.vr b) n j).toNat) ∧
        VecResult (.vrot g d a b w) s 2 d gm n (fun j => (elem (s.vr a) n j <<< ((elem (s.vr b) n j).toNat % n)) |||
          (elem (s.vr a) n j >>> (n - (elem (s.vr b) n j).toNat % n))) ∧
        VecResult (.vpopc g d a w) s 2 d gm n (fun j =>
          BitVec.ofNat n ((List.range n).filter fun k => (elem (s.vr a) n j).getLsbD k).length) ∧
        VecResult (.vclz g d a w) s 2 d gm n (fun j =>
          BitVec.ofNat n ((List.range n).filter fun k => decide ((elem (s.vr a) n j).toNat < 2 ^ k)).length) ∧
        VecResult (.vbcst g d a w) s 3 d gm n (fun _ => (s.sr a).setWidth n) ∧
        (∀ k : BitVec 5, k.toNat < n →
          VecResult (.vshi g d a 0#2 w k) s 2 d gm n (fun j => elem (s.vr a) n j <<< k.toNat) ∧
          VecResult (.vshi g d a 1#2 w k) s 2 d gm n (fun j => elem (s.vr a) n j >>> k.toNat) ∧
          VecResult (.vshi g d a 2#2 w k) s 2 d gm n (fun j => (elem (s.vr a) n j).sshiftRight k.toNat) ∧
          VecResult (.vshi g d a 3#2 w k) s 2 d gm n (fun j =>
            (elem (s.vr a) n j <<< k.toNat) ||| (elem (s.vr a) n j >>> (n - k.toNat)))) ∧
        (∀ (q : BitVec 4) (c : BitVec 3), c.toNat < 6 → PredResult (.vcmp g q a b c w) s 2 q gm (fun i =>
          ∀ k, (k + 1) * n ≤ 32 → Cond c (elem (s.vr a) n (i * (32 / n) + k)) (elem (s.vr b) n (i * (32 / n) + k))))) ∧
      VecResult (.vand g d a b) s 2 d gm 32 (fun j => lane (s.vr a) j &&& lane (s.vr b) j) ∧
      VecResult (.vor g d a b) s 2 d gm 32 (fun j => lane (s.vr a) j ||| lane (s.vr b) j) ∧
      VecResult (.vxor g d a b) s 2 d gm 32 (fun j => lane (s.vr a) j ^^^ lane (s.vr b) j) ∧
      (∀ k : BitVec 5,
        VecResult (.vfshl g d a b k) s 2 d gm 32 (fun j =>
          ((lane (s.vr a) j ++ lane (s.vr b) j : BitVec 64) <<< k.toNat).extractLsb' 32 32) ∧
        VecResult (.vfshr g d a b k) s 2 d gm 32 (fun j =>
          ((lane (s.vr a) j ++ lane (s.vr b) j : BitVec 64) >>> k.toNat).extractLsb' 0 32)) ∧
      (∀ t : BitVec 8, VecResult (.vtern g d a b t) s 2 d gm 1 (fun j => BitVec.ofBool (t.getLsbD
        (4 * (elem (s.vr d) 1 j).toNat + 2 * (elem (s.vr a) 1 j).toNat + (elem (s.vr b) 1 j).toNat))))) ∧
  (∀ (s : State) (g : BitVec 4) (d a b : BitVec 6) (gm : BitVec 32), s.pr g = gm → gm ≠ 0#32 →
      VecResult (.vmov g d a) s 2 d gm 32 (fun j => lane (s.vr a) j) ∧
      VecResult (.vperm g d a b) s 3 d gm 32 (fun j => lane (s.vr a) ((lane (s.vr b) j).toNat % 32)) ∧
      (∀ k : BitVec 5, VecResult (.vslide g d a b k) s 3 d gm 32 (fun j =>
        if j + k.toNat < 32 then lane (s.vr a) (j + k.toNat) else lane (s.vr b) (j + k.toNat - 32))) ∧
      (∀ p : BitVec 4, VecResult (.vsel g d a b p) s 2 d gm 32 (fun j =>
        if (s.pr p).getLsbD j then lane (s.vr a) j else lane (s.vr b) j)) ∧
      (∀ k : BitVec 5, Returns (.vext g d a k) s 3 .v [.s d ((lane (s.vr a) k.toNat).setWidth 64)]) ∧
      (∀ k : BitVec 5, VecResult (.vins g d a k) s 3 d (gm &&& (1#32 <<< k.toNat)) 32 (fun _ => (s.sr a).setWidth 32)) ∧
      Returns (.vmcnt g d a) s 6 .v [.s d (BitVec.ofNat 64 ((List.range 1024).filter fun k => (s.vr a).getLsbD k).length)] ∧
      (∀ n, (s.vr a).getLsbD n = true → (∀ j, j < n → (s.vr a).getLsbD j = false) →
        Returns (.vmfst g d a) s 6 .v [.s d (BitVec.ofNat 64 n)]) ∧
      (s.vr a = 0#1024 → Returns (.vmfst g d a) s 6 .v [.s d 1024#64]) ∧
      VecResult (.vradd g d a) s 6 d gm 32 (fun _ =>
        ((List.range 32).filter fun k => gm.getLsbD k).foldl (fun acc k => acc + lane (s.vr a) k) 0#32) ∧
      (∃ r : BitVec 32, VecResult (.vrmax g d a 0#1) s 6 d gm 32 (fun _ => r) ∧
        (∀ k, k < 32 → gm.getLsbD k = true → (lane (s.vr a) k).toInt ≤ r.toInt) ∧
        ∃ k, k < 32 ∧ gm.getLsbD k = true ∧ lane (s.vr a) k = r) ∧
      (∃ r : BitVec 32, VecResult (.vrmax g d a 1#1) s 6 d gm 32 (fun _ => r) ∧
        (∀ k, k < 32 → gm.getLsbD k = true → (lane (s.vr a) k).toNat ≤ r.toNat) ∧
        ∃ k, k < 32 ∧ gm.getLsbD k = true ∧ lane (s.vr a) k = r) ∧
      VecResult (.vrfadd g d a) s 6 d gm 32 (fun _ => treeOf addF fun k => if gm.getLsbD k then lane (s.vr a) k else 0#32) ∧
      VecResult (.vrfmax g d a) s 6 d gm 32 (fun _ => treeOf maxF fun k => if gm.getLsbD k then lane (s.vr a) k else 0xff800000#32))

/-- R311 to R317: for a guard mask that is not zero each instruction completes. VFADD, VFSUB, VFMUL and VFMA write each lane's
exact result rounded once, FP32 or BF16, VFMAX and VFMIN the larger and the smaller, at latency 4; the special functions land
at latency 8; VFCMP writes its condition at latency 4, false on a NaN but for the unordered and the not-equal; VCVT and VCVTS
write part p of each guarded lane, or whole lanes, at latency 3, VCVTS by stochastic rounding with the one word it takes from
the generator; VMXQ writes the 32 elements of its block slot and the scale at latency 6, a lane whose guard is false counting
as plus zero; VMXD writes the block's values at latency 4. -/
def Obligations.VectorFloatResults : Prop :=
  ∀ (s : State) (g : BitVec 4) (d a b : BitVec 6) (gm : BitVec 32), s.pr g = gm → gm ≠ 0#32 →
    (∀ (r e : BitVec 1) (F : Fmt) (n : Nat) (md : Rm), (e = 0#1 ∧ F = .f32 ∧ n = 32) ∨ (e = 1#1 ∧ F = .bf16 ∧ n = 16) →
      (r = 0#1 ∧ md = .rne) ∨ (r = 1#1 ∧ md = .rtz) →
      VecResult (.vfadd g d a b r e) s 4 d gm n (fun j => BitVec.ofNat n (F.round
        ((F.val (elem (s.vr a) n j).toNat).add (F.val (elem (s.vr b) n j).toNat)) md 0)) ∧
      VecResult (.vfsub g d a b r e) s 4 d gm n (fun j => BitVec.ofNat n (F.round
        ((F.val (elem (s.vr a) n j).toNat).add (F.val (elem (s.vr b) n j).toNat).neg) md 0)) ∧
      VecResult (.vfmul g d a b r e) s 4 d gm n (fun j => BitVec.ofNat n (F.round
        ((F.val (elem (s.vr a) n j).toNat).mul (F.val (elem (s.vr b) n j).toNat)) md 0)) ∧
      VecResult (.vfma g d a b r e) s 4 d gm n (fun j => BitVec.ofNat n (F.round
        (((F.val (elem (s.vr a) n j).toNat).mul (F.val (elem (s.vr b) n j).toNat)).add (F.val (elem (s.vr d) n j).toNat)) md 0)) ∧
      (∃ f : Nat → BitVec n, VecResult (.vfmax g d a b e) s 4 d gm n f ∧
        ∀ j, Picks F true (elem (s.vr a) n j).toNat (elem (s.vr b) n j).toNat (f j).toNat) ∧
      (∃ f : Nat → BitVec n, VecResult (.vfmin g d a b e) s 4 d gm n f ∧
        ∀ j, Picks F false (elem (s.vr a) n j).toNat (elem (s.vr b) n j).toNat (f j).toNat)) ∧
    VecResult (.vexp2 g d a) s 8 d gm 32 (fun j => exp2F (lane (s.vr a) j)) ∧
    VecResult (.vrcp g d a) s 8 d gm 32 (fun j => rcpF (lane (s.vr a) j)) ∧
    VecResult (.vrsq g d a) s 8 d gm 32 (fun j => rsqF (lane (s.vr a) j)) ∧
    (∀ q : BitVec 4,
      PredResult (.vfcmp g q a b 0#3) s 4 q gm (fun i => (valF (lane (s.vr a) i)).le (valF (lane (s.vr b) i)) = true ∧
        (valF (lane (s.vr b) i)).le (valF (lane (s.vr a) i)) = true) ∧
      PredResult (.vfcmp g q a b 1#3) s 4 q gm (fun i => (valF (lane (s.vr a) i)).le (valF (lane (s.vr b) i)) = true ∧
        (valF (lane (s.vr b) i)).le (valF (lane (s.vr a) i)) = false) ∧
      PredResult (.vfcmp g q a b 2#3) s 4 q gm (fun i => (valF (lane (s.vr a) i)).le (valF (lane (s.vr b) i)) = true) ∧
      PredResult (.vfcmp g q a b 3#3) s 4 q gm (fun i => valF (lane (s.vr a) i) = .nan ∨ valF (lane (s.vr b) i) = .nan) ∧
      PredResult (.vfcmp g q a b 4#3) s 4 q gm (fun i => ¬ ((valF (lane (s.vr a) i)).le (valF (lane (s.vr b) i)) = true ∧
        (valF (lane (s.vr b) i)).le (valF (lane (s.vr a) i)) = true))) ∧
    (∀ (c : BitVec 4) (p : BitVec 3) (n : Nat) (w : Nat → Nat), CvtType c n → n * (p.toNat + 1) ≤ 32 →
      (∀ i, w i = (laneWord s.ctx.r.rbShared.1 i).toNat) →
      (∀ (r : BitVec 1) (md : Rm), (r = 0#1 ∧ md = .rne) ∨ (r = 1#1 ∧ md = .rtz) →
        (∃ x m : Vec, Returns (.vcvt g d a r c 0#1 p) s 3 .v [.v d x m] ∧
          Packed gm n p.toNat (fun i => cvtTo c (lane (s.vr a) i) md 0) x m) ∧
        VecResult (.vcvt g d a r c 1#1 p) s 3 d gm 32 (fun i => BitVec.ofNat 32 (Fmt.f32.round
          (cvtVal c ((lane (s.vr a) i).toNat / 2 ^ (n * p.toNat) % 2 ^ n)) md 0))) ∧
      (∃ x m : Vec, ReturnsPopped (.vcvts g d a c 0#1 p) s 3 [.v d x m] ∧
        Packed gm n p.toNat (fun i => cvtTo c (lane (s.vr a) i) .sr (w i)) x m) ∧
      (∃ x : Vec, ReturnsPopped (.vcvts g d a c 1#1 p) s 3 [.v d x (laneMask gm)] ∧ ∀ i, i < 32 → lane x i = BitVec.ofNat 32 (Fmt.f32.round
        (cvtVal c ((lane (s.vr a) i).toNat / 2 ^ (n * p.toNat) % 2 ^ n)) .sr (w i)))) ∧
    (∀ (q e : BitVec 2) (v : List Fv), v = (List.range 32).map (fun i => if gm.getLsbD i then valF (lane (s.vr a) i) else .fin false 0 0) →
      (∃ x m : Vec, Returns (.vmxq g d a b q 0#1 e) s 6 .v [.v d x m, .s b (BitVec.ofNat 64 (mxQuant v (mxOf e) .rne fun _ => 0).1)] ∧
        Block (mxOf e) q.toNat (mxQuant v (mxOf e) .rne fun _ => 0).2 x m) ∧
      (∀ w : Nat → Nat, (∀ i, w i = (laneWord s.ctx.r.rbShared.1 i).toNat) → ∃ x m : Vec,
        ReturnsPopped (.vmxq g d a b q 1#1 e) s 6 [.v d x m, .s b (BitVec.ofNat 64 (mxQuant v (mxOf e) .sr w).1)] ∧
        Block (mxOf e) q.toNat (mxQuant v (mxOf e) .sr w).2 x m) ∧
      VecResult (.vmxd g d a b q e) s 4 d gm 32 (fun i => toF32 (mxValue (mxOf e) ((s.sr b).toNat % 256)
        ((s.vr a).toNat / 2 ^ (256 * q.toNat + (mxOf e).bits * i) % 2 ^ (mxOf e).bits))))

/-- R219, R220: rounding a magnitude to a multiple of a coarser unit takes one of its two neighbours: toward zero the lower; to
nearest the nearer, the even one on a tie; stochastic rounding with word 0 is toward zero. R215, R219: an encoding that is not
a NaN rounds to itself in its own format, in every mode. R226: a window sum does not depend on the order of its terms; without
terms that are not zero it is +0. The spec's worked numbers: conversions of R219, the window of R226, the reduction tree of
R320 the bit fields of R276 and the buckets of Table 15-7. -/
def Obligations.RoundingAndWindowSums : Prop :=
  (∀ (m w : Nat) (e ue : Int) (d : Nat), e < ue → d = 2 ^ (ue - e).toNat →
      roundTo m e ue .rtz w = m / d ∧
      (roundTo m e ue .rne w = m / d ∨ roundTo m e ue .rne w = m / d + 1) ∧
      2 * (roundTo m e ue .rne w * d) ≤ 2 * m + d ∧ 2 * m ≤ 2 * (roundTo m e ue .rne w * d) + d ∧
      (2 * (m % d) = d → roundTo m e ue .rne w % 2 = 0) ∧
      (roundTo m e ue .sr w = m / d ∨ roundTo m e ue .sr w = m / d + 1) ∧
      roundTo m e ue .sr 0 = m / d ∧ (m % d = 0 → w < 2 ^ 32 → roundTo m e ue .sr w = m / d)) ∧
  (∀ (F : Fmt) (x w : Nat) (md : Rm), x < 2 ^ (F.width + 1) → F.val x ≠ .nan → w < 2 ^ 32 → F.round (F.val x) md w = x) ∧
  ((∀ l k : List Term, l.Perm k → windowSum l = windowSum k) ∧
    (∀ l : List Term, (∀ t ∈ l, ∃ E, t = .num 0 E) → windowSum l = 0#32)) ∧
  (Fmt.bf16.round (valF 0x3f808000#32) .rne 0 = 0x3f80 ∧ Fmt.bf16.round (valF 0x3f808000#32) .sr 0x80000000 = 0x3f81 ∧
    Fmt.e4m3.round (.fin false 500 0) .rne 0 = 0x7e ∧
    windowSum [.num 1 24, .num 1 0, .num 1 (-80)] = 0x4b800001#32 ∧
    bitExtract 0xabcd#64 0x804#64 false = 0xbc#64 ∧ bitExtract 0xabcd#64 0x804#64 true = 0xffffffffffffffbc#64 ∧
    exp2F 0#32 = 0x3f800000#32 ∧ rcpF 0x40000000#32 = 0x3f000000#32 ∧ rsqF 0x40800000#32 = 0x3f000000#32 ∧
    rbktLane 0#1 24#32 = 17#32 ∧ rbktLane 1#1 24#32 = 11#32 ∧ rbktLane 1#1 (BitVec.ofInt 32 (-100)) = 31#32)

/-- R113, R322 to R324, R370: a vector load whose guarded lanes all lie in readable local memory lands them at latency 5:
consecutive words, strided, indexed, one word for every lane, and RBIAS adding a BF16 bias to each lane of its destination.
R113, R322, R325: a vector store whose guarded lanes all lie in writable local memory writes each guarded lane, in lane order,
and no other byte. R113, R114, R196, R322: a vector access whose guarded lanes all lie in remote memory goes in flight whole,
with its guard mask, its base or its lane addresses, and for a store its data. Clauses that rest on logs 3 and 4 are the
model's choice and no rule of the spec. -/
def Obligations.VectorAccesses : Prop :=
  (∀ (s : State) (g : BitVec 4) (d a b : BitVec 6) (gm : BitVec 32), s.pr g = gm → gm ≠ 0#32 →
      (∀ (imm : BitVec 15) (l : Nat), LanesHere s gm 4 (fun i => BitVec.ofInt 64 ((s.sr a).toInt + 16 * imm.toInt + 4 * i)) (fun i => l + 4 * i) →
        ∃ x, Returns (.vld g d a imm) s 5 .v [.v d x (laneMask gm)] ∧ ∀ i, i < 32 → gm.getLsbD i = true → lane x i = four s (l + 4 * i)) ∧
      (∀ loc : Nat → Nat, LanesHere s gm 4 (fun i => s.sr a + BitVec.ofNat 64 i * s.sr b) loc →
        ∃ x, Returns (.vlds g d a b) s 5 .v [.v d x (laneMask gm)] ∧ ∀ i, i < 32 → gm.getLsbD i = true → lane x i = four s (loc i)) ∧
      (∀ (c : BitVec 2) (loc : Nat → Nat),
        LanesHere s gm 4 (fun i => BitVec.ofNat 64 ((s.sr a).toNat + (lane (s.vr b) i).toNat * 2 ^ c.toNat)) loc →
        ∃ x, Returns (.vldx g d a b c) s 5 .v [.v d x (laneMask gm)] ∧ ∀ i, i < 32 → gm.getLsbD i = true → lane x i = four s (loc i)) ∧
      (∀ (imm : BitVec 15) (l : Nat), s.target .vector (BitVec.ofInt 64 ((s.sr a).toInt + 4 * imm.toInt)) 4 = .here l → Readable s l 4 →
        VecResult (.vldb g d a imm) s 5 d gm 32 (fun _ => four s l)) ∧
      (∀ (k : BitVec 5) (loc : Nat → Nat),
        LanesHere s gm 2 (fun i => s.sr a + BitVec.ofNat 64 (64 * k.toNat + 2 * ((lane (s.vr b) i).toNat % 32))) loc →
        ∃ x, Returns (.rbias g d a b k) s 5 .v [.v d x (laneMask gm)] ∧ ∀ i, i < 32 → gm.getLsbD i = true →
          lane x i = toF32 ((valF (lane (s.vr d) i)).add (Fmt.bf16.val (two s (loc i)).toNat)))) ∧
  (∀ (s : State) (g : BitVec 4) (d a b : BitVec 6) (gm : BitVec 32), s.pr g = gm → gm ≠ 0#32 →
      (∀ (imm : BitVec 15) (l : Nat),
        (∀ i, i < 32 → gm.getLsbD i = true →
          s.target .vector (BitVec.ofInt 64 ((s.sr a).toInt + 16 * imm.toInt + 4 * i)) 4 = .here (l + 4 * i) ∧ Writable s (l + 4 * i) 4) →
        StoresLanes (.vst g d a imm) s gm (fun i => l + 4 * i) (s.vr d)) ∧
      (∀ loc : Nat → Nat,
        (∀ i, i < 32 → gm.getLsbD i = true →
          s.target .vector (s.sr a + BitVec.ofNat 64 i * s.sr b) 4 = .here (loc i) ∧ Writable s (loc i) 4) →
        StoresLanes (.vsts g d a b) s gm loc (s.vr d)) ∧
      (∀ (c : BitVec 2) (loc : Nat → Nat),
        (∀ i, i < 32 → gm.getLsbD i = true →
          s.target .vector (BitVec.ofNat 64 ((s.sr a).toNat + (lane (s.vr b) i).toNat * 2 ^ c.toNat)) 4 = .here (loc i) ∧
          Writable s (loc i) 4) →
        StoresLanes (.vstx g d a b c) s gm loc (s.vr d))) ∧
  (∀ (s : State) (g : BitVec 4) (d a b : BitVec 6) (gm : BitVec 32), s.pr g = gm → gm ≠ 0#32 → CanFly s →
      (∀ imm : BitVec 15, ∀ e : Word, e = BitVec.ofInt 64 ((s.sr a).toInt + 16 * imm.toInt) →
        LanesAway s gm 4 (fun i => e + BitVec.ofNat 64 (4 * i)) →
        s.oneWindow 4 (lanesAt gm fun i => e + BitVec.ofNat 64 (4 * i)) = true →
        Flies (.vld g d a imm) s .v [e] 0#1024 0#1024 gm ∧ Flies (.vst g d a imm) s .v [e] (s.vr d) 0#1024 gm) ∧
      (LanesAway s gm 4 (fun i => s.sr a + BitVec.ofNat 64 i * s.sr b) →
        Flies (.vlds g d a b) s .v (captured gm fun i => s.sr a + BitVec.ofNat 64 i * s.sr b) 0#1024 0#1024 gm ∧
        Flies (.vsts g d a b) s .v (captured gm fun i => s.sr a + BitVec.ofNat 64 i * s.sr b) (s.vr d) 0#1024 gm) ∧
      (∀ c : BitVec 2, LanesAway s gm 4 (fun i => s.sr a + ((lane (s.vr b) i).setWidth 64 <<< c.toNat)) →
        Flies (.vldx g d a b c) s .v (captured gm fun i => s.sr a + ((lane (s.vr b) i).setWidth 64 <<< c.toNat)) 0#1024 0#1024 gm ∧
        Flies (.vstx g d a b c) s .v (captured gm fun i => s.sr a + ((lane (s.vr b) i).setWidth 64 <<< c.toNat)) (s.vr d) 0#1024 gm) ∧
      (∀ imm : BitVec 15, ∀ e : Word, e = BitVec.ofInt 64 ((s.sr a).toInt + 4 * imm.toInt) →
        (∃ w l, s.target .vector e 4 = .remote w l) → Flies (.vldb g d a imm) s .v [e] 0#1024 0#1024 gm) ∧
      (∀ k : BitVec 5, LanesAway s gm 2 (fun i => s.sr a + BitVec.ofNat 64 (64 * k.toNat + 2 * ((lane (s.vr b) i).toNat % 32))) →
        Flies (.rbias g d a b k) s .v (captured gm fun i => s.sr a + BitVec.ofNat 64 (64 * k.toNat + 2 * ((lane (s.vr b) i).toNat % 32)))
          (s.vr d) 0#1024 gm))

/-- R222, R409: RBSEED sets the key and the counter and RBCTR the counter, each discarding the queue and drawing four blocks; RBRD
takes the oldest word at latency 2. RBKT gives the bucket of a distance at latency 3 (R369): the distance itself while it is
small. -/
def Obligations.RandomBitsAndBuckets : Prop :=
  ∀ (s : State) (g : BitVec 4) (d a b : BitVec 6),
    (s.on g = true → ∃ t, exec (.rbseed g a b) s = .next t ∧ t.ctx.r.rbKey = s.sr a ∧
      t.ctx.r.rbCtr = (s.sr b).setWidth 128 + 4#128 ∧ t.ctx.r.rbQueue =
        (List.range 4).flatMap (fun k => philox ((s.sr b).setWidth 128 + BitVec.ofNat 128 k) (s.sr a)) ∧
      SameFile s.ctx.r t.ctx.r ∧ OnlyCtx s t) ∧
    (s.on g = true → ∃ t, exec (.rbctr g a b) s = .next t ∧ t.ctx.r.rbKey = s.ctx.r.rbKey ∧
      t.ctx.r.rbCtr = (s.sr b ++ s.sr a : BitVec 128) + 4#128 ∧ t.ctx.r.rbQueue =
        (List.range 4).flatMap (fun k => philox ((s.sr b ++ s.sr a : BitVec 128) + BitVec.ofNat 128 k) s.ctx.r.rbKey) ∧
      SameFile s.ctx.r t.ctx.r ∧ OnlyCtx s t) ∧
    (∀ x l, s.on g = true → s.ctx.r.rbQueue = x :: l → ∃ t, exec (.rbrd g d) s = .next t ∧
      Awaits (.rbrd g d) s t 2 .e [.s d (x.setWidth 64)] ∧ SameFile s.ctx.r t.ctx.r ∧ OnlyCtx s t ∧
      (12 < l.length → t.ctx.r.rbQueue = l ∧ t.ctx.r.rbCtr = s.ctx.r.rbCtr) ∧
      (8 < l.length → l.length ≤ 12 → t.ctx.r.rbQueue = l ++ philox s.ctx.r.rbCtr s.ctx.r.rbKey ∧ t.ctx.r.rbCtr = s.ctx.r.rbCtr + 1#128) ∧
      12 < t.ctx.r.rbQueue.length) ∧
    (s.pr g ≠ 0#32 → ∃ f : Nat → BitVec 32, VecResult (.rbkt g d a 0#1) s 3 d (s.pr g) 32 f ∧ ∀ i, i < 32 →
      ((lane (s.vr a) i).toInt < 0 → f i = 0#32) ∧ ((lane (s.vr a) i).toNat < 16 → f i = lane (s.vr a) i) ∧
      (3072 ≤ (lane (s.vr a) i).toInt → f i = 31#32)) ∧
    (s.pr g ≠ 0#32 → ∃ f : Nat → BitVec 32, VecResult (.rbkt g d a 1#1) s 3 d (s.pr g) 32 f ∧ ∀ i, i < 32 →
      ((lane (s.vr a) i).toNat < 8 → f i = lane (s.vr a) i) ∧
      (-8 < (lane (s.vr a) i).toInt → (lane (s.vr a) i).toInt < 0 → f i = 16#32 - lane (s.vr a) i) ∧
      (3072 ≤ (lane (s.vr a) i).toInt → f i = 15#32))

/-! ## Engines -/

/-- R356, R358, R362 to R368: an NMU operation whose checks pass and whose ranges fit the scoreboard is queued with its captured
staging words and completes by its event; MMA's streams and the range of ZLD and ZST are entered. A softmax with a bad ng7
traps ILL. R356, R362, R366: in its turn an NMU operation performs and leaves the unit. MMA adds block sums to the elements
inside its shape and leaves the others of a tile that is not poisoned; ZLD of FP32 rows takes each word at row and column.
Other tiles, and memory but for a ZST's, stay. R367, Table 15-5: one row of an online softmax whose new scores are all −∞
leaves its maximum, sum and output, and its probabilities are 0; else the new maximum is the larger, the old sum and output
are scaled by the exponential of the difference, and each score becomes the BF16 of its exponential. R364: a whole gang
starts, and every member's product may perform. Clauses that rest on log 36 are the model's choice and no rule of the spec.
Events, identities and their order are the model's own form (log 3). -/
def Obligations.NmuOperations : Prop :=
  (∀ (s : State) (g : BitVec 4), s.pr g ≠ 0#32 →
      (∀ (d : BitVec 2) (z : BitVec 1) (ss : List (Nat × Nat × Nat × Nat)) (rs : List Rng),
        ss = streams s.ngs (shapeOf (s.ngs.getD 4 0#64)) 0 0 → productTrap s.ngs ss false 0x80000 = none →
        rs = ss.map (fun q => (locScratch s.here (streamSpan q).1, locScratch s.here (streamSpan q).2, false)) →
        rs.any s.rangeRefused = false → s.nmuQuarantined s.here = false → s.sbRoom rs.length = true →
        NmuSent (.mma g d z) s 0#64 0#64 rs) ∧
      (∀ (d : BitVec 2) (x y : BitVec 1), s.sbRoom 0 = true → NmuSent (.zclr g d x y) s 0#64 0#64 []) ∧
      (∀ (d : BitVec 2) (a b : BitVec 6) (x y : BitVec 1) (r : Rng), s.sbRoom 1 = true →
        (s.tileRange (s.sr a) (s.sr b) (x == 1#1) (y == 1#1) false = .ok r → NmuSent (.zld g d a b x y) s (s.sr a) (s.sr b) [r]) ∧
        (s.tileRange (s.sr a) (s.sr b) (x == 1#1) (y == 1#1) true = .ok r → NmuSent (.zst g d a b x y) s (s.sr a) (s.sr b) [r])) ∧
      (∀ d a : BitVec 2, s.sbRoom 0 = true →
        (softOk (s.ngs.getD 7 0#64) = true → NmuSent (.osm g d a) s 0#64 0#64 [] ∧ NmuSent (.osmf g d) s 0#64 0#64 []) ∧
        (softOk (s.ngs.getD 7 0#64) = false → exec (.osm g d a) s = .next (s.trapAt .v 0x01#8 0#64 0#64) ∧
          exec (.osmf g d) s = .next (s.trapAt .v 0x01#8 0#64 0#64))) ∧
      (∀ (d : BitVec 2) (z : BitVec 1) (n : Nat), n = bits (s.ngs.getD 5 0#64) 2 0 →
        productTrap s.ngs (streams s.ngs (shapeOf (s.ngs.getD 4 0#64))
          ((gangPos (s.ngs.getD 5 0#64)).2.2.1 * (shapeOf (s.ngs.getD 4 0#64)).m)
          ((gangPos (s.ngs.getD 5 0#64)).2.2.2 * (shapeOf (s.ngs.getD 4 0#64)).n)) (!gangOk (s.ngs.getD 5 0#64)) 0x600000 = none →
        s.nmuQuarantined s.here = false → s.sbRoom 0 = true →
        (s.gangs.find? fun k => k.clu == cluOf s.here && k.gid == n) = none →
        ∃ t op k, exec (.mmag g d z) s = .next t ∧ op.id = s.uid + 1 ∧ op.gang = true ∧ op.i = .mmag g d z ∧ op.ng = s.ngs ∧
          t.core = { s.core with nmuq := s.core.nmuq ++ [op] } ∧ t.gangs = s.gangs ++ [k] ∧ k.clu = cluOf s.here ∧ k.gid = n ∧
          k.started = false ∧ k.mem = [(s.here, s.uid + 1, 4 * (gangPos (s.ngs.getD 5 0#64)).2.2.1 + (gangPos (s.ngs.getD 5 0#64)).2.2.2)] ∧
          t.ctx = s.ctx ∧ SameBytes s t ∧ SameCsr s t)) ∧
  (∀ (s : State) (op : NmuOp) (G : Nat), G = s.ev.x →
      ((s.coreAt G).nmuq.find? fun q => q.id == s.ev.y) = some op → (s.coreAt G).nmuReady op = true →
      ∃ t, exec .nmuOperationComplete s = .next t ∧
        ((∀ g d a b x y, op.i ≠ .zst g d a b x y) → (∀ q ∈ (t.coreAt G).nmuq, q.id ≠ s.ev.y) ∧ SameBytes s t ∧ SameCsr s t) ∧
        (∀ g d z, op.i = .mma g d z → ((s.coreAt G).tile d).poison = false → ∀ r c, r < 64 → c < 64 → ((t.coreAt G).tile d).el r c =
          if r < (shapeOf (op.ng.getD 4 0#64)).m ∧ c < (shapeOf (op.ng.getD 4 0#64)).n then
            dot (fun o => (s.byteAt (locScratch G o)).toNat) op.ng (shapeOf (op.ng.getD 4 0#64)) r c
              (if z = 1#1 then 0#32 else ((s.coreAt G).tile d).el r c)
          else ((s.coreAt G).tile d).el r c) ∧
        (∀ g d a b e, op.i = .zld g d a b 0#1 0#1 → ((s.coreAt G).sb.find? fun k => setHas op.sbs k.id) = some e →
          ∀ r c, r < 64 → c < 64 → ((t.coreAt G).tile d).el r c = four s (e.lo + r * op.b.toNat + 4 * c)) ∧
        (∀ d n : BitVec 2, tilesOf op.i = [d] → n ≠ d → (t.coreAt G).tile n = (s.coreAt G).tile n)) ∧
  (∀ (oc ov : Nat) (z o : Nat → BitVec 32) (m sum new al : BitVec 32),
      new = nanmax m ((List.range oc).foldl (fun acc j => nanmax acc (z j)) 0xff800000#32) →
      (new = 0xff800000#32 → (softRow oc ov z m sum o).2.1 = m ∧ (softRow oc ov z m sum o).2.2.1 = sum ∧
        (∀ c, (softRow oc ov z m sum o).2.2.2 c = o c) ∧ ∀ j, j < oc → (softRow oc ov z m sum o).1 j = 0#32) ∧
      (new ≠ 0xff800000#32 → (valF new).isNan = false → al = (if m = 0xff800000#32 then 0#32 else exp2F (subF m new)) →
        (softRow oc ov z m sum o).2.1 = new ∧
        (∀ j, j < oc → (softRow oc ov z m sum o).1 j = (BitVec.ofNat 32 (toBf16 (exp2F (subF (z j) new)))) <<< 16) ∧
        (∀ j, oc ≤ j → (softRow oc ov z m sum o).1 j = z j) ∧
        (softRow oc ov z m sum o).2.2.1 = fmaF sum al (windowSum ((List.range oc).map fun j =>
          (Fmt.bf16.val (toBf16 (exp2F (subF (z j) new)))).term)) ∧
        (∀ c, c < ov → (softRow oc ov z m sum o).2.2.2 c = toF32 ((valF (o c)).mul (valF al))) ∧
        ∀ c, ov ≤ c → (softRow oc ov z m sum o).2.2.2 c = o c)) ∧
  (∀ (s : State) (g : Gang), (s.gangs.find? fun h => h.clu == s.ev.x && h.gid == s.ev.y && !h.started) = some g → g.whole = true →
      ∃ t, exec .gangStart s = .next t ∧ t.gangs = (s.gangs.map fun h => if h == g then { h with started := true } else h) ∧
        (∀ m ∈ g.mem, ({ i := .nmuOperationComplete, x := m.1, y := m.2.1 } : Ev) ∈ t.agenda ∧
          ∀ q ∈ (t.coreAt m.1).nmuq, q.id = m.2.1 → q.gang = false) ∧
        SameBytes s t ∧ SameCsr s t)

/-- R365: a ZCLR in its turn sets every element of its tile to +0 and clears its poison where F is 1, and every maximum to −∞ and
every sum to +0 where S is 1, but for a tile that stays poisoned, of which that would replace only a part (R138); it reads no
memory, and nothing else of any tile changes. Events, identities and their order are the model's own form (log 3). -/
def Obligations.ZclrClearsTile : Prop :=
  ∀ (s : State) (op : NmuOp) (G : Nat) (g : BitVec 4) (d : BitVec 2) (x y : BitVec 1), G = s.ev.x →
    ((s.coreAt G).nmuq.find? fun q => q.id == s.ev.y) = some op → (s.coreAt G).nmuReady op = true → op.i = .zclr g d x y →
    ∃ t, exec .nmuOperationComplete s = .next t ∧
      ((t.coreAt G).tile d).poison = (if y = 1#1 then false else ((s.coreAt G).tile d).poison) ∧
      (∀ r, r < 64 →
        ((t.coreAt G).tile d).zm.getD r 0#32 = (if x = 1#1 ∧ (y = 1#1 ∨ ((s.coreAt G).tile d).poison = false) then 0xff800000#32
          else ((s.coreAt G).tile d).zm.getD r 0#32) ∧
        ((t.coreAt G).tile d).zs.getD r 0#32 = (if x = 1#1 ∧ (y = 1#1 ∨ ((s.coreAt G).tile d).poison = false) then 0#32 else ((s.coreAt G).tile d).zs.getD r 0#32) ∧
        ∀ c, c < 64 → ((t.coreAt G).tile d).el r c = if y = 1#1 then 0#32 else ((s.coreAt G).tile d).el r c) ∧
      (∀ n, n ≠ d → (t.coreAt G).tile n = (s.coreAt G).tile n) ∧ SameBytes s t ∧ SameCsr s t

/-- R368: an OSMF in its turn divides the output elements of each row by the row's sum, correctly rounded, and gives +0 in a row
whose sum is +0; every other element, the maxima and the sums stay. Events, identities and their order are the model's own
form (log 3). -/
def Obligations.OsmfNormalisesRows : Prop :=
  ∀ (s : State) (op : NmuOp) (G : Nat) (g : BitVec 4) (d : BitVec 2), G = s.ev.x →
    ((s.coreAt G).nmuq.find? fun q => q.id == s.ev.y) = some op → (s.coreAt G).nmuReady op = true → op.i = .osmf g d →
    ∃ t, exec .nmuOperationComplete s = .next t ∧
      (∀ r c, r < 64 → c < 64 → ((t.coreAt G).tile d).el r c =
        if r < bits (op.ng.getD 7 0#64) 6 0 ∧ c < bits (op.ng.getD 7 0#64) 22 16 then
          (if ((s.coreAt G).tile d).zs.getD r 0#32 = 0#32 then 0#32
           else toF32 ((valF (((s.coreAt G).tile d).el r c)).div (valF (((s.coreAt G).tile d).zs.getD r 0#32))))
        else ((s.coreAt G).tile d).el r c) ∧
      ((t.coreAt G).tile d).zm = ((s.coreAt G).tile d).zm ∧ ((t.coreAt G).tile d).zs = ((s.coreAt G).tile d).zs ∧
      (∀ n, n ≠ d → (t.coreAt G).tile n = (s.coreAt G).tile n) ∧ SameBytes s t ∧ SameCsr s t

/-- R399 to R401: a copy whose checks pass, with room in its queue and in the scoreboard, is queued with its form in FORM; with no
room it blocks; a failing check traps with the address that it names. R406, R407: a collective whose checks pass, outside a
segment and with room, is queued with its form; a failing check traps. Clauses that rest on logs 3 and 23 are the model's
choice and no rule of the spec. -/
def Obligations.CommandsQueue : Prop :=
  (∀ (s : State) (g : BitVec 4), s.on g = true →
      ∀ (i : Instr) (form : Nat), (i = .cpy g ∧ form = 0) ∨ (i = .cpy2 g ∧ form = 1) ∨ (i = .cpyg g ∧ form = 2) ∨ (i = .cpyf g ∧ form = 3) →
        (∀ c a, s.copyCheck i s.cgs = .error (c, a) → exec i s = .next (s.trapAt .e c a 0#64)) ∧
        (∀ rs, s.copyCheck i s.cgs = .ok rs → s.ctx.eq.length < 16 → s.sbRoom rs.length = true →
          CommandQueued i s (s.cgs.set 0 (setBits (s.cgs.getD 0 0#64) 55 54 form)) rs s.inSeg .copyCommandStart) ∧
        (∀ rs, s.copyCheck i s.cgs = .ok rs → 16 ≤ s.ctx.eq.length ∨ s.sbRoom rs.length = false → exec i s = .next s.block)) ∧
  (∀ (s : State) (g : BitVec 4) (r : BitVec 1), s.on g = true →
      ∀ (i : Instr) (form : Nat), (i = .cred g r ∧ form = 0) ∨ (i = .cbcst g ∧ form = 1) ∨ (i = .cagth g ∧ form = 2) ∨
          (i = .ca2a g ∧ form = 3) →
        (∀ c a, s.collTrap i s.kgs = some (c, a) → exec i s = .next (s.trapAt .e c a 0#64)) ∧
        (s.collTrap i s.kgs = none → s.ctx.eq.length < 16 → s.ctx.seg = none →
          CommandQueued i s (s.kgs.set 0 (setBits (s.kgs.getD 0 0#64) 39 38 form)) [] false .collectiveArrival) ∧
        (s.collTrap i s.kgs = none → 16 ≤ s.ctx.eq.length → exec i s = .next s.block))

/-- R123, R208, R209, R399, R403: the head command of the present strand's queue, when it is next in turn, starts with the words
of its record; while the record's page waits it stays due; a command without a seal whose payload is complete leaves its
queue, and its scoreboard entries and ranges go; one whose seal has not performed at its scope stays; a fault stops its queue
at the last whole 256 B step and gives its strand an asynchronous trap that names it. R54, R402: bytes moved from remote
memory into the command's own scratchpad outside a segment arrive unchanged at their place, and every other byte stays.
Events, identities and their order are the model's own form (log 3). -/
def Obligations.CommandsRun : Prop :=
  ((∀ (s : State) (c : Cmd) (l : List Cmd), s.ctx.eq = c :: l → c.id = s.ev.y → s.ctx.eqStop = false → c.running = false →
      c.faulted = false → s.enginesBusy (cluOf c.core) < 4 → s.cmdFree s.ctx c = true → s.nextInTurn c = true →
      (∀ (w : List Word) (u : State),
        s.getWordsVA (.cluster (cluOf c.core)) s.here (s.ctx.r.tfb + BitVec.ofNat 64 (0x7c00 + 64 * (s.ctx.eqHead % 16))) 8 = .ok (w, u) →
        ∃ t, exec .copyCommandStart s = .next t ∧ t.ctx.eq.head? = some { c with w := w, running := true } ∧
          ({ i := .copyCommandComplete, x := s.ev.x, y := c.id } : Ev) ∈ t.agenda ∧ t.ctx.r = s.ctx.r ∧ SameBytes u t ∧ SameCsr u t) ∧
      (∀ q : Option Tried,
        s.getWordsVA (.cluster (cluOf c.core)) s.here (s.ctx.r.tfb + BitVec.ofNat 64 (0x7c00 + 64 * (s.ctx.eqHead % 16))) 8 = .error (.wait q) →
        exec .copyCommandStart s = .next ((s.kept q).queue s.ev))) ∧
    (∀ (s u : State) (c : Cmd) (l : List Cmd) (g : BitVec 4), s.ctx.eq = c :: l → c.id = s.ev.y → c.i = .cpy g → c.running = true →
      c.total ≤ c.prog → c.seg = false → (c.w.getD 0 0#64).getLsbD 60 = false → c.sealed = none → c.core = s.here →
      (s.finishSb s.here c.sbs).eqStore (.cluster (cluOf s.here)) s.here s.ctx.r.tfb 0
        [BitVec.ofNat 64 (s.ctx.eqHead + 1), BitVec.ofNat 64 (s.ctx.eqHead + s.ctx.eq.length), 0#64] = .ok u →
      ∃ t, exec .copyCommandComplete s = .next t ∧ (∀ q ∈ t.ctx.eq, q.id ≠ c.id) ∧ t.ctx.eqHead = s.ctx.eqHead + 1 ∧
        (∀ e ∈ t.core.sb, e.id ∉ c.sbs) ∧ (∀ e ∈ t.core.rng, e.id ∉ c.sbs) ∧ t.ctx.r = s.ctx.r ∧ SameBytes u t ∧ SameCsr u t) ∧
    (∀ (s : State) (c : Cmd) (l : List Cmd) (g : BitVec 4) (ls : List Nat), s.ctx.eq = c :: l → c.id = s.ev.y → c.i = .cpy g → c.running = true →
      c.total ≤ c.prog → c.seg = false → c.sealed = some ls →
      (∃ v ∈ s.inval, v.acc = false ∧ v.line ∈ ls ∧ inScope (bits (c.w.getD 0 0#64) 63 61) c.core v.core = true) →
      exec .copyCommandComplete s = .next (s.queue s.ev)) ∧
    (∀ (s u : State) (c : Cmd) (l : List Cmd) (g : BitVec 4) (n : Nat), s.ctx.eq = c :: l → c.id = s.ev.y → c.i = .cpy g → s.ctx.gone = false →
      s.ctx.st ≠ .stopped → n = (if c.prog < c.total then c.prog / 256 * 256 else c.prog) →
      s.eqStore (.cluster (cluOf c.core)) s.here s.ctx.r.tfb 0x10 [BitVec.ofNat 64 n, 1#64] = .ok u →
      ∃ t k, exec .engineCommandFault s = .next t ∧ t.ctx.eqStop = true ∧ (t.ctx.eq.head?).map (fun q => q.prog) = some n ∧
        t.ctx.due = s.ctx.due ++ [k] ∧ k.kind = .async ∧ k.cause = BitVec.ofNat 8 s.ev.z ∧ k.faddr = s.ev.v ∧ k.eng = true ∧
        k.eidx = BitVec.ofNat 4 s.ctx.eqHead ∧ k.slot = 3#2 ∧ t.ctx.r = s.ctx.r ∧ SameBytes u t ∧ SameCsr u t)) ∧
  (∀ (s s1 s2 : State) (c : Cmd) (src dst n ls ld : Nat) (nc md first : Bool) (cov : Option Bool), 0 < n →
      s.sideResolve c .read src n = .ok ([(ls, n, nc)], s1) → s1.sideResolve c .write dst n = .ok ([(ld, n, md)], s2) →
      regionOf ls = 0 → regionOf ld = 1 → c.seg = false → Clean s2 → s2.fenced = 0#8 →
      ∃ t, s.moveBytes c src dst n first cov = .ok t ∧ (∀ k, k < n → t.byteAt (ld + k) = s2.byteAt (ls + k)) ∧ SameBytesBut ld n s2 t)

/-- R208, R405, R408: a collective command at the head of its queue, with the words of its record, opens an instance at its key
and joins it; where its key's page faults it is stopped by its own event; a participant of another module joins with the
source that it brings; a complete instance raises its key by 1, goes, and leaves each member its seal to write. The arrival
from another module is the model's own form (log 39). R407, Table 17-6: element by element the reduction combines the ranks'
words in rank order; a broadcast gives every rank the root's bytes, a gather their concatenation, an exchange each rank's part
for the receiver. -/
def Obligations.CollectivesRun : Prop :=
  ((∀ (s u : State) (c d : Cmd) (l : List Cmd) (w : List Word), s.ctx.eq = c :: l → c.id = s.ev.y → 0 < c.id → s.ctx.eqStop = false →
      c.faulted = false → c.joined = false →
      s.getWordsVA (.cluster (cluOf c.core)) s.here (s.ctx.r.tfb + BitVec.ofNat 64 (0x7c00 + 64 * (s.ctx.eqHead % 16))) 8 = .ok (w, u) →
      d = { c with w := w } →
      (∀ (v : State) (ps : List Piece), (u.onCmd c.id fun _ => d).sideResolve d .write (w.getD 5 0#64).toNat 8 = .ok (ps, v) →
        ∀ k : State, k = { v with colls := v.colls.map fun g => { g with key := v.keyNow g } } →
        (k.colls.find? fun g => g.key == pieceByte ps 0) = none → k.collsShut (pieceByte ps 0) = false →
        ∃ t, exec .collectiveArrival s = .next t ∧
          t.colls = k.colls ++ [{ id := v.uid + 1, key := pieceByte ps 0, i := c.i, w0 := w.getD 0 0#64, mem := [(c.x, c.id, kgRank w)] }] ∧
          SameBytes v t ∧ SameCsr v t) ∧
      (∀ (k : BitVec 8) (a : Word) (wr : Bool) (q : Option Tried),
        (u.onCmd c.id fun _ => d).sideResolve d .write (w.getD 5 0#64).toNat 8 = .error (.fault k a wr q) →
        exec .collectiveArrival s = .next (((u.onCmd c.id fun _ => d).kept q).queue
          { i := .engineCommandFault, x := s.ev.x, y := c.id, z := k.toNat, v := a, w := BitVec.ofNat 64 (b2n wr) }))) ∧
    (∀ (s u : State) (g : Coll) (c : Cmd) (b : BitVec 4) (k : Nat) (nc : Bool), (s.colls.find? fun h => h.id == s.ev.x) = some g →
      s.collMembers g = some [c] → kgParts [g.w0] = 1 → c.i = .cbcst b → g.i = .cbcst b → kgLen c.w = 0 → kgRank c.w = 0 →
      s.sideResolve c .write (c.w.getD 5 0#64).toNat 8 = .ok ([(k, 8, nc)], u) → isHbm k = true → k % 8 = 0 → Clean u → u.fenced = 0#8 →
      u.waitsAt k 8 = false →
      ∃ t, exec .collectiveComplete s = .next t ∧ eight t k = eight u k + 1#64 ∧ SameBytesBut k 8 u t ∧
        (∀ h ∈ t.colls, h.id ≠ s.ev.x) ∧ ({ i := .copyCommandComplete, x := c.x, y := c.id } : Ev) ∈ t.agenda) ∧
    (∀ s : State, s.ev.y = 0 → s.migrating s.ev.x = false → (s.colls.find? fun g => g.key == s.ev.x) = none → s.collsShut s.ev.x = false →
      ∃ t data poi, exec .collectiveArrival s = .next t ∧
        t.colls = s.colls ++ [{ id := s.uid + 1, key := s.ev.x, i := collOf s.ev.v (s.ev.z != 0), w0 := s.ev.v, mem := [],
                                out := [(kgRank [s.ev.v], data, poi)] }] ∧
        data.length = collReads (collOf s.ev.v (s.ev.z != 0)) [s.ev.v] (kgRank [s.ev.v]) ∧
        (∀ k, k < data.length → data.getD k 0#8 = s.ev.bytes.getD k 0#8) ∧ SameBytes s t ∧ SameCsr s t)) ∧
  (∀ (w : List Word) (g : BitVec 4) (j : Nat) (x : Share) (xs : List Share),
      collResult (.cbcst g) w j (x :: xs) = x ∧ (collResult (.cagth g) w j (x :: xs)).bytes = (x :: xs).flatMap (·.bytes) ∧
      (collResult (.ca2a g) w j (x :: xs)).bytes = (x :: xs).flatMap (fun q => (q.bytes.drop (j * kgLen w)).take (kgLen w)) ∧
      (j ≠ 0 → (collResult (.cred g 1#1) w j (x :: xs)).bytes = []) ∧
      (∀ (a b c : BitVec 32) (m : List Bool),
        (collResult (.cred g 0#1) w j [⟨natToBytes 4 a.toNat, m, []⟩, ⟨natToBytes 4 b.toNat, m, []⟩, ⟨natToBytes 4 c.toNat, m, []⟩]).bytes =
          natToBytes 4 (match kgOp w with
            | 0 => addF (addF a b) c
            | 1 => maxF (maxF a b) c
            | 2 => a + b + c
            | _ => maxS (maxS a b) c).toNat))

/-- R347 to R354: an index that passes the sector traps FIELD_OWN; FMAP binds a plot that no core owns, within eight plots, and
releases an owned one; FMODE, FLOAD and FSWAP act on owned plots in the state that they need; FSTAT lands the status at
latency 2; FREMAP, at supervisor level, points a macro's spare and refetches its rows. Clauses that rest on logs 3 and 35 are
the model's choice and no rule of the spec. -/
def Obligations.FieldInstructionsIssue : Prop :=
  ∀ (s : State) (g : BitVec 4) (d a : BitVec 6) (q : BitVec 5) (n : Nat), s.on g = true →
    (32 ≤ (s.sr a).toNat + q.toNat → exec (.fmap g a q) s = .next (s.trapAt .e 0x08#8 0#64 0#64) ∧
      exec (.fswap g a q) s = .next (s.trapAt .e 0x08#8 0#64 0#64) ∧ exec (.fstat g d a q) s = .next (s.trapAt .e 0x08#8 0#64 0#64)) ∧
    ((s.sr a).toNat + q.toNat < 32 → n = plotOfQ s.here ((s.sr a).toNat + q.toNat) →
      (s.owns s.here n = false → s.othersPlot s.here n = false → s.plotsOwned s.here < 8 →
        s.plotQuarantined (plotTower n) (n % 256) = false → (s.plotWord n).getLsbD 63 = false →
        FieldSent (.fmap g a q) s .fmapArrival n 0 0 0 0#64) ∧
      (s.owns s.here n = false → s.othersPlot s.here n = true → exec (.fmap g a q) s = .next (s.trapAt .e 0x08#8 0#64 0#64)) ∧
      (s.owns s.here n = true → FieldSent (.fmapRel g a q) s .plotReleasePerform n 1 0 0 0#64) ∧
      (s.owns s.here n = false → exec (.fmapRel g a q) s = .next s) ∧
      (∀ h : BitVec 1, s.owns s.here n = true →
        (plCompute (s.plotIssued n) h.toNat = false → FieldSent (.fmode g a 1#1 h q) s .fmodePerform n 2 h.toNat 1 0#64) ∧
        (plCompute (s.plotIssued n) h.toNat = true → exec (.fmode g a 1#1 h q) s = .next s) ∧
        (plLoading (s.plotIssued n) h.toNat = false → FieldSent (.fmode g a 0#1 h q) s .fmodePerform n 2 h.toNat 0 0#64) ∧
        (plLoading (s.plotIssued n) h.toNat = true → exec (.fmode g a 0#1 h q) s = .next (s.trapAt .e 0x07#8 0#64 0#64))) ∧
      (∀ k h : BitVec 1, s.owns s.here n = true → (s.sr d).toNat % 256 = 0 → (s.sr d).toNat + 0x108000 ≤ 0xfffffff000000000 →
        plAct (s.plotIssued n) ≠ h.toNat → plLoading (s.plotIssued n) h.toNat = false →
        FieldSent (.fload g d a k h q) s .reloadStart n 3 h.toNat k.toNat (s.sr d)) ∧
      (s.owns s.here n = true → plCompute (s.plotIssued n) (1 - plAct (s.plotIssued n)) = true →
        FieldSent (.fswap g a q) s .fswapPerform n 4 0 0 0#64) ∧
      Returns (.fstat g d a q) s 2 .e [.s d (s.plotStatus n)]) ∧
    (s.ctx.r.sup = true → n = 256 * (s.here / 192) + (s.sr a).toNat % 256 → (s.plotWord n).getLsbD 53 = false →
      plCompute (s.plotWord n) 0 = false → plCompute (s.plotWord n) 1 = false → plLoading (s.plotWord n) 0 = false →
      plLoading (s.plotWord n) 1 = false → (s.sr a).toNat / 256 % 8 < 4 → (s.plotWord n).getLsbD 35 = false →
      ∃ t, exec (.fremap g a) s = .next t ∧
        t.plotWord n = setBits (s.plotWord n) 35 30 (32 + 8 * ((s.sr a).toNat / 256 % 8) + (s.sr a).toNat / 2048 % 8) ∧
        t.refetch.length = s.refetch.length + 528 ∧ t.ctx = s.ctx ∧ SameBytes s t ∧
        ∀ o, o ≠ oFPLST (plotTower n) (n % 256) → t.reg o = s.reg o)

/-- R338, R348 to R351: in plot order a bind writes the owner's core, a release clears it, a mode change writes the half's mode
bit and a swap turns the active half, which is under no reload then; each leaves the other fields of the status. R335 to R337:
a started reload reads the 16 B parts of its image one at a time, whichever of those left the free choice names: a sound part
is written at its place in the half, and a part that faults makes the reload bad and remembers the fault; once none is left it
completes: the half leaves LD with the loaded format, its origin is recorded, and the operation leaves plot order; a fault of
one gives the strand that issued it an asynchronous trap. Clauses that rest on logs 35 and 12 are the model's choice and no
rule of the spec. Events, identities and their order are the model's own form (log 3). -/
def Obligations.FieldOperationsPerform : Prop :=
  (∀ (s : State) (op : FieldOp), FieldTurn s op →
      (op.kind = 0 → PlotBecomes .fmapArrival s op (setBits (s.plotWord op.plot) 61 53 (2 * (op.core % 192) + 1))) ∧
      (op.kind = 1 → PlotBecomes .plotReleasePerform s op (setBits (s.plotWord op.plot) 61 53 0)) ∧
      (op.kind = 2 → PlotBecomes .fmodePerform s op (setBits (s.plotWord op.plot) (4 * op.h + 2) (4 * op.h + 2) op.v)) ∧
      (op.kind = 4 → PlotBecomes .fswapPerform s op (setBits (s.plotWord op.plot ^^^ 0x8000#64)
        (4 * (1 - plAct (s.plotWord op.plot)) + 3) (4 * (1 - plAct (s.plotWord op.plot)) + 3) 0)) ∧
      (op.kind = 3 → op.started = false → ∃ t, exec .reloadStart s = .next t ∧
        t.plotWord op.plot = setBits (s.plotWord op.plot) (4 * op.h + 3) (4 * op.h + 2) 3 ∧
        (∀ o, o ≠ oFPLST (plotTower op.plot) (op.plot % 256) → t.reg o = s.reg o) ∧ SameBytes s t ∧ t.ctx = s.ctx)) ∧
  ((∀ (s u : State) (op : FieldOp) (k : Nat) (l : List (Nat × Nat)) (bs : List Byte), (s.fops.find? fun o => o.id == s.ev.y) = some op →
      op.started = true → takePart op.left (Config.freeIndex s.free % partsLeft op.left) = some (k, l) → op.plot < 2048 → op.h < 2 → k < reloadParts →
      bs.length = 16 →
      s.originPart 16 (decide (k % 4 = 0)) (plotTower op.plot) op.core op.sup (op.org.toNat + 16 * k) = (u, .line bs false none) →
      ∃ t, exec .reloadComplete s = .next t ∧ (∀ j, j < 16 → t.byteAt (partLoc op.plot op.h k + j) = bs.getD j 0#8) ∧
        SameBytesBut (partLoc op.plot op.h k) 16 u t ∧ (t.fops.find? fun o => o.id == s.ev.y) = some { op with left := l } ∧ s.ev ∈ t.agenda) ∧
    (∀ (s u : State) (op : FieldOp) (k : Nat) (l : List (Nat × Nat)) (c : BitVec 8) (va : Word), (s.fops.find? fun o => o.id == s.ev.y) = some op →
      op.started = true → takePart op.left (Config.freeIndex s.free % partsLeft op.left) = some (k, l) → op.flt = none →
      s.originPart 16 (decide (k % 4 = 0)) (plotTower op.plot) op.core op.sup (op.org.toNat + 16 * k) = (u, .fault c va) →
      ∃ t, exec .reloadComplete s = .next t ∧ t.poisonedAt (partLoc op.plot op.h k) 1 = true ∧ SameBytes u t ∧
        (t.fops.find? fun o => o.id == s.ev.y) = some { op with left := l, bad := true, flt := some (c, va) }) ∧
    (∀ (s : State) (op : FieldOp), (s.fops.find? fun o => o.id == s.ev.y) = some op → op.started = true → op.left = [] → op.plot < 2048 → op.h < 2 →
      op.v < 2 →
      ∃ t, exec .reloadComplete s = .next t ∧ plLoading (t.plotWord op.plot) op.h = false ∧ plFp4 (t.plotWord op.plot) op.h = (op.v == 1) ∧
        t.reg (oFORG (plotTower op.plot) (op.plot % 256) op.h) = setBits op.org 7 0 (if op.bad then 0 else 1) ∧ (∀ o ∈ t.fops, o.id ≠ op.id) ∧
        SameBytes s t) ∧
    (∀ s : State, s.ev.y ∈ s.ctx.ops → s.ctx.gone = false →
      ∃ t k, exec .reloadFault s = .next t ∧ t.ctx.due = s.ctx.due ++ [k] ∧ k.kind = .async ∧ k.cause = BitVec.ofNat 8 s.ev.z ∧
        k.faddr = s.ev.v ∧ k.slot = 3#2 ∧ s.ev.y ∉ t.ctx.ops ∧ t.ctx.r = s.ctx.r ∧ SameBytes s t ∧ SameCsr s t))

/-- R341 to R346, R352: FGO whose shadow table is in range and whose checks pass commits a nest with its ranges; a table with a
level of no iterations has no effect; a must-be-zero bit traps ILL; a second committed nest of the context blocks. R124, R138,
R329, R333, R334, R343 to R346: the sequencer takes a committed nest when none runs; a step whose turn has come computes every
output of its plot's active half as a window sum of its chain and hands them to the collector, poisoned once the nest has read
poison; a skipped row of a gather only counts; the collector writes or adds them to the A-store word by word; after the last
step its read entries go; and a nest whose steps and results are done releases its ranges. Events, identities and their order
are the model's own form (log 3). -/
def Obligations.NestsCommitAndRun : Prop :=
  (∀ (s : State) (g : BitVec 4) (rs : List Rng), s.on g = true →
      (ftIll s.shadowTable = true → exec (.fgo g) s = .next (s.trapAt .e 0x01#8 0#64 0#64)) ∧
      (ftIll s.shadowTable = false → ftEmpty s.shadowTable = true → exec (.fgo g) s = .next s) ∧
      (ftIll s.shadowTable = false → ftEmpty s.shadowTable = false →
        rs = ((ftReads s.shadowTable).map fun r => (locScratch s.here r.1.toNat, locScratch s.here r.2.toNat, false)) ++
          ((ftWrites s.shadowTable (((ftPlots s.shadowTable).getD []).any fun q =>
            plFp4 (s.plotIssued (plotOfQ s.here q)) (ftHalf s.shadowTable))).map fun r =>
              (locAstore s.here (4 * r.1.toNat), locAstore s.here (4 * r.2.toNat), true)) →
        s.nestTrap s.shadowTable rs = none →
        ((s.core.commits.any fun n => n.x == s.me) = false → s.sbRoom rs.length = true →
          ∃ t n es, exec (.fgo g) s = .next t ∧ n = { id := s.uid + 1, x := s.me, ft := s.shadowTable, sbs := es.map (fun (e : SbEntry) => e.id), tag := s.ctx.r.tag, seg := s.inSeg } ∧
            es.map (fun (e : SbEntry) => (e.lo, e.hi, e.wr)) = rs ∧
            t.core = { s.core with sb := s.core.sb ++ es, rng := s.core.rng ++ es, commits := s.core.commits ++ [n] } ∧
            t.ctx = { s.ctx with ops := s.ctx.ops ++ [n.id] } ∧ SameBytes s t ∧ SameCsr s t ∧
            t.agenda = s.agenda ++ [{ i := .nestStart, x := s.here }]) ∧
        ((s.core.commits.any fun n => n.x == s.me) = true ∨ s.sbRoom rs.length = false → exec (.fgo g) s = .next s.block))) ∧
  (∀ (s : State) (G : Nat), G = s.ev.x →
      (∀ n l, (s.coreAt G).nest = none → (s.coreAt G).commits = n :: l → ∃ t, exec .nestStart s = .next t ∧
        (t.coreAt G).nest = some n ∧ (t.coreAt G).commits = l ∧ t.agenda = s.agenda ++ [{ i := .nestStep, x := G }] ∧ SameBytes s t ∧
        SameCsr s t) ∧
      (∀ n, (s.coreAt G).nest = some n → n.step < ftSteps n.ft → s.nestReady G n = true → s.nestPoint G n.ft n.step = none →
        ∃ t, exec .nestStep s = .next t ∧ (t.coreAt G).nest = some { n with step := n.step + 1 } ∧ (t.coreAt G).coll = (s.coreAt G).coll ∧
          SameBytes s t ∧ SameCsr s t) ∧
      (∀ n p la ls ow ovw, (s.coreAt G).nest = some n → n.step < ftSteps n.ft → s.nestReady G n = true → n.seg = false →
        s.nestPoint G n.ft n.step = some (p, la, ls, ow, ovw) →
        ∃ t q b o es, exec .nestStep s = .next t ∧ (t.coreAt G).nest = some { n with step := n.step + 1, poi := b, outs := o, errs := es } ∧
          (∀ r, r ∈ o ↔ r ∈ n.outs ∨ r = (locAstore G (4 * ow), 4 * ftOuts n.ft (plFp4 (s.plotWord p) (plAct (s.plotWord p))))) ∧
          (∀ e ∈ es, e ∈ n.errs) ∧
          (t.coreAt G).coll = (s.coreAt G).coll ++ [q] ∧ q.1 = ow ∧ q.2.1 = ovw ∧
          q.2.2.1 = (List.range (ftOuts n.ft (plFp4 (s.plotWord p) (plAct (s.plotWord p))))).map (fun c =>
            s.chain p (plAct (s.plotWord p)) (plFp4 (s.plotWord p) (plAct (s.plotWord p))) (ftFp4 n.ft) (ftTr n.ft) la ls c) ∧
          (n.poi = true → b = true) ∧ (b = true → ∀ x ∈ q.2.2.2, x = true) ∧ (Clean s → b = n.poi ∧ ∀ x ∈ q.2.2.2, x = n.poi) ∧
          (n.away = false ∨ n.errs = [] → SameBytes s t ∧ SameCsr s t)) ∧
      (∀ n, (s.coreAt G).nest = some n → ftSteps n.ft ≤ n.step → ∃ t, exec .nestStep s = .next t ∧
        (∀ e ∈ (t.coreAt G).sb, setHas n.sbs e.id = true → e.wr = true) ∧ ({ i := .nestComplete, x := G } : Ev) ∈ t.agenda ∧
        SameBytes s t ∧ SameCsr s t) ∧
      (∀ ow ovw vals bad l, (s.coreAt G).coll = (ow, ovw, vals, bad) :: l → Clean s → (∀ b ∈ bad, b = false) →
        (∀ n, (s.coreAt G).nest = some n → n.seg = false) →
        ∃ t, exec .collectorApply s = .next t ∧ (t.coreAt G).coll = l ∧ SameCsr s t ∧
          (∀ k, k < vals.length → four t (locAstore G (4 * ow) + 4 * k) =
            if ovw then vals.getD k 0#32 else addF (four s (locAstore G (4 * ow) + 4 * k)) (vals.getD k 0#32)) ∧
          SameBytesBut (locAstore G (4 * ow)) (4 * vals.length) s t) ∧
      (∀ n, (s.coreAt G).nest = some n → ftSteps n.ft ≤ n.step → (s.coreAt G).coll = [] → ∃ t, exec .nestComplete s = .next t ∧
        (t.coreAt G).nest = none ∧ (∀ e ∈ (t.coreAt G).sb, setHas n.sbs e.id = false) ∧
        (∀ e ∈ (t.coreAt G).rng, setHas n.sbs e.id = false) ∧ SameBytes s t ∧ SameCsr s t))

/-- R134, R145, R150, R336, R412: a row check counts for the segment that waits for it, and one that fails spoils it and asks for
a refetch, but for a row that a reload has not yet written; a refetch that finds a sound line writes it and is done, and waits
while its half is under reload. An assay waits for its outcome; a match goes on, and a mismatch quarantines the unit and makes
the ASSAY trap due. Clauses that rest on log 35 are the model's choice and no rule of the spec. Events, identities and their
order are the model's own form (log 3). -/
def Obligations.RowChecksAndAssays : Prop :=
  (∀ (s : State) (g : Seg), s.ctx.seg = some g →
    (s.findCtx fun c => c.owed.any fun q => q.1 == s.ev.x) = none →
    ∃ t, exec .rowCheck s = .next t ∧
      t.ctx.seg = some { g with bad := g.bad || (s.ev.z != 0 && !s.unwritten s.ev.x s.ev.y && g.halves.any fun q => q.1 == s.ev.x)
                                badAt := if s.ev.z ≠ 0 ∧ s.unwritten s.ev.x s.ev.y = false ∧ (g.halves.any fun q => q.1 == s.ev.x) = true ∧ g.bad = false
                                  then BitVec.ofNat 64 (0x8000 * (s.ev.x % 0x8000) + 64 * s.ev.y) else g.badAt
                                halves := g.halves.map fun q => if q.1 = s.ev.x ∧ q.2 + s.ev.y = 264 then (q.1, q.2 - 1) else q } ∧
      (s.ev.z = 0 → t.refetch = s.refetch ∧ t.agenda = s.agenda) ∧
      (s.ev.z ≠ 0 → s.unwritten s.ev.x s.ev.y = false → (s.ev.x, s.ev.y) ∈ t.refetch ∧
        ((s.ev.x, s.ev.y) ∉ s.refetch → ({ i := .rowRefetchComplete, x := s.ev.x, y := s.ev.y } : Ev) ∈ t.agenda)) ∧
      (s.unwritten s.ev.x s.ev.y = true → t.refetch = s.refetch ∧ t.agenda = s.agenda) ∧
      t.ctx.r = s.ctx.r ∧ SameBytes s t ∧ SameCsr s t) ∧
  (∀ (s u : State) (x row : Nat) (bs : List Byte) (org : Word), x = s.ev.x → row = s.ev.y → row < 264 → (x, row) ∈ s.refetch →
    s.underReload x = false → org = s.reg (oFORG (plotTower (x / 128)) (x / 128 % 256) (x % 2)) → org.getLsbD 0 = true → bs.length = 64 →
    s.originLine (plotTower (x / 128)) (192 * plotTower (x / 128)) true (originRow org x row) = (u, .line bs false none) →
    ∃ t, exec .rowRefetchComplete s = .next t ∧ (∀ k, k < 64 → t.byteAt (halfLoc x (64 * row) + k) = bs.getD k 0#8) ∧
      (x, row) ∉ t.refetch ∧ setHas t.poison (halfLoc x (64 * row)) = false) ∧
  (∀ s : State, (s.ev.x, s.ev.y) ∈ s.refetch → s.underReload s.ev.x = true → exec .rowRefetchComplete s = .next (s.queue s.ev)) ∧
  (∀ (s : State) (g : BitVec 4) (q : BitVec 5) (nmu : BitVec 1) (seed : BitVec 6) (dig : BitVec 32), s.on g = true →
    (nmu = 1#1 ∨ s.ctx.r.sup = true ∨ s.owns s.here (plotOfQ s.here q.toNat) = true →
      exec (.assay g q nmu seed dig) s = .next { s with
        uid := s.uid + 1
        ctx := { s.ctx with assays := s.ctx.assays ++ [⟨s.uid + 1, if nmu = 1#1 then 32 else q.toNat, seed.toNat, dig, s.inSeg⟩] }
        agenda := s.agenda ++ [{ i := .assayOutcome, x := s.me, y := s.uid + 1 }] }) ∧
    (nmu = 0#1 → s.ctx.r.sup = false → s.owns s.here (plotOfQ s.here q.toNat) = false →
      exec (.assay g q nmu seed dig) s = .next (s.trapAt .e 0x08#8 0#64 0#64))) ∧
  (∀ (s : State) (a : Assay), (s.ctx.assays.find? fun b => b.id == s.ev.y) = some a →
    (s.ev.z = 0 → assayDigest a.q a.seed = a.dig → ∃ t, exec .assayOutcome s = .next t ∧
      t.ctx = { s.ctx with assays := s.ctx.assays.filter fun b => b.id != s.ev.y } ∧ SameBytes s t ∧ SameCsr s t) ∧
    (s.ev.z ≠ 0 ∨ assayDigest a.q a.seed ≠ a.dig → a.seg = false → s.ctx.r.deep = false → s.ctx.st ≠ .stopped → a.q < 32 →
      ∃ t, exec .assayOutcome s = .next t ∧ t.ctx.due = s.ctx.due ++ [{ kind := .after, cause := 0x0e#8, slot := 3#2 }] ∧
        t.plotQuarantined (plotTower (plotOfQ s.here a.q)) (plotOfQ s.here a.q % 256) = true ∧ t.ctx.r = s.ctx.r))

/-- R126, R372, R380, R393: a sequence or repair instruction whose descriptor address is paged and a multiple of 256, outside a
segment and with room in the ALQ, sends its request with its operands, SQCMT once the stores of the strand's earlier bundles
have performed at its scope; SQPOS reserves two entries. A misaligned descriptor traps ALIGN; a full ALQ blocks. R372, R382,
R383, R385: in its turn a request to a sequence unit answers its entry, once its words have been reached. SQLEN gives CL of an
open or shared sequence; SQRSV of more than the gap of 256 allows gives −1 and stores nothing; SQCMT of the next n positions
moves CL by n; a request that faults delivers its cause. Events, identities and their order are the model's own form (log 3). -/
def Obligations.SequencesIssueAndAnswer : Prop :=
  (∀ (s : State) (g : BitVec 4) (a b d : BitVec 6) (c : BitVec 3) (x w k : BitVec 1), s.on g = true → s.ctx.seg = none →
      (s.sr a).toNat < 0xfffffff000000000 →
      ((s.sr a).toNat % 256 = 0 → s.ctx.r.alq.length < 16 →
        SeqSent (.sqnew g a) s s (s.sr a) 0#64 0#64 [] 1 ∧ SeqSent (.sqnewReg g a b) s s (s.sr a) (s.sr b) 0#64 [] 1 ∧
        SeqSent (.sqrsv g a b) s s (s.sr a) (s.sr b) 0#64 [] 1 ∧
        (s.drainedOf (fun f => s.ctx.earlier f.id) 1#3 c.toNat = true → SeqSent (.sqcmt g d a b c) s (drainedAt s c.toNat) (s.sr a) (s.sr b) (s.sr d) [] 1) ∧
        (s.drainedOf (fun f => s.ctx.earlier f.id) 1#3 c.toNat = false → exec (.sqcmt g d a b c) s = .next s.freeze) ∧
        SeqSent (.sqabn g d a b) s s (s.sr a) (s.sr b) (s.sr d) [] 1 ∧ SeqSent (.sqfork g d a b) s s (s.sr a) (s.sr b) (s.sr d) [] 1 ∧
        SeqSent (.sqdrop g a) s s (s.sr a) 0#64 0#64 [] 1 ∧ SeqSent (.sqlen g a) s s (s.sr a) 0#64 0#64 [] 1 ∧
        SeqSent (.rprstat g a k) s s (s.sr a) 0#64 0#64 [] 1 ∧
        (bits (s.gr 52) 15 0 = 0 → SeqSent (.sqsplc g d a b) s s (s.sr a) (s.sr b) (s.sr d) s.qgs 1) ∧
        (repairTrap s.here s.qgs false = none → SeqSent (.rprchk g a) s s (s.sr a) 0#64 0#64 s.qgs 1) ∧
        (repairTrap s.here s.qgs true = none → SeqSent (.rprins g a) s s (s.sr a) 0#64 0#64 s.qgs 1) ∧
        (s.ctx.r.alq.length < 15 → SeqSent (.sqpos g d a b x w) s s (s.sr a) (s.sr b) (s.sr d) [] 2)) ∧
      ((s.sr a).toNat % 256 ≠ 0 → exec (.sqlen g a) s = .next (s.trapAt .e 0x04#8 (s.sr a) 0#64) ∧
        exec (.sqcmt g d a b c) s = .next (s.trapAt .e 0x04#8 (s.sr a) 0#64)) ∧
      ((s.sr a).toNat % 256 = 0 → 16 ≤ s.ctx.r.alq.length → exec (.sqlen g a) s = .next s.block ∧
        exec (.sqpos g d a b x w) s = .next s.block)) ∧
  (∀ (s u : State) (q : SeqReq), (s.sqq.find? fun r => r.id == s.ev.y) = some q → s.seqReady q = true → q.quiet = false →
      (∀ d g a, q.i = .sqlen g a → s.liveDesc q q.a = .ok (d, u) → d.st = 1 ∨ d.st = 2 → UnitAnswers s u q (d.at 0)) ∧
      (∀ d g a b, q.i = .sqrsv g a b → s.liveDesc q q.a = .ok (d, u) → d.st = 1 → q.b ≠ 0#64 → d.cl + 256 < d.rl + q.b.toNat →
        UnitAnswers s u q 0xffffffffffffffff#64) ∧
      (∀ d g r a b c v, q.i = .sqcmt g r a b c → s.liveDesc q q.a = .ok (d, v) → d.st = 1 → 0 < q.c.toNat → q.c.toNat ≤ 256 →
        q.b = d.at 0 → d.cl + q.c.toNat ≤ d.rl → d.fills = 0 →
        v.saveDesc q ((d.put 0 (d.at 0 + q.c)).putFills 0).bump = .ok u → UnitAnswers s u q (d.at 0 + q.c)) ∧
      (∀ c va wr k, s.seqOp q = .error (.fault c va wr k) →
        ∃ t, exec .sequenceUnitOperation s = .next t ∧
          t.agenda = (s.kept k).agenda ++ [{ i := .alqFaultCapture, x := q.x, y := q.slot.toNat, z := c.toNat, v := va, w := BitVec.ofNat 64 q.id }] ∧
          (∀ r ∈ t.sqq, r.id ≠ q.id) ∧ SameBytes (s.kept k) t ∧ SameCsr (s.kept k) t ∧ t.ctx = s.ctx))

/-! ## Sharing and scheduling -/

/-- R64, R65, R294, R296: BACQ of banks that are free or the strand's own holds them under its tag; a lacking bank blocks it. BREL
frees the strand's banks of its mask. A waiting bank is held, and a released one freed, by its own event, which waits for the
holder's engine operations in it and leaves a bank that has got another holder (log 66, the model's choice). A barrier counter
counts an arrival, and the last one of its target clears it and advances the phase. Events, identities and their order are the
model's own form (log 3). -/
def Obligations.BanksAndBarrierCounters : Prop :=
  (∀ (s : State) (g : BitVec 4) (a : BitVec 6) (p : BitVec 2) (m : BitVec 8) (M : BitVec 32), s.on g = true →
    M = (s.sr a).setWidth 32 ||| (m.setWidth 32 <<< (8 * p.toNat)) →
    ((∀ b, b < 32 → M.getLsbD b = true → s.mine b = true ∨ s.bankReady s.here b = true) →
      ∃ t, exec (.bacq g a p m) s = .next t ∧
        (∀ b, b < 32 → M.getLsbD b = true → t.bankHeld s.here b = true ∧ t.bankTag s.here b = s.ctx.r.tag) ∧
        (∀ b, b < 32 → M.getLsbD b = false → t.bankHeld s.here b = s.bankHeld s.here b ∧ t.bankTag s.here b = s.bankTag s.here b) ∧
        t.ctx.r = s.ctx.r ∧ t.ctx.phase = s.ctx.phase ∧ SameBytes s t) ∧
    (∀ b, b < 32 → M.getLsbD b = true → s.mine b = false → s.bankReady s.here b = false →
      ∃ t, exec (.bacq g a p m) s = .next t ∧ t.ctx.phase = .blocked ∧ t.ctx.r = s.ctx.r ∧ SameBytes s t) ∧
    ((∀ b, b < 32 → M.getLsbD b = true → s.bankBusy s.here b (some s.ctx.r.tag) = false) →
      ∃ t, exec (.brel g a p m) s = .next t ∧
        (∀ b, b < 32 → t.bankHeld s.here b = (s.bankHeld s.here b && !(M.getLsbD b && s.bankTag s.here b == s.ctx.r.tag)) ∧
          t.bankTag s.here b = s.bankTag s.here b) ∧ t.ctx = s.ctx ∧ SameBytes s t)) ∧
  (∀ (s : State) (c : Ctx), s.ctxAt s.ev.x = some c → c.acq.getLsbD s.ev.y = true → c.r.tag = BitVec.ofNat 8 s.ev.z →
    s.bankReady (s.ev.x / 4) s.ev.y = true →
    ∃ t k, exec .bankAcquireEffect s = .next t ∧ t.bankHeld (s.ev.x / 4) s.ev.y = true ∧
      t.bankTag (s.ev.x / 4) s.ev.y = c.r.tag ∧ t.ctxAt s.ev.x = some k ∧ k.acq = c.acq &&& ~~~(1#32 <<< s.ev.y) ∧ k.r = c.r ∧
      (k.acq = 0#32 → c.st = .blocked → k.st = .ready) ∧ SameBytes s t) ∧
  (∀ s : State, (s.ev.x, s.ev.y, s.ev.z) ∈ s.brels →
    s.bankBusy s.ev.x s.ev.y (some (BitVec.ofNat 8 s.ev.z)) = false →
    ∃ t, exec .bankReleaseEffect s = .next t ∧ (s.ev.x, s.ev.y, s.ev.z) ∉ t.brels ∧ SameBytes s t ∧ t.ctx = s.ctx ∧
      (s.bankHeld s.ev.x s.ev.y = true → s.bankTag s.ev.x s.ev.y = BitVec.ofNat 8 s.ev.z → t.bankHeld s.ev.x s.ev.y = false ∧
        ∀ o, o ≠ oBHELD (twrOf s.ev.x) (tcoreOf s.ev.x) → t.reg o = s.reg o) ∧
      (s.bankHeld s.ev.x s.ev.y = true → s.bankTag s.ev.x s.ev.y ≠ BitVec.ofNat 8 s.ev.z → SameCsr s t)) ∧
  (∀ s : State, (s.ev.x, s.ev.y, s.ev.z) ∈ s.brels → s.bankBusy s.ev.x s.ev.y (some (BitVec.ofNat 8 s.ev.z)) = true →
    exec .bankReleaseEffect s = .next (s.queue s.ev)) ∧
  (∀ (s : State) (w : Word), s.spilled = [] → s.arrivalReady s.ev.z s.ev.w = true → w = s.reg s.ev.y → 0 < bits w 44 32 →
    ∃ t, exec .barrierArrival s = .next t ∧ bits (t.reg s.ev.y) 44 32 = bits w 44 32 ∧
      (bits w 12 0 + 1 < bits w 44 32 → bits (t.reg s.ev.y) 12 0 = bits w 12 0 + 1 ∧ bits (t.reg s.ev.y) 63 56 = bits w 63 56) ∧
      (bits w 12 0 + 1 = bits w 44 32 → bits (t.reg s.ev.y) 12 0 = 0 ∧ bits (t.reg s.ev.y) 63 56 = (bits w 63 56 + 1) % 256) ∧
      (s.ctx.r.barw.id = s.ev.z → t.ctx.r.barw = { s.ctx.r.barw with known := true, phase := BitVec.ofNat 8 (bits w 63 56) }) ∧
      (∀ o, o ≠ s.ev.y → t.reg o = s.reg o) ∧ SameBytes s t)

/-- R170, R171, R297 to R301: PLAUNCH asks its tower's dispatcher and blocks; with the answer it goes on, or traps with the cause
and address that the reading of the manifest met. A disabled dispatcher answers with STATUS 3 and WHY 1. One that is enabled
accepts a sound manifest: STATUS 1 with the pipeline's slot, whose descriptors it keeps, and PLCTL; where a check of Table 7-7
fails, or no slot is free, it answers with STATUS 3 and its WHY and accepts nothing. CHENQ claims the next entry of a channel
with room once the stores of the strand's earlier bundles have performed at the channel's scope (log 24, the model's choice of
the transfer's form), CHDEQ the oldest available one with an ALQ entry, and each queues its transfer; an empty closed channel
gives all ones. Entries become available in order. R123, R166, R185, R186: a finished pipeline with nothing left to perform
writes its final STATUS, once every copy has accepted its invalidations, and frees its slot; a killed one does so with STATUS
4, and its running task ends. Events, identities and their order are the model's own form (log 3). -/
def Obligations.PipelinesLaunchFeedAndEnd : Prop :=
  ((∀ (s : State) (g : BitVec 4) (a : BitVec 6), s.on g = true → s.ctx.r.sup = true →
      ((s.sr a).toNat % 64 ≠ 0 → exec (.plaunch g a) s = .next (s.trapAt .e 0x04#8 (s.sr a) 0#64)) ∧
      ((s.sr a).toNat % 64 = 0 → s.ctx.launched = none → s.ctx.seg = none → (s.launches.any fun q => q.2.1 == s.me) = false →
        exec (.plaunch g a) s = .next { s with
          launches := s.launches ++ [(s.here / 192, s.me, s.sr a)]
          agenda := s.agenda ++ [{ i := .manifestRead, x := s.here / 192, y := s.me }]
          ctx := { s.ctx with phase := .blocked } }) ∧
      (∀ va, (s.sr a).toNat % 64 = 0 → s.ctx.launched = some (0#8, va) →
        exec (.plaunch g a) s = .next { s with ctx := { s.ctx with launched := none } })) ∧
    (∀ (s u : State) (q : Nat × Nat × Word), (s.launches.find? fun q => q.1 == s.ev.x && q.2.1 == s.ev.y) = some q →
      (s.dsp.getD s.ev.x 0#64).getLsbD 0 = false → u.me = s.ev.y → u.ctx.st ≠ .stopped →
      s.dispWrite (s.ev.y / 4) (q.2.2 + 8#64) 0x0301000000000000#64 = .ok u →
      ∃ t, exec .manifestRead s = .next t ∧ t.ctx.launched = some (0#8, 0#64) ∧ t.ctx.r = u.ctx.r ∧ SameBytes u t ∧ SameCsr u t ∧
        ∀ k ∈ t.launches, ¬ (k.1 = s.ev.x ∧ k.2.1 = s.ev.y)) ∧
    (∀ (s v u : State) (q : Nat × Nat × Word) (gs : List Stage) (cs : List Chan), ManifestSound s v q gs cs → u.me = s.ev.y →
      u.ctx.st ≠ .stopped →
      (∀ pid, rejection gs cs = 0 → v.freeSlot s.ev.x = some pid →
        v.dispWrite (s.ev.y / 4) (q.2.2 + 8#64) (BitVec.ofNat 64 (2 ^ 56 + pid)) = .ok u →
        ∃ t, exec .manifestRead s = .next t ∧ Launched s t ∧ t.ctx.r = u.ctx.r ∧ SameBytes u t ∧
          t.pipes = u.pipes ++ [{ twr := s.ev.x, pid := pid, man := q.2.2, stages := gs.map (fun g => { g with clus := allowedSet cs g }),
                                  chans := cs.map (fun c => { c with closed := !(gs.any fun g => g.outm.getLsbD c.desc) }),
                                  held := (s.ctxAt s.ev.y).any fun c => c.r.ssm }] ∧
          t.reg (oPLCTL s.ev.x pid) = (q.2.2 &&& ~~~63#64) ||| 2#64 ∧
          ∀ o, o ≠ oPLCTL s.ev.x pid → o ≠ oDSPHOLD s.ev.x → t.reg o = u.reg o) ∧
      (∀ why, why = (if rejection gs cs = 0 then 8 else rejection gs cs) → rejection gs cs ≠ 0 ∨ v.freeSlot s.ev.x = none →
        v.dispWrite (s.ev.y / 4) (q.2.2 + 8#64) (BitVec.ofNat 64 (3 * 2 ^ 56 + why * 2 ^ 48)) = .ok u →
        ∃ t, exec .manifestRead s = .next t ∧ Launched s t ∧ t.ctx.r = u.ctx.r ∧ SameBytes u t ∧ SameCsr u t ∧ t.pipes = u.pipes)) ∧
    (∀ (s : State) (g : BitVec 4) (a : BitVec 6) (c : BitVec 5) (ch : Chan) (r : Rng), s.on g = true → s.ctx.seg = none →
      s.chanAt s.ctx.home s.myPid c.toNat = some ch →
      (s.channelCheck c.toNat true (s.sr a) = .ok (ch, r) →
        (ch.full = false → s.ctx.eq.length < 16 → s.sbRoom 1 = true →
          (s.drainedOf (fun f => s.ctx.earlier f.id) 1#3 (if ch.kind then 4 else 2) = true → ∀ v : State,
            v = entered ((drainedAt s (if ch.kind then 4 else 2)).onChan s.ctx.home s.myPid c.toNat fun x => { x with tail := x.tail + 1 }) [r] →
            CommandQueuedFrom (.chenq g a c) s v
              { id := s.uid + 1, i := .chenq g a c,
                w := [BitVec.ofNat 64 ch.entryBytes, s.sr a, ch.entryVa ch.tail, 0#64, 0#64, 0#64, 0#64, 0#64], x := s.me, core := s.here,
                sup := s.ctx.r.sup, bc := s.ctx.r.bc, sbs := [s.uid + 2], twr := s.ctx.home, pid := s.myPid, ch := c.toNat,
                entry := ch.tail } .copyCommandStart) ∧
          (s.drainedOf (fun f => s.ctx.earlier f.id) 1#3 (if ch.kind then 4 else 2) = false → exec (.chenq g a c) s = .next s.freeze)) ∧
        (ch.full = true → exec (.chenq g a c) s = .next s.block)) ∧
      (s.channelCheck c.toNat false (s.sr a) = .ok (ch, r) → s.ctx.r.alq.length < 16 →
        (ch.deq < ch.avail → s.ctx.eq.length < 16 → s.sbRoom 1 = true → ∀ v : State,
          v = { s.onChan s.ctx.home s.myPid c.toNat (fun x => { x with deq := x.deq + 1 }) with
            uid := s.uid + 3
            ctx := { s.ctx with r := { s.ctx.r with alq := s.ctx.r.alq ++ [{ id := s.uid + 2, pos := .e, i := .chdeq g a c, opa := s.sr a }] } }
            core := { s.core with sb := s.core.sb ++ entriesOf s (s.uid + 1) (s.uid + 3) [r],
                                  rng := s.core.rng ++ entriesOf s (s.uid + 1) (s.uid + 3) [r] } } →
          CommandQueuedFrom (.chdeq g a c) s v
            { id := s.uid + 1, i := .chdeq g a c,
              w := [BitVec.ofNat 64 ch.entryBytes, ch.entryVa ch.deq, s.sr a, 0#64, 0#64, 0#64, 0#64, 0#64], x := s.me, core := s.here,
              sup := s.ctx.r.sup, bc := s.ctx.r.bc, sbs := [s.uid + 3], twr := s.ctx.home, pid := s.myPid, ch := c.toNat, entry := ch.deq,
              slot := s.ctx.r.alqh + BitVec.ofNat 4 s.ctx.r.alq.length } .copyCommandStart) ∧
        (ch.avail ≤ ch.deq → ch.closed = true → ch.empty = true →
          ∃ t, Answers (.chdeq g a c) s t (s.sr a) 0#64 0xffffffffffffffff#64 ∧ SameCsr s t) ∧
        (ch.avail ≤ ch.deq → ch.closed = false → exec (.chdeq g a c) s = .next s.block))) ∧
    (∀ (s : State) (c : Chan), s.chanAt s.ev.x s.ev.y s.ev.z = some c →
      (c.fin = [c.avail] → ∃ t, exec .channelEntryAvailable s = .next t ∧
        t.chanAt s.ev.x s.ev.y s.ev.z = some { c with fin := [], avail := c.avail + 1 } ∧ SameBytes s t ∧ SameCsr s t) ∧
      (setHas c.fin c.avail = false → ∃ t, exec .channelEntryAvailable s = .next t ∧ t.chanAt s.ev.x s.ev.y s.ev.z = some c ∧
        SameBytes s t ∧ SameCsr s t))) ∧
  ((∀ (s u : State) (p : Pipe), s.pipeAt s.ev.x s.ev.y = some p → p.chans = [] → s.pipeBusy p.twr p.pid = false →
      (p.killed = false → s.pipeFinished p = true → (∃ v ∈ s.inval, v.acc = false) → exec .pipelineDone s = .next (s.queue s.ev)) ∧
      ((∀ v ∈ s.inval, v.acc = true) →
      (p.killed = false → s.pipeFinished p = true →
        ({ s with inval := [] } : State).dispWrite (192 * p.twr) (p.man + 8#64) (BitVec.ofNat 64 (2 * 2 ^ 56 + p.pid)) = .ok u →
        ∃ t, exec .pipelineDone s = .next t ∧ t.reg (oPLCTL p.twr p.pid) = 0#64 ∧ SameBytes u t ∧
          ∀ q ∈ t.pipes, ¬ (q.twr = p.twr ∧ q.pid = p.pid)) ∧
      (p.killed = true →
        ({ s with inval := [] } : State).dispWrite (192 * p.twr) (p.man + 8#64) (BitVec.ofNat 64 (4 * 2 ^ 56 + p.pid)) = .ok u →
        ∃ t, exec .pipelineKill s = .next t ∧ t.reg (oPLCTL p.twr p.pid) = 0#64 ∧ SameBytes u t ∧
          ∀ q ∈ t.pipes, ¬ (q.twr = p.twr ∧ q.pid = p.pid)))) ∧
    (∀ (s : State) (p : Pipe), s.pipeAt s.ev.x s.ev.y = some p → p.killed = false → s.ctxs = [] → s.ctx.st ≠ .stopped →
      s.ctx.ofPipe p.twr p.pid = true → ∃ t, exec .pipelineKill s = .next t ∧ (t.ctx.gone = true ∨ t.ctx.st = .stopped)))

/-- R52, R53, R302: CSRR lands at latency 2 what the register reads, once the strand's earlier register writes have taken effect,
and freezes until then; CSRW writes the register; the number's bit 14 chooses the module's registers, else those of the
strand's own tower. A plain write takes RW bits, clears W1C bits written 1, and leaves every other bit. R66, R81 to R83, R151,
R211, R295, R328, R415, R418: writes with effects of their own. A new barrier target clears the count; BHELD holds banks that
are free and have a tag, and frees the others; BHOLD gives tags; HCOMMIT begins a commit of a valid set, whose end makes the
set as GO found it active (log 53) and leaves no location of the tower's HBM4 defined; RTRCTL starts and ends the redirect, an
EN while ACT is still set being held until it is clear (log 53); quarantine bits clear; a plot's owner gives it up in plot
order; MSIGEN sends vectors 0 and 3 alone; a held pipeline goes on; a port is enabled, or disabled and brought down. Events,
identities and their order are the model's own form (log 3). -/
def Obligations.RegistersReadWriteAndAct : Prop :=
  (∀ (s : State) (g : BitVec 4) (d a : BitVec 6) (n : BitVec 15) (off : Nat),
      off = (if n.getLsbD 14 then 0x800000 else s.here / 192 * 0x100000) + 8 * (n.toNat % 16384) →
      (s.on g = true → s.ctx.r.sup = true → s.writesLeft = false → Returns (.csrr g d n) s 2 .e [.s d (s.readReg off)]) ∧
      (s.on g = true → s.ctx.r.sup = true → s.writesLeft = true → exec (.csrr g d n) s = .next s.freeze) ∧
      (s.on g = true → s.ctx.r.sup = true → s.ctx.seg = none →
        exec (.csrw g a n) s = .next (s.writeReg (s.me + 1) off (s.sr a))) ∧
      (∃ w, RegBecomes .registerWrite s s.ev.x w ∧ ∀ b, b < 64 → w.getLsbD b =
        if (csrAccess s.ev.x).w1c.getLsbD b = true ∧ s.ev.v.getLsbD b = true then false
        else if (csrAccess s.ev.x).rw.getLsbD b then s.ev.v.getLsbD b else (s.reg s.ev.x).getLsbD b)) ∧
  ((∀ (s : State) (old : Word), old = s.reg s.ev.x → ∃ w, RegBecomes .barrierTargetWrite s s.ev.x w ∧ bits w 44 32 = bits s.ev.v 44 32 ∧
      bits w 63 56 = bits old 63 56 ∧ (bits s.ev.v 44 32 ≠ bits old 44 32 → bits w 12 0 = 0) ∧
      (bits s.ev.v 44 32 = bits old 44 32 → bits w 12 0 = bits old 12 0)) ∧
    (∀ (s : State) (T c : Nat), T < 8 → c < 192 → s.ev.w = 0#64 → (∀ b, b < 32 → s.bankBusy (192 * T + c) b none = false) →
      (s.ev.x = oBHELD T c → ∃ t, exec .bheldWrite s = .next t ∧ (∀ b, b < 32 → t.bankHeld (192 * T + c) b =
          (s.ev.v.getLsbD b && (s.bankHeld (192 * T + c) b || s.bankTag (192 * T + c) b != 0#8)) ∧
          t.bankTag (192 * T + c) b = s.bankTag (192 * T + c) b) ∧ SameBytes s t ∧ t.ctx = s.ctx) ∧
      (∀ n, n < 4 → s.ev.x = oBHOLD T c n → ∃ t, exec .bholdWrite s = .next t ∧
        (∀ k, k < 8 → t.bankTag (192 * T + c) (8 * n + k) =
          if s.bankHeld (192 * T + c) (8 * n + k) = true ∧ s.ev.v.extractLsb' (8 * k) 8 = 0#8 then s.bankTag (192 * T + c) (8 * n + k)
          else s.ev.v.extractLsb' (8 * k) 8) ∧ SameBytes s t ∧ t.ctx = s.ctx)) ∧
    (∀ (s : State) (w : Word), w = s.reg (oHCOMMIT s.ev.x) →
      (w.getLsbD 8 = true → exec .hcommitGo s = .next s ∧
        (s.ev.x < 8 → ∃ t, exec .hashCommitComplete s = .next t ∧ t.reg (oHCOMMIT s.ev.x) = w &&& ~~~0x300#64 ∧
          t.hactive.getD s.ev.x powerOnMasks = s.hnext.getD s.ev.x powerOnMasks ∧
          (s.records = [] → ∀ l, isHbm l = true → hbmTower l = s.ev.x → t.undefinedAt l = true))) ∧
      (w.getLsbD 8 = false → exec .hashCommitComplete s = .next s ∧
        (validMasks (s.pendingMasks s.ev.x).toList = true → (s.reg (oRTRCTL s.ev.x)).getLsbD 8 = false →
          RegBecomes .hcommitGo s (oHCOMMIT s.ev.x) (w ||| 0x100#64) ∧
          (s.ev.x < 8 → ∃ t, exec .hcommitGo s = .next t ∧ t.hnext.getD s.ev.x powerOnMasks = s.pendingMasks s.ev.x)) ∧
        (validMasks (s.pendingMasks s.ev.x).toList = false → RegBecomes .hcommitGo s (oHCOMMIT s.ev.x) (w ||| 0x200#64)))) ∧
    (∀ (s : State) (w : Word), w = s.reg (oRTRCTL s.ev.x) →
      (w.getLsbD 8 = false → (s.reg (oHCOMMIT s.ev.x)).getLsbD 8 = false →
        (w.getLsbD 16 = false → RegBecomes .rtrctlEnable s (oRTRCTL s.ev.x) (setBits w 8 0 (256 + bits s.ev.v 7 0))) ∧
        (w.getLsbD 16 = true → exec .rtrctlEnable s =
          .next (s.queue { i := .rtrctlEnable, x := s.ev.x, v := s.ev.v, by' := s.ev.by' }))) ∧
      (w.getLsbD 8 = true → RegBecomes .rtrctlDisable s (oRTRCTL s.ev.x) (w &&& ~~~0x100#64) ∧
        RegBecomes .redirectActive s (oRTRCTL s.ev.x) (w ||| 0x10000#64)) ∧
      (w.getLsbD 8 = false → RegBecomes .redirectReleased s (oRTRCTL s.ev.x) (w &&& ~~~0x10000#64))) ∧
    (∀ s : State, RegBecomes .quarantineClear s s.ev.x (s.reg s.ev.x &&& ~~~s.ev.v) ∧
      RegBecomes .alctlEnable s (oALCTL s.ev.x) (s.reg (oALCTL s.ev.x) ||| 1#64) ∧
      RegBecomes .alctlDisable s (oALCTL s.ev.x) (s.reg (oALCTL s.ev.x) &&& ~~~1#64) ∧
      (∃ t, exec .dspholdRelease s = .next t ∧ t.reg (oDSPHOLD s.ev.x) = s.reg (oDSPHOLD s.ev.x) &&& ~~~s.ev.v ∧
        (∀ p ∈ t.pipes, p.twr = s.ev.x → s.ev.v.getLsbD p.pid = true → p.held = false) ∧ SameBytes s t ∧ t.ctx = s.ctx)) ∧
    (∀ (s : State) (n : Nat), n = 256 * s.ev.x + s.ev.y →
      ((s.plotWord n).getLsbD 53 = false → exec .plotOwnedRelease s = .next s) ∧
      ((s.plotWord n).getLsbD 53 = true → ∃ t op, exec .plotOwnedRelease s = .next t ∧ t.fops = s.fops ++ [op] ∧ op.plot = n ∧ op.kind = 1 ∧
        t.agenda = s.agenda ++ [{ i := .plotReleasePerform, y := op.id, by' := s.ev.by' }] ∧ SameBytes s t ∧ SameCsr s t ∧ t.ctx = s.ctx)) ∧
    (∀ (s : State) (p : Nat), p = b2n ((s.reg oHOSTCTL).getLsbD 0) →
      (bits s.ev.v 1 0 = 1 ∨ bits s.ev.v 1 0 = 2 → exec .msigenWrite s = .next s) ∧
      (∀ k, (k = 0 ∨ k = 3) → bits s.ev.v 1 0 = k →
        (s.msixMask.getLsbD (4 * p + k) = false → exec .msigenWrite s = .next { s with msix := s.msix ++ [(p, k)] }) ∧
        (s.msixMask.getLsbD (4 * p + k) = true → ∃ t, exec .msigenWrite s = .next t ∧ t.msix = s.msix ∧
          t.msixPend.getLsbD (4 * p + k) = true))))

/-- R95, R96, R303, R304: TLBI drops every cached translation of its address, the table pointers on the path to it, and position
translations of its page; TLBI.ALL drops all of them; an armed monitor translates again; TLBSYNC answers 0; DCFL and DCINV of
a paged line go in flight; L2FL empties a tower's L2, once the HBM4 of its modified lines takes requests, and MSCFL its
S-layer, and each answers the number that it wrote back. Clauses that rest on logs 10, 11 and 3 are the model's choice and no
rule of the spec. -/
def Obligations.MaintenanceActs : Prop :=
  ∀ (s : State) (g : BitVec 4) (a : BitVec 6), s.on g = true →
    (s.ctx.r.sup = true → s.ctx.seg = none →
      (∃ t, exec (.tlbi g a 0#1) s = .next t ∧
        (∀ e, e ∈ t.tlb ↔ e ∈ s.tlb ∧ meetsBlock (s.sr a).toNat 1 e.base e.lg = false) ∧
        (∀ e ∈ t.walkc, e.tag ≠ (s.sr a).toNat / 2 ^ stepLg (e.lvl + 1)) ∧
        (∀ e ∈ t.ptc, meetsBlock (s.sr a).toNat 1 e.va.toNat e.lg = false) ∧
        t.ctx = s.ctx.rewatch (s.cycOf (twrOf s.here)) ∧ SameBytes s t ∧ SameCsr s t) ∧
      exec (.tlbi g a 1#1) s = .next { s with
        tlb := [], walkc := [], ats := [], atsw := s.atsw.filter fun a => !a.come, ptc := []
        ctx := s.ctx.rewatch (s.cycOf (twrOf s.here)), ctxs := s.ctxs.map fun q => (q.1, q.2.rewatch (s.cycAt q.1)) }) ∧
    (s.ctx.r.sup = true → s.flushWaits (bits (s.sr a) 2 0) = true → exec (.l2fl g a) s = .next s.freeze) ∧
    (s.ctx.r.sup = true → s.ctx.r.alq.length < 16 →
      (∃ t, Answers (.tlbsync g) s t 0#64 0#64 0#64 ∧ SameCsr s t) ∧
      (s.flushWaits (bits (s.sr a) 2 0) = false →
        ∃ t, Answers (.l2fl g a) s t (s.sr a) 0#64 (BitVec.ofNat 64 (((s.l2.filter fun c => c.1 == bits (s.sr a) 2 0).filter fun c =>
          s.dirty.any fun k => k.1 == c.2).length)) ∧ ∀ c ∈ t.l2, c.1 ≠ bits (s.sr a) 2 0) ∧
      (∃ t, Answers (.mscfl g a) s t (s.sr a) 0#64 (BitVec.ofNat 64 ((s.sdirty.filter fun l =>
          hbmTower l == bits (s.sr a) 2 0).length)) ∧ ∀ l ∈ t.sdirty, hbmTower l ≠ bits (s.sr a) 2 0)) ∧
    ((s.sr a).toNat < 0xfffffff000000000 → s.ctx.st ≠ .stopped → s.flightFull = false →
      Flies (.dcfl g a) s .e [s.sr a] 0#1024 0#1024 0#32 ∧
      (s.ctx.r.sup = true → Flies (.dcinv g a) s .e [s.sr a] 0#1024 0#1024 0#32))

/-- R88, R100, R103, R305, R306: CTXSV, CTXLD, MIGR and PROMO reserve their ALQ entry and begin their move, MIGR and PROMO once
the walk of their page passes its checks, else they trap; CTXSV of a context without a strand, of itself or of an agent
answers −1; SSTEP sets a strand's step bits. A table walk translates its address; a move first sets BUSY in the page's entry
and drops its translations, then copies the page, turns its entry and answers. Clauses that rest on log 34 are the model's
choice and no rule of the spec. Events, identities and their order are the model's own form (log 3). -/
def Obligations.MovesBeginAndEnd : Prop :=
  (∀ (s : State) (g : BitVec 4) (a b : BitVec 6) (x : Nat), s.on g = true → s.ctx.r.sup = true → s.ctx.r.alq.length < 16 →
    x = bits (s.sr a) 12 0 →
    ((s.sr b).toNat % 0x4000 ≠ 0 → exec (.ctxsv g a b) s = .next (s.trapAt .e 0x04#8 (s.sr b) 0#64) ∧
      exec (.ctxld g a b) s = .next (s.trapAt .e 0x04#8 (s.sr b) 0#64)) ∧
    ((s.sr b).toNat % 0x4000 = 0 → x ≤ 6143 →
      (s.saveFails x = false →
        MoveBegins (.ctxsv g a b) s s (s.sr a) (s.sr b) x { i := .spillComplete, x := x / 4, z := s.uid + 1 }) ∧
      (s.saveFails x = true → ∃ t, Answers (.ctxsv g a b) s t (s.sr a) (s.sr b) 0xffffffffffffffff#64) ∧
      MoveBegins (.ctxld g a b) s s (s.sr a) (s.sr b) x { i := .reinstatementComplete, x := x / 4, z := s.uid + 1 }) ∧
    (∀ (m : BitVec 2) (c : Ctx), x ≤ 6143 → x ≠ s.me → s.ctxAt x = some c → ∃ t, Answers (.sstep g a m) s t (s.sr a) 0#64 0#64 ∧
      t.ctxAt x = some { c with r := { c.r with ssm := m.getLsbD 0, ssq := m.getLsbD 1 } }) ∧
    (∀ i promo, i = .migr g a b ∧ promo = false ∨ i = .promo g a b ∧ promo = true →
      (∀ p k, s.ctx.seg = none → s.moveCheck s.here promo (s.sr a) (s.sr b) = .ok (p, k) →
        k.ctx = s.ctx ∧ SameBytes s k ∧ MoveBegins i s k (s.sr a) (s.sr b) (s.sr a).toNat
          { i := .tableWalk, x := s.me, y := s.uid + 1, v := s.sr a }) ∧
      (∀ c va wr u, s.moveCheck s.here promo (s.sr a) (s.sr b) = .error (.fault c va wr u) →
        exec i s = .next ((s.kept u).trapAt .e c va 0#64)))) ∧
  (∀ (s : State) (n : Need), s.moveOf 0 = none → s.ev.y = 0 → s.ev.v.toNat < 0xfffffff000000000 →
    s.ev.z = 0 ∧ n = .read ∨ s.ev.z = 1 ∧ n = .write ∨ s.ev.z = 2 ∧ n = .fetch →
    exec .tableWalk s = .next
      (translate s (.core (s.ev.x / 4 % 1536)) s.ev.v.toNat ((s.ctxAt s.ev.x).any fun c => c.r.sup) n).1) ∧
  (∀ (s k : State) (m : Move) (g : BitVec 4) (a b : BitVec 6) (p lvl n : Nat) (e : Word), s.moveOf s.ev.y = some m → m.i = .migr g a b →
    m.phase = 0 → s.moveCheck (m.x / 4) false (BitVec.ofNat 64 m.target) m.va = .ok ((p, lvl, e), k) → pteBusy e = false →
    k.waitsAt p 8 = false → k.stalled (pteAddr e) = false → k.stalled m.va.toNat = false → pteCG e = false → Clean k → s.fenced = 0#8 →
    p % 8 = 0 → n = 2 ^ leafLg lvl false →
    ∃ t, exec .tableWalk s = .next t ∧ t.wordAt p = e ||| 1#64 <<< 62 ∧ SameBytesBut p 8 s t ∧
      { m with phase := 1, src := pteAddr e / n * n, n := n, ent := p, lvl := lvl, cg := false } ∈ t.moves ∧ s.ev ∈ t.agenda ∧
      ∀ e ∈ t.tlb, meetsBlock (m.target / n * n) n e.base e.lg = false) ∧
  (∀ (s : State) (m : Move) (w : Word), s.moveOf s.ev.y = some m → m.phase = 1 → m.cg = false → s.stalled m.src = false →
    s.stalled m.va.toNat = false → s.waitsAt m.ent 8 = false → Clean s → s.fenced = 0#8 → m.n % 64 = 0 → m.src % 64 = 0 →
    m.va.toNat % 64 = 0 → m.src + m.n ≤ m.va.toNat ∨ m.va.toNat + m.n ≤ m.src →
    m.ent + 8 ≤ m.va.toNat ∨ m.va.toNat + m.n ≤ m.ent → m.ent % 8 = 0 →
    w = setBits (s.wordAt m.ent &&& ~~~(1#64 <<< 62)) 51 12 (m.va.toNat / 4096) →
    ∃ t, ((∃ g a b, m.i = .migr g a b) ∨ (∃ g a b, m.i = .promo g a b) ∧
        s.promoLacks (twrOf (m.x / 4)) (m.src - locHost 0) (m.src - locHost 0 + m.n) (m.n / 4096) = none → exec .tableWalk s = .next t) ∧
      (∀ k, k < m.n → t.byteAt (m.va.toNat + k) = s.byteAt (m.src + k)) ∧
      ((∃ g a b, m.i = .migr g a b) → t.wordAt m.ent = w) ∧
      ((∃ g a b, m.i = .promo g a b) → t.wordAt m.ent = setBits (setBits w 11 9 (if s.moverGone m then 1 else 0)) 3 2 0) ∧
      (∀ k ∈ t.moves, k.id ≠ m.id) ∧
      ({ i := .alqValueArrival, x := m.x, y := m.slot.toNat, w := BitVec.ofNat 64 m.id } : Ev) ∈ t.agenda)

/-- R117: a remote scalar access that is naturally aligned performs whole; one that is not performs as independent bytes. R45 to
R48, R109, R114, R242: an access that has its turn performs by its event. An uncached load lands the doubleword that its page
holds; a store writes its bytes and nothing else; a store to the storage view of a half in compute mode is a completion trap
FIELD_BUSY, and to a half in storage mode it writes its bytes. R106, R110, R129: a core applies the invalidations that it has
accepted and no others; one on its way is accepted; an inbound store gives its line its bytes and queues an invalidation, with
the old bytes, where a copy is held; applying it drops the line's copies; a page's position translations go once no operation
uses it. Events, identities and their order are the model's own form (log 3). -/
def Obligations.AccessesPerform : Prop :=
  (∀ (f : Access) (v : Word) (n : Nat) (w : Win) (l : Nat) (g : BitVec 4) (d a : BitVec 6) (imm : BitVec 15), f.addrs = [v] →
      decodeByte f.core v.toNat = some (w, l) → w.isLocal = false →
      ((f.i = .ldh g d a imm ∨ f.i = .ldhu g d a imm ∨ f.i = .sth g d a imm) ∧ n = 2 ∨
        (f.i = .ldw g d a imm ∨ f.i = .ldwu g d a imm ∨ f.i = .stw g d a imm) ∧ n = 4 ∨
        (f.i = .ldd g d a imm ∨ f.i = .std g d a imm) ∧ n = 8 ∨ (f.i = .ldq g d a imm ∨ f.i = .stq g d a imm) ∧ n = 16) →
      (v.toNat % n = 0 → unitsOf f = [[(v, 0, n)]]) ∧
      (v.toNat % n ≠ 0 → (unitsOf f).length = n ∧ ∀ k, k < n → unitParts f k = [(v + BitVec.ofNat 64 k, k, 1)])) ∧
  (∀ (s u : State) (a : Access) (fl : List Access) (va : Word) (l src : Nat) (g : BitVec 4) (d b : BitVec 6) (imm : BitVec 15),
      AccessDue s a fl va → va.toNat % 8 = 0 → src = strandOn a.core s.ctx.r.tag →
      (va.toNat < 0xfffffff000000000 → isHbm l = true → u.isFenced l = false → Clean u →
        (a.i = .ldd g d b imm → translate s (.core a.core) va.toNat a.sup .read = (u, .ok l true) →
          u.piecesWait src a.core false [(l, 8, true)] = false → s.ctx.r.pend = [] →
          ∃ t, exec .remoteLoadLanding s = .next t ∧ t.ctx.r = s.ctx.r.puts [.s d (eight u l)] ∧
            t.ctx.flight = (a :: fl).filter (fun k => k.id != a.id) ∧ SameBytes u t) ∧
        (a.i = .std g d b imm → translate s (.core a.core) va.toNat a.sup .write = (u, .ok l true) →
          u.piecesWait src a.core true [(l, 8, true)] = false →
          ∃ t, exec .remoteAccessPerform s = .next t ∧ t.ctx.r = s.ctx.r ∧ t.ctx.flight = (a :: fl).filter (fun k => k.id != a.id) ∧
            eight t l = a.data.setWidth 64 ∧ SameBytesBut l 8 u t)) ∧
      (decodeByte a.core va.toNat = some (.fieldv, l) → s.fenced = 0#8 → Clean s → a.i = .std g d b imm →
        s.piecesWait src a.core true [(l, 8, true)] = false →
        (s.halfOpen l = true → ∃ t, exec .storageViewArrival s = .next t ∧ eight t l = a.data.setWidth 64 ∧ SameBytesBut l 8 s t ∧
          t.ctx.r = s.ctx.r) ∧
        (s.halfOpen l = false → ∃ t k, exec .storageViewArrival s = .next t ∧ t.ctx.due = s.ctx.due ++ [k] ∧ k.kind = .completion ∧
          k.cause = 0x07#8 ∧ k.faddr = va ∧ SameBytes s t ∧ t.ctx.r = s.ctx.r))) ∧
  (∀ s : State,
      (s.ev.z = 0 → exec .invalidationApply s = .next { s with inval := s.inval.filter fun v => !(v.core == s.ev.x && v.acc) }) ∧
      (s.ev.z ≠ 0 → (s.inval.any fun v => v.core == s.ev.x && v.line == s.ev.y && !v.acc) = true →
        ∃ t, exec .invalidationApply s = .next t ∧ (∀ v ∈ t.inval, v.core = s.ev.x → v.line = s.ev.y → v.acc = true) ∧
          ({ i := .invalidationApply, x := s.ev.x } : Ev) ∈ t.agenda ∧ SameBytes s t ∧ SameCsr s t ∧ t.ctx = s.ctx) ∧
      (8 ≤ regionOf s.ev.y → s.ev.bytes.length = 64 → ∃ t, exec .inboundInvalidationReceive s = .next t ∧
        (∀ k, k < 64 → t.byteAt (lineOf s.ev.y + k) = s.ev.bytes.getD k 0#8) ∧ SameBytesBut (lineOf s.ev.y) 64 s t ∧
        (s.cachedLine (lineOf s.ev.y) = true → (s.uid + 1, lineOf s.ev.y, s.bytesAt (lineOf s.ev.y) 64) ∈ t.inbound ∧
          ({ i := .inboundInvalidationApply, y := s.uid + 1 } : Ev) ∈ t.agenda) ∧ SameCsr s t ∧ t.ctx = s.ctx) ∧
      (∃ t, exec .inboundInvalidationApply s = .next t ∧
        (∀ q ∈ s.inbound, s.ev.y = 0 ∨ q.1 = s.ev.y → (∀ r ∈ t.inbound, r.2.1 ≠ q.2.1) ∧ (∀ c ∈ t.copies, c.2 ≠ q.2.1) ∧
          (∀ c ∈ t.icopies, c.2 ≠ q.2.1) ∧ ∀ c ∈ t.l2, c.2 ≠ q.2.1) ∧ SameBytes s t ∧ SameCsr s t ∧ t.ctx = s.ctx) ∧
      (((s.ptc.filter fun k => k.va.toNat == s.ev.v.toNat).any fun k => s.pageUsed k.core s.ev.v.toNat s.ev.z) = false →
        exec .ptcInvalidation s = .next { s with ptc := s.ptc.filter fun k => k.va.toNat != s.ev.v.toNat }))

/-- R120, R192, R199, R291: a value enters the entry reserved for it and wakes its strand; a fault enters it after its capture
record, and that of an SQPOS both of its entries; a monitor wakes its strand when its condition holds, and a timed read comes
again; a trap entry takes the asynchronous trap that is due into the handler. Events, identities and their order are the
model's own form (log 3). -/
def Obligations.ArrivalsWakeStrands : Prop :=
  (∀ (s : State) (k : Nat) (e : AlqEntry), s.spilled = [] → s.ctx.seg = none → s.ctx.r.alq.length ≤ 16 → s.ctx.r.alq[k]? = some e →
    e.id = s.ev.w.toNat → BitVec.ofNat 4 s.ev.y = s.ctx.r.alqh + BitVec.ofNat 4 k → s.ctx.gone = false →
    ((∀ g a c, e.i ≠ .chdeq g a c) → ∃ t, exec .alqValueArrival s = .next t ∧
      (∀ j, t.ctx.r.alq[j]? = if j = k then
          some { e with valid := true, value := s.ev.v, poisoned := s.ev.z != 0, crc := s.ev.z == 2 } else s.ctx.r.alq[j]?) ∧
      (s.ctx.st = .blocked → t.ctx.st = .ready) ∧ SameFile s.ctx.r t.ctx.r ∧ SameBytes s t ∧ SameCsr s t) ∧
    (∀ u, s.putWordsVA (.core s.here) s.here (captureAt s.ctx.r.tfb (BitVec.ofNat 4 s.ev.y))
        (captureWords e (BitVec.ofNat 8 s.ev.z) s.ev.v) = .ok u →
      ((∀ g d a b x w, e.i ≠ .sqpos g d a b x w) → ∃ t, exec .alqFaultCapture s = .next t ∧
        (∀ j, t.ctx.r.alq[j]? = if j = k then some { e with valid := true, faulted := true } else s.ctx.r.alq[j]?) ∧
        SameFile s.ctx.r t.ctx.r ∧ SameBytes u t ∧ SameCsr u t) ∧
      (∀ e2 u2, (∃ g d a b x w, e.i = .sqpos g d a b x w) → s.ctx.r.alq[k + 1]? = some e2 →
        u.putWordsVA (.core s.here) s.here (captureAt s.ctx.r.tfb (BitVec.ofNat 4 s.ev.y + 1#4))
          (captureWords e2 (BitVec.ofNat 8 s.ev.z) s.ev.v) = .ok u2 →
        ∃ t, exec .alqFaultCapture s = .next t ∧
          (∀ j, t.ctx.r.alq[j]? = if j = k then some { e with valid := true, faulted := true }
            else if j = k + 1 then some { e2 with valid := true, faulted := true } else s.ctx.r.alq[j]?) ∧
          SameFile s.ctx.r t.ctx.r ∧ SameBytes u2 t ∧ SameCsr u2 t))) ∧
  (∀ (s : State) (c : Ctx) (m : Monitor) (h : Bool), s.ctxAt s.ev.x = some c → c.mon = some m → s.poisonedAt m.loc m.n = false →
    s.badCrcAt m.loc m.n = false →
    h = waitHolds m.c (BitVec.ofNat 64 (s.natAt m.loc m.n)) (BitVec.ofNat 64 (m.x.toNat % 2 ^ (8 * m.n))) →
    (∃ t, exec .monitorReread s = .next t ∧ t.ctxAt s.ev.x = some (if h then c.wake (s.cycAt s.ev.x) else c) ∧ SameBytes s t ∧ SameCsr s t) ∧
    (∃ t, exec .monitorTimeoutRead s = .next t ∧ t.ctxAt s.ev.x = some (if h then c.wake (s.cycAt s.ev.x) else c) ∧
      t.agenda = s.agenda ++ [{ s.ev with w := s.cycAt s.ev.x + 4096#64 }] ∧ SameBytes s t ∧ SameCsr s t)) ∧
  (∀ (s u : State) (k : Trap), s.ev.x = s.me → s.ctx.st = .running → s.ctx.phase = .normal → s.ctx.yreq = none → s.ctx.gone = false →
    s.ctx.assays = [] → s.ctx.due = [k] →
    k.kind = .async → s.ctx.r.sup = false → s.ctx.r.deep = false → (s.ctx.flight.any fun a => a.flt) = false →
    s.reg (oTVEC (twrOf s.here)) ≠ 0#64 →
    ((s.withCtx fun c => { c with due := [], sspend := false }).withRegs Regs.settle).putFrame k = .ok u →
    ∃ t, exec .trapEntry s = .next t ∧ InHandler s t ∧ SameBytes u t ∧ SameCsr u t ∧ SameFile u.ctx.r t.ctx.r)

/-- R160, R162, R168, R172, R173, R190: a strand whose run is out yields at its next boundary, declaring more than any budget, so
that its run is its budget; a ready strand of 2^20 cycles gains a rank below 7; a tick takes DSPCTL into force and shows the
busy contexts; a task whose image has arrived starts at its stage's entry with its instance and manifest in s1 and s2. R181,
R182, R202 to R206: a staged strand enters a context that is free; at the end of a swap the incoming strand takes issue and
the outgoing image spills; a spill writes the image and frees the shadow bank; CTXSV writes the image of its strand as a swap
would and frees its context; a spilled strand comes back with the registers of its image, in which what was due has landed.
Events, identities and their order are the model's own form (log 3). -/
def Obligations.DispatcherAndSwaps : Prop :=
  ((∀ s : State, s.ev.x = s.me → s.ctx.st = .running → s.ctx.r.run = 0#32 → s.ctx.yreq = none →
      exec .forcedYield s = .next { s with ctx := { s.ctx with yreq := some 65537 } } ∧
        (s.yieldBudget s.ctx ≤ 65536 → min 65537 (s.yieldBudget s.ctx) = s.yieldBudget s.ctx)) ∧
    (∀ (s : State) (c : Ctx), s.ctxAt s.ev.x = some c → c.st = .ready → c.agent = false → c.age < 7 → 0x100000 ≤ (s.cycAt s.ev.x - c.since).toNat →
      ∃ t, exec .strandRankAging s = .next t ∧ t.ctxAt s.ev.x = some { c with age := c.age + 1, since := c.since + 0x100000#64 } ∧
        SameBytes s t ∧ SameCsr s t) ∧
    (∀ s : State, s.ev.x < 8 → s.pipes = [] → s.spilled = [] → (∀ q ∈ s.allCores, q.2.shadow = none) →
      ∃ t, exec .dispatcherTick s = .next t ∧ t.dsp.getD s.ev.x 0#64 = s.reg (oDSPCTL s.ev.x) ∧
        t.reg (oDSPBUSY s.ev.x) = s.busyWord s.ev.x ∧ (∀ o, o ≠ oDSPBUSY s.ev.x → t.reg o = s.reg o) ∧ SameBytes s t) ∧
    (∀ (s : State) (q : Placing) (p : Pipe) (k : Stage) (tag : BitVec 8), (s.placing.find? fun r => r.id == s.ev.y) = some q →
      s.pipeAt q.twr q.pid = some p → p.stages[q.stage]? = some k → k.image = 0#64 → s.freeTag q.core = some tag → q.shadow = false →
      q.core ≠ 1536 → s.ctxAt (4 * q.core + q.x) = none →
      ∃ t c, exec .taskImageArrival s = .next t ∧ t.ctxAt (4 * q.core + q.x) = some c ∧ c.st = .ready ∧ c.task = true ∧ c.home = q.twr ∧
        c.r.pc = k.entry ∧ c.r.sup = false ∧ c.r.deep = false ∧ c.r.tag = tag ∧ c.r.sreg 1#6 = BitVec.ofNat 64 q.inst ∧ c.r.sreg 2#6 = p.man ∧
        c.r.tfb = k.tfbb + BitVec.ofNat 64 (q.inst * 0x8000) ∧ c.r.spl = k.splb + BitVec.ofNat 64 (q.inst * 0x4000) ∧
        (∀ r ∈ t.placing, r.id ≠ q.id) ∧ SameBytes s t ∧ SameCsr s t)) ∧
  (∀ (s : State) (G : Nat), G = s.ev.x →
      (∀ h, s.staged G = some h → s.ctxAt (4 * G + h.x) = none →
        ∃ t c, exec .shadowBankSwap s = .next t ∧ t.ctxAt (4 * G + h.x) = some c ∧ c.r = h.c.r ∧ c.st = .ready ∧ (t.coreAt G).shadow = none ∧
          SameBytes s t ∧ SameCsr s t) ∧
      (∀ h c, (s.coreAt G).shadow = some h → h.swapping = true → h.next = some c → G ≠ s.here → h.x < 4 →
        ∃ t k, exec .swapEnd s = .next t ∧ t.ctxAt (4 * G + h.x) = some k ∧ k.r = c.r ∧ k.st = .running ∧
          (t.coreAt G).cur = BitVec.ofNat 2 h.x ∧ ({ i := .spillComplete, x := G } : Ev) ∈ t.agenda ∧ SameBytes s t ∧ SameCsr s t) ∧
      (∀ h u, s.ev.z = 0 → (s.coreAt G).shadow = some h → h.out = true → h.swapping = false → h.c.gone = false → h.c.task = false →
        s.writeImage (.core G) G h.c.r.spl h.c.r = .ok u →
        ∃ t, exec .spillComplete s = .next t ∧ (t.coreAt G).shadow = none ∧
          t.spilled = u.spilled ++ [{ core := G, c := h.c, image := h.c.r.spl, written := true }] ∧ SameBytes u t ∧ SameCsr u t) ∧
      (∀ m c u, s.ev.z ≠ 0 → s.moveOf s.ev.z = some m → s.ctxAt m.target = some c → c.r.deep = false → c.gone = false → c.settled = true →
        c.seg = none → m.target ≠ s.me → s.writeImage (.core (m.target / 4)) (m.target / 4) m.va (s.leaving c).r = .ok u →
        ∃ t, exec .spillComplete s = .next t ∧ t.ctxAt m.target = none ∧
          ({ i := .alqValueArrival, x := m.x, y := m.slot.toNat, w := BitVec.ofNat 64 m.id } : Ev) ∈ t.agenda ∧ SameBytes u t ∧ SameCsr u t) ∧
      (∀ q b r v, s.ev.z = 0 → (s.spilled.find? fun p => p.core == G && p.back == some s.ev.y) = some q → b = s.ev.y → b < 4 →
        s.restorable G q.c = true → q.written = true → s.ctxAt (4 * G + b) = none → s.readImage (.core G) G q.image = .ok (r, v) →
        q.c.late = [] →
        ∃ t c, exec .reinstatementComplete s = .next t ∧ t.ctxAt (4 * G + b) = some c ∧ c.st = .ready ∧ c.r.pc = r.pc ∧ SameFile (r.landNow fun _ => false) c.r ∧
          c.r.bc = r.bc ∧ c.r.sup = r.sup ∧ SameBytes v t ∧ SameCsr v t))

/-! ## The module -/

/-- R422: a certificate request writes the first 4 KiB of the chain at the buffer; a report echoes the nonce and gives the digests
of the firmware image, the agent image and the registers; each ends with BUSY clear, once no core has an invalidation of those
bytes still to accept. R413: a host write of a whole register has the register's write effects and one through BAR4 reaches
HBM4, and waits at the head of its port while its lines do; a host read answers the register or the bytes; an access outside a
BAR's used range is answered by Unsupported Request and a misaligned one through BAR0 or BAR2 by Completer Abort, and changes
nothing. R414: unmasking a vector sends its pending message; the same event, with z not 0, masks it (log 20, the model's
choice). R97, R98: an ATS completion that was asked for is held with its grants, and who waits for it is told; an ATS
invalidation drops every cached translation of its range and is completed; a page request that ends leaves its tower's list,
and what slept on it tries again; an access that needs a page which the host has not granted sleeps, and one to which the host
has refused it is a completion trap PAGE. Clauses that rest on logs 43, 10 and 19 are the model's choice and no rule of the
spec. Events, identities and their order are the model's own form (log 3). -/
def Obligations.HostAndAttestation : Prop :=
  ((∀ s : State, s.ev.y % 64 = 0 → isHbm (s.ev.y + 4095) = true → s.fenced = 0#8 → Clean s →
      (s.bufWaits s.ev.y 4096 = false → ∃ t, exec .attestCert s = .next t ∧
        (∀ k, k < min Config.certLength 4096 → t.byteAt (s.ev.y + k) = Config.certByte k) ∧
        SameBytesBut s.ev.y (min Config.certLength 4096) s t ∧
        ({ i := .attestComplete, y := s.ev.y, z := min Config.certLength 4096 } : Ev) ∈ t.agenda ∧ t.ctx = s.ctx) ∧
      (s.bufWaits s.ev.y 304 = false → ∃ t, exec .attestReport s = .next t ∧
        (∀ k, k < 48 → t.byteAt (s.ev.y + k) = s.byteAt (s.ev.y + k) ∧
          t.byteAt (s.ev.y + 48 + k) = Config.sha384 Config.firmwareImage k ∧
          t.byteAt (s.ev.y + 96 + k) = Config.sha384 (Config.agentImage s.agentNo) k ∧
          t.byteAt (s.ev.y + 144 + k) = Config.sha384 s.ev.bytes k) ∧
        SameBytesBut s.ev.y 304 s t ∧ ({ i := .attestComplete, y := s.ev.y, z := 304 } : Ev) ∈ t.agenda ∧ t.ctx = s.ctx)) ∧
    (∀ s : State,
      (s.unaccepted s.ev.y s.ev.z = true → exec .attestComplete s = .next (s.queue s.ev)) ∧
      (s.unaccepted s.ev.y s.ev.z = false → RegBecomes .attestComplete s oATTCTL (s.reg oATTCTL &&& ~~~2#64))) ∧
    (∀ s : State, s.ev.y = 0 → s.ev.z < 0xc00000 → s.ev.z % 8 = 0 →
      (s.ev.bytes.length = 8 → exec .hostPostedWrite s = .next (s.writeReg 0 s.ev.z (BitVec.ofNat 64 (bytesToNat s.ev.bytes)))) ∧
      (s.ev.v = 8#64 → exec .hostRead s = .next { s with
        hostOut := s.hostOut ++ [(natToBytes 8 (s.readReg s.ev.z).toNat, false)] })) ∧
    (∀ s : State, s.ev.y = 4 → s.isFenced s.ev.z = false → Clean s →
      (s.ev.z + s.ev.bytes.length ≤ 0x20000000000 → s.waitsAt s.ev.z s.ev.bytes.length = false → ∃ t, exec .hostPostedWrite s = .next t ∧
        (∀ k, k < s.ev.bytes.length → t.byteAt (s.ev.z + k) = s.ev.bytes.getD k 0#8) ∧
        SameBytesBut s.ev.z s.ev.bytes.length s t ∧ t.ctx = s.ctx) ∧
      (s.ev.z + s.ev.bytes.length ≤ 0x20000000000 → s.waitsAt s.ev.z s.ev.bytes.length = true →
        exec .hostPostedWrite s = .next { s with agenda := s.ev :: s.agenda }) ∧
      (s.ev.z + s.ev.v.toNat ≤ 0x20000000000 → s.waitsAt s.ev.z s.ev.v.toNat = false → ∃ t, exec .hostRead s = .next t ∧
        t.hostOut = s.hostOut ++ [(s.bytesAt s.ev.z s.ev.v.toNat, false)] ∧ SameBytes s t ∧ t.ctx = s.ctx)) ∧
    (∀ s : State, (s.ev.y = 0 ∧ 0xc00000 ≤ s.ev.z) ∨ (s.ev.y = 2 ∧ 0x8000 ≤ s.ev.z) →
      exec .hostRead s = .next { s with hostOut := s.hostOut ++ [([], false)] } ∧
      exec .hostPostedWrite s = .next { s with hostOut := s.hostOut ++ [([], false)] }) ∧
    (∀ s : State, (s.ev.y = 0 ∧ s.ev.z < 0xc00000) ∨ (s.ev.y = 2 ∧ s.ev.z < 0x8000) → s.ev.z % 8 ≠ 0 →
      exec .hostRead s = .next { s with hostOut := s.hostOut ++ [([], true)] } ∧
      exec .hostPostedWrite s = .next { s with hostOut := s.hostOut ++ [([], true)] }) ∧
    (∀ s : State, s.ev.x < 2 → s.ev.y < 4 → s.ev.z = 0 → ∃ t, exec .msixUnmask s = .next t ∧
      t.msixMask.getLsbD (4 * s.ev.x + s.ev.y) = false ∧
      t.msixPend.getLsbD (4 * s.ev.x + s.ev.y) = false ∧
      t.msix = (if s.msixPend.getLsbD (4 * s.ev.x + s.ev.y) then s.msix ++ [(s.ev.x, s.ev.y)] else s.msix) ∧
      t = { s with msixMask := t.msixMask, msixPend := t.msixPend, msix := t.msix }) ∧
    (∀ s : State, s.ev.z ≠ 0 →
      exec .msixUnmask s = .next { s with msixMask := s.msixMask ||| (1#8 <<< (4 * s.ev.x + s.ev.y)) })) ∧
  ((∀ (s : State) (a : Nat), s.ev.v.toNat % 4096 = 0 → s.ev.y = 4096 → s.ev.v.toNat ≤ a → a < s.ev.v.toNat + 4096 →
      (s.ev.x, s.ev.v) ∈ s.atsq →
      ∃ t e, exec .atsTranslationCompletion s = .next t ∧ t.atsFor s.ev.x a = some e ∧ e.grants = s.ev.z ∧ (s.ev.x, s.ev.v) ∉ t.atsq ∧
        (∀ w ∈ s.atsw, w.twr = s.ev.x → w.page = s.ev.v → ({ w with come := true } : AtsWait) ∈ t.atsw) ∧
        t = { s with atsq := t.atsq, ats := t.ats, atsw := t.atsw }) ∧
    (∀ s : State, s.atsq = [] → exec .atsTranslationCompletion s = .next s) ∧
    (∀ s : State, ∃ t, exec .atsInvalidationRequest s = .next t ∧
      (∀ e : TlbEntry, e ∈ t.tlb ↔ e ∈ s.tlb ∧ meetsBlock s.ev.v.toNat (max s.ev.y 1) e.base e.lg = false) ∧
      (∀ e : AtsEntry, e ∈ t.ats ↔ e ∈ s.ats ∧ meetsBlock s.ev.v.toNat (max s.ev.y 1) e.base e.lg = false) ∧
      t.toHost = s.toHost ++ [⟨.invalidationCompletion, 0, s.ev.v, s.pasid, s.atsPort⟩] ∧ t.ctx.r = s.ctx.r ∧ SameBytes s t ∧ SameCsr s t) ∧
    (∀ s : State, s.asked s.ev.x s.ev.v = false → exec .pageRequestReply s = .next s ∧ exec .pageRequestTimeout s = .next s) ∧
    (∀ s : State, bits (s.reg oTRCFG) 31 24 = 0 → exec .pageRequestTimeout s = .next s) ∧
    (∀ (s : State) (i : Instr) (no : Bool), s.asked s.ev.x s.ev.v = true →
      i = .pageRequestReply ∧ no = (s.ev.y == 0) ∨ i = .pageRequestTimeout ∧ no = true ∧ bits (s.reg oTRCFG) 31 24 ≠ 0 →
      ∃ t, exec i s = .next t ∧ (∀ r ∈ t.pri, r.twr = s.ev.x → r.page ≠ s.ev.v) ∧
        (∀ e ∈ s.agenda, e.asks = pageMark s.ev.x s.ev.v 1 → ({ e with asks := if no then pageMark s.ev.x s.ev.v 2 else 0#64 } : Ev) ∈ t.agenda) ∧
        t.ctx.due = s.ctx.due ∧ SameFile s.ctx.r t.ctx.r ∧ SameBytes s t ∧ SameCsr s t) ∧
    (∀ (s u : State) (a : Access) (fl : List Access) (va : Word) (g : BitVec 4) (d b : BitVec 6) (imm : BitVec 15),
      AccessDue s a fl va → va.toNat % 8 = 0 → va.toNat < 0xfffffff000000000 → a.i = .ldd g d b imm →
      translate s (.core a.core) va.toNat a.sup .read = (u, .ask) →
      (s.ev.asks ≠ pageMark (twrOf a.core) va 2 → ∃ t, exec .remoteLoadLanding s = .next t ∧
        (∀ b ∈ t.ctx.flight, b.id = a.id → b.sleep = true) ∧ ({ s.ev with asks := pageMark (twrOf a.core) va 1 } : Ev) ∈ t.agenda ∧
        (t.pri.any fun r => r.twr == twrOf a.core && r.page == pageOf va) = true ∧ t.ctx.r = s.ctx.r ∧ SameBytes u t) ∧
      (s.ev.asks = pageMark (twrOf a.core) va 2 → ∃ t k, exec .remoteLoadLanding s = .next t ∧ t.ctx.due = s.ctx.due ++ [k] ∧
        k.kind = .completion ∧ k.cause = 0x05#8 ∧ k.acc = a.id ∧ k.faddr = va ∧ t.ctx.r = s.ctx.r ∧ SameBytes u t)))

/-- R142, R152, R153, R424 to R428: a scrub visit counts and remembers a correction, and poisons what a memory's code cannot
correct; a droop stretches the clock, counts, and after 64 cycles lowers the target; a new target stays between 800 and 2,000
MHz; a forecast writes its eleven registers with the next EPOCH, closes clusters above 95 °C and opens them at 90 °C and
below, and above 105 °C declares an emergency with the one deadline of its tower (log 77, the model's choice); a flushed
S-layer is off or normal, one still flushing at its deadline goes to retention where VSL and heat allow it, and one below
retention is lost. Clauses that rest on logs 20 and 17 are the model's choice and no rule of the spec. Events, identities and
their order are the model's own form (log 3). -/
def Obligations.PowerAndHeat : Prop :=
  (∀ s : State, s.ev.w.toNat < 16 → (s.reg (oERRCTL s.ev.x)).getLsbD 6 = false → s.reg (oERRBASE s.ev.x) = 0#64 →
    (s.ev.z = 0 → ∃ t, exec .scrubVisit s = .next t ∧ (∀ h ∈ t.hist, h.1 = s.ev.x → h.2.2 < 256) ∧ SameBytes s t ∧ t.poison = s.poison) ∧
    (s.ev.z = 1 → s.ev.w.toNat ≠ 10 → s.ev.w.toNat ≠ 11 → ∃ t, exec .scrubVisit s = .next t ∧ (s.ev.x, scrubRow s.ev.w.toNat s.ev.y (if s.ev.w.toNat = 6 then s.ev.v.toNat else 0), 0) ∈ t.hist ∧
      t.reg (oCECNT s.ev.x s.ev.w.toNat) = s.reg (oCECNT s.ev.x s.ev.w.toNat) + 1#64 ∧ SameStore s { t with csr := s.csr }) ∧
    (s.ev.z = 2 → s.ev.w.toNat ∈ [2, 3, 4, 5, 8, 9] → ∃ t, exec .scrubVisit s = .next t ∧ setHas t.poison (s.ev.y / granule s.ev.y * granule s.ev.y) = true ∧
      (t.reg (oERRSTAT s.ev.x)).getLsbD 2 = true ∧ SameBytes s t)) ∧
  (∀ (s : State) (w : Word), s.ev.x < 8 → w = s.reg (oCLKST s.ev.x) →
    (∃ t, exec .droopStretch s = .next t ∧ t.stretch.getLsbD s.ev.x = true ∧
      bits (t.reg (oCLKST s.ev.x)) 63 32 = (bits w 63 32 + 1) % 2 ^ 32 ∧
      bits (t.reg (oCLKST s.ev.x)) 15 0 = (if 64 < s.ev.y then min 2000 (max 800 (bits w 15 0 - 100)) else bits w 15 0) ∧
      (∀ o, o ≠ oCLKST s.ev.x → t.reg o = s.reg o) ∧ SameBytes s t ∧ t.ctx = s.ctx) ∧
    exec .currentPeakStretch s = .next { s with stretch := s.stretch ||| (1#8 <<< s.ev.x) } ∧
    exec .railDroopEnd s = .next { s with stretch := s.stretch &&& ~~~(1#8 <<< s.ev.x) } ∧
    (s.heating = true → exec .powerControlUpdate s = .next s) ∧
    (s.heating = false → RegBecomes .powerControlUpdate s (oCLKST s.ev.x) (setBits w 15 0 (min 2000 (max 800 s.ev.y))))) ∧
  (∀ (s : State) (peak : Int) (mhz : Nat), peak = celsius128 (reading s.ev.bytes 2).1 → s.layer s.ev.x = 0 → s.ev.x < 8 →
    mhz = bits (s.reg (oCLKST s.ev.x)) 15 0 →
    ∃ t, exec .thermalForecastUpdate s = .next t ∧
      (∀ i, i < 11 → t.reg (oTHFC s.ev.x i) = BitVec.ofNat 64 ((bits (s.reg (oTHFC s.ev.x 0)) 63 48 + 1) % 65536 * 2 ^ 48 + (reading s.ev.bytes i).1 * 2 ^ 32 +
        (reading s.ev.bytes i).2 * 2 ^ 16)) ∧
      t.reg (oSLEMST s.ev.x) = (if 105 * 128 < peak then 1#64 else s.reg (oSLEMST s.ev.x)) ∧
      (105 * 128 < peak → ({ i := .slayerFlushComplete, x := s.ev.x } : Ev) ∈ t.agenda ∧
        ({ i := .slayerCutoff, x := s.ev.x, w := s.cycOf s.ev.x + BitVec.ofNat 64 (max 50 (s.ev.z / mhz) * mhz) } : Ev) ∈ t.agenda ∧
        (t.agenda.filter fun e => e.i == Instr.slayerCutoff && e.x == s.ev.x).length = 1) ∧
      ((∃ i ∈ [0, 3, 4, 5, 6], 95 * 128 < celsius128 (reading s.ev.bytes i).1) → t.reg (oTHCLOSE s.ev.x) = 0xff#64) ∧
      ((∀ i ∈ [0, 3, 4, 5, 6], celsius128 (reading s.ev.bytes i).1 ≤ 90 * 128) → t.reg (oTHCLOSE s.ev.x) = 0#64) ∧
      SameBytes s t ∧ t.ctx = s.ctx) ∧
  (∀ s : State,
    (s.layer s.ev.x ≠ 1 → s.layer s.ev.x ≠ 4 → exec .slayerFlushComplete s = .next s) ∧
    (s.layer s.ev.x = 1 → ∃ t, exec .slayerFlushComplete s = .next t ∧ (∀ a ∈ t.sdirty, hbmTower a ≠ s.ev.x) ∧
      t.reg (oSLEMST s.ev.x) = (if 8 ≤ s.cool.getD s.ev.x 0 then 0#64 else 2#64) ∧
      t.reg (oSLFLUSH s.ev.x) = s.reg (oSLFLUSH s.ev.x) + BitVec.ofNat 64 (s.sdirty.filter fun a => hbmTower a == s.ev.x).length ∧
      SameBytes s t ∧ t.ctx = s.ctx) ∧
    ((s.cycOf s.ev.x).toNat < s.ev.w.toNat → exec .slayerCutoff s = .next (s.queue s.ev)) ∧
    (s.ev.w.toNat ≤ (s.cycOf s.ev.x).toNat →
      (s.layer s.ev.x ≠ 1 → exec .slayerCutoff s = .next s) ∧
      (s.layer s.ev.x = 1 → s.tooHot s.ev.x = false → s.vslow.getLsbD s.ev.x = false → RegBecomes .slayerCutoff s (oSLEMST s.ev.x) 3#64)) ∧
    (s.layer s.ev.x = 1 → exec .vslBelowRetention s = .next { s with vslow := s.vslow ||| (1#8 <<< s.ev.x) }) ∧
    (s.layer s.ev.x ≠ 1 → s.layer s.ev.x ≠ 3 → exec .vslBelowRetention s = .next s) ∧
    (s.layer s.ev.x = 3 → s.records = [] → (s.sdirty.any fun a => hbmTower a == s.ev.x) = false →
      RegBecomes .vslBelowRetention s (oSLEMST s.ev.x) 4#64))

/-- R155, R418 to R420, R429, R430: a failed tower leaves no strand and no copy behind; a port comes up and goes down, a disabled
one once its requests have completed; a received flit's bytes reach HBM4, and one whose CRC fails changes no byte and takes
the port down after 16 retries (log 75, the model's choice); a module reset leaves every register at its reset value, no
strand and memory zero, but for what other parties hold; self-heating ends well or stops bring-up. Clauses that rest on logs
5, 6, 7 and 20 are the model's choice and no rule of the spec. Events, identities and their order are the model's own form
(log 3). -/
def Obligations.TowersLinksAndResets : Prop :=
  (∀ s : State, s.ev.x < 8 →
    (s.fenced.getLsbD s.ev.x = true → exec .towerFence s = .next s) ∧
    (s.fenced.getLsbD s.ev.x = false → ∃ t, exec .towerFence s = .next t ∧ t.fenced = s.fenced ||| (1#8 <<< s.ev.x) ∧
      (∀ c ∈ t.ctxs, c.1 / 768 ≠ s.ev.x) ∧ (t.here / 192 ≠ s.ev.x ∨ t.ctx.st = .stopped) ∧
      ∀ c ∈ t.copies, c.1 / 192 ≠ s.ev.x ∧ ¬ (isHbm c.2 = true ∧ hbmTower c.2 = s.ev.x))) ∧
  (∀ (s : State) (w : Word), w = s.reg (oALCTL s.ev.x) →
    (w.getLsbD 0 = true → RegBecomes .linkUp s (oALCTL s.ev.x) (setBits (w ||| 2#64) 23 16 s.ev.y)) ∧
    (w.getLsbD 0 = false → exec .linkUp s = .next s) ∧
    (s.ev.y ≠ 0 → s.portInUse s.ev.x = true → exec .linkDown s = .next (s.queue s.ev)) ∧
    (s.ev.y = 0 ∨ s.portInUse s.ev.x = false → ∃ t, exec .linkDown s = .next t ∧ t.reg (oALCTL s.ev.x) = w &&& ~~~2#64 ∧ (∀ o, o ≠ oALCTL s.ev.x → t.reg o = s.reg o) ∧
      (t.linkTo (bits w 23 16) = false → ∀ c ∈ t.copies, regionOf c.2 ≠ 8 + bits w 23 16) ∧ SameBytes s t ∧ t.ctx = s.ctx) ∧
    (s.ev.z ≠ 0 → w.getLsbD 1 = false → exec .linkFlitReceive s = .next s) ∧
    (∀ n, s.ev.z ≠ 0 → w.getLsbD 1 = true → n = s.retries.getD s.ev.x 0 + 1 →
      (n ≤ 16 → exec .linkFlitReceive s = .next { s with retries := s.retries.setIfInBounds s.ev.x n }) ∧
      (16 < n → exec .linkFlitReceive s = .next
        (({ s with retries := s.retries.setIfInBounds s.ev.x 0 } : State).queue { i := .linkDown, x := s.ev.x }))) ∧
    (s.ev.z = 0 → s.ev.w = 0#64 → w.getLsbD 1 = true → isHbm s.ev.y = true → isHbm (s.ev.y + (s.ev.bytes.length - 1)) = true →
      s.isFenced s.ev.y = false → s.waitsAt s.ev.y s.ev.bytes.length = false → Clean s →
      ∃ t, exec .linkFlitReceive s = .next t ∧ (∀ k, k < s.ev.bytes.length → t.byteAt (s.ev.y + k) = s.ev.bytes.getD k 0#8) ∧
        SameBytesBut s.ev.y s.ev.bytes.length s t ∧ t.ctx = s.ctx)) ∧
  (∀ s : State, ∃ t, exec .moduleReset s = .next t ∧ (∀ o : Nat, t.reg o = csrReset o) ∧ t.ctx = Ctx.reset ∧ t.ctxs = [] ∧ t.agenda = [] ∧
    (∀ l, regionOf l < 7 → t.byteAt l = 0#8) ∧ (∀ l, 7 ≤ regionOf l → t.byteAt l = s.byteAt l) ∧ t.resets = s.resets + 1#32) ∧
  (∀ s : State, exec .portReset s = .next { s with msixMask := s.msixMask &&& 0x0f#8, msixPend := s.msixPend &&& 0x0f#8 }) ∧
  (∀ s : State, (s.stage = 3 → exec .selfHeatingComplete s = .next { s with cold := false }) ∧
    (s.stage ≠ 3 → exec .selfHeatingComplete s = .next s) ∧
    (s.stage = 3 → s.cold = true → RegBecomes .selfHeatingTimeout s oBOOTST (setBits (s.reg oBOOTST) 15 8 6)) ∧
    (s.stage ≠ 3 ∨ s.cold = false → exec .selfHeatingTimeout s = .next s))
end

