-- ==== Sys2Proof/Laws/Sparse.lean ====
section
/-! SUPPORT. Laws of the sparse tables, numbered lists and sets: read after write, and that a write keeps the canonical form. -/

namespace Sys2Proof.Machine

/-! ## Canonical form -/

theorem sparseWfFrom_weaken {α : Type} [DecidableEq α] {d : Nat → α} {lo hi : Nat} {l : List (Nat × α)}
    (h : sparseWfFrom d hi l = true) (le : lo ≤ hi) : sparseWfFrom d lo l = true := by
  cases l with
  | nil => rfl
  | cons q t =>
    simp only [sparseWfFrom, Bool.and_eq_true, decide_eq_true_eq] at h ⊢
    exact ⟨⟨by omega, h.1.2⟩, h.2⟩

/-- Taking an entry out keeps the form. -/
theorem sparseSet_default_wfFrom {α : Type} [DecidableEq α] {d : Nat → α} (l : List (Nat × α)) (lo k : Nat)
    (h : sparseWfFrom d lo l = true) : sparseWfFrom d lo (sparseSet d l k (d k)) = true := by
  induction l generalizing lo with
  | nil => simp [sparseSet, sparseWfFrom]
  | cons q t ih =>
    obtain ⟨a, y⟩ := q
    simp only [sparseWfFrom, Bool.and_eq_true, decide_eq_true_eq] at h
    have t' := ih (a + 1) h.2
    by_cases lt : k < a
    · simp [sparseSet, lt, sparseWfFrom, h.1, t']
    · by_cases eq : k = a
      · simp only [sparseSet, if_neg lt, if_pos eq, if_true]
        exact sparseWfFrom_weaken t' (by omega)
      · simp [sparseSet, lt, eq, sparseWfFrom, h.1, t']

theorem sparseSet_wfFrom {α : Type} [DecidableEq α] {d : Nat → α} (l : List (Nat × α)) (lo k : Nat) (x : α)
    (h : sparseWfFrom d lo l = true) (le : lo ≤ k) : sparseWfFrom d lo (sparseSet d l k x) = true := by
  by_cases e : x = d k
  · exact e ▸ sparseSet_default_wfFrom l lo k h
  · induction l generalizing lo with
    | nil => simp [sparseSet, sparseWfFrom, e, le]
    | cons q t ih =>
      obtain ⟨a, y⟩ := q
      simp only [sparseWfFrom, Bool.and_eq_true, decide_eq_true_eq] at h
      by_cases lt : k < a
      · simp [sparseSet, lt, e, sparseWfFrom, h, le, Nat.succ_le_of_lt lt]
      · by_cases eq : k = a
        · subst eq
          simp [sparseSet, e, sparseWfFrom, h]
        · have t' := ih (a + 1) h.2 (by omega)
          simp [sparseSet, lt, eq, sparseWfFrom, h.1, t']

theorem sparseSet_wf {α : Type} [DecidableEq α] {d : Nat → α} {l : List (Nat × α)} (h : sparseWf d l = true) (k : Nat) (x : α) :
    sparseWf d (sparseSet d l k x) = true := sparseSet_wfFrom l 0 k x h (Nat.zero_le k)

/-- Taking entries out by a test of their keys keeps the form. -/
theorem sparseWfFrom_filter {α : Type} [DecidableEq α] {d : Nat → α} (p : Nat × α → Bool) (l : List (Nat × α)) (lo : Nat)
    (h : sparseWfFrom d lo l = true) : sparseWfFrom d lo (l.filter p) = true := by
  induction l generalizing lo with
  | nil => rfl
  | cons q t ih =>
    obtain ⟨a, y⟩ := q
    simp only [sparseWfFrom, Bool.and_eq_true, decide_eq_true_eq] at h
    have t' := ih (a + 1) h.2
    cases e : p (a, y)
    · simpa [List.filter_cons, e] using sparseWfFrom_weaken t' (by omega)
    · simp [e, sparseWfFrom, h.1, t']

theorem sparseWf_filter {α : Type} [DecidableEq α] {d : Nat → α} (p : Nat × α → Bool) {l : List (Nat × α)}
    (h : sparseWf d l = true) : sparseWf d (l.filter p) = true := sparseWfFrom_filter p l 0 h

/-! ## Read after write -/

theorem sparseGet_set_ne {α : Type} [DecidableEq α] {d : Nat → α} (l : List (Nat × α)) {j k : Nat} (x : α) (ne : j ≠ k) :
    sparseGet d (sparseSet d l k x) j = sparseGet d l j := by
  induction l with
  | nil => by_cases e : x = d k <;> simp [sparseSet, sparseGet, e, ne]
  | cons q t ih =>
    obtain ⟨a, y⟩ := q
    by_cases lt : k < a
    · by_cases e : x = d k
      · simp only [sparseSet, if_pos lt, if_pos e, sparseGet, ih]
      · simp only [sparseSet, if_pos lt, if_neg e, sparseGet, if_neg ne]
    · by_cases eq : k = a
      · by_cases e : x = d k
        · simp only [sparseSet, if_neg lt, if_pos eq, if_pos e, ih, sparseGet, if_neg (eq ▸ ne)]
        · simp only [sparseSet, if_neg lt, if_pos eq, if_neg e, sparseGet, if_neg ne, if_neg (eq ▸ ne)]
      · simp only [sparseSet, if_neg lt, if_neg eq, sparseGet, ih]

@[simp] theorem sparseGet_set_self {α : Type} [DecidableEq α] {d : Nat → α} (l : List (Nat × α)) (k : Nat) (x : α) :
    sparseGet d (sparseSet d l k x) k = x := by
  induction l with
  | nil => by_cases e : x = d k <;> simp [sparseSet, sparseGet, e]
  | cons q t ih =>
    obtain ⟨a, y⟩ := q
    by_cases lt : k < a
    · by_cases e : x = d k
      · simp only [sparseSet, if_pos lt, if_pos e, sparseGet, if_neg (Nat.ne_of_lt lt), ih]
      · simp only [sparseSet, if_pos lt, if_neg e, sparseGet, if_true]
    · by_cases eq : k = a
      · by_cases e : x = d k
        · simp only [sparseSet, if_neg lt, if_pos eq, if_pos e, ih]
        · simp only [sparseSet, if_neg lt, if_pos eq, if_neg e, sparseGet, if_true]
      · simp only [sparseSet, if_neg lt, if_neg eq, sparseGet, ih]

theorem sparseGet_set {α : Type} [DecidableEq α] {d : Nat → α} (l : List (Nat × α)) (j k : Nat) (x : α) :
    sparseGet d (sparseSet d l k x) j = if j = k then x else sparseGet d l j := by
  split
  · next e => subst e; simp
  · next ne => exact sparseGet_set_ne l x ne

/-- A write of a default value to a key that is not listed changes nothing. -/
theorem sparseSet_unlisted {α : Type} [DecidableEq α] {d : Nat → α} (l : List (Nat × α)) (k : Nat) (h : ∀ q ∈ l, q.1 ≠ k) :
    sparseSet d l k (d k) = l := by
  induction l with
  | nil => simp [sparseSet]
  | cons q t ih =>
    obtain ⟨a, y⟩ := q
    have t' := ih fun q m => h q (List.mem_cons_of_mem _ m)
    have ne : k ≠ a := fun e => h (a, y) (List.mem_cons_self ..) e.symm
    by_cases lt : k < a
    · simp only [sparseSet, if_pos lt, if_true, t']
    · simp only [sparseSet, if_neg lt, if_neg ne, t']

@[simp] theorem findKey_putKey_self {α : Type} (l : List (Nat × α)) (k : Nat) (x : α) : findKey (putKey l k x) k = some x := by
  induction l with
  | nil => simp [putKey, findKey]
  | cons q t ih =>
    obtain ⟨a, y⟩ := q
    by_cases lt : k < a
    · simp [putKey, lt, findKey]
    · by_cases eq : k = a
      · simp [putKey, eq, findKey]
      · simp [putKey, lt, eq, findKey, Ne.symm eq, ih]

theorem findKey_putKey_ne {α : Type} (l : List (Nat × α)) {j k : Nat} (x : α) (ne : j ≠ k) :
    findKey (putKey l k x) j = findKey l j := by
  induction l with
  | nil => simp [putKey, findKey, ne.symm]
  | cons q t ih =>
    obtain ⟨a, y⟩ := q
    by_cases lt : k < a
    · simp [putKey, lt, findKey, ne.symm]
    · by_cases eq : k = a
      · subst eq
        simp [putKey, findKey, ne.symm]
      · simp [putKey, lt, eq, findKey, ih]

@[simp] theorem setHas_setIns (l : List Nat) (n m : Nat) : setHas (setIns l n) m = (m == n || setHas l m) := by
  induction l with
  | nil => simp [setIns, setHas]
  | cons a t ih =>
    by_cases lt : n < a
    · simp [setIns, lt, setHas]
    · by_cases eq : n = a
      · subst eq
        simp [setIns, setHas]
      · simp [setIns, lt, eq, setHas, ih, Bool.or_left_comm]

@[simp] theorem setHas_setDel (l : List Nat) (n m : Nat) : setHas (setDel l n) m = (m != n && setHas l m) := by
  induction l with
  | nil => simp [setDel, setHas]
  | cons a t ih =>
    by_cases eq : n = a
    · subst eq
      rw [show setDel (n :: t) n = setDel t n by simp [setDel], ih]
      by_cases e : m = n
      · simp [e]
      · have e' : (m == n) = false := by simpa using e
        simp [setHas, e']
    · simp only [setDel, if_neg eq, setHas, ih]
      by_cases e : m = a
      · simp [e, Ne.symm eq]
      · have e' : (m == a) = false := by simpa using e
        simp [e']

end Sys2Proof.Machine
end

