-- ==== Sys2Proof/Laws/State.lean ====
section
/-! SUPPORT. What each small update of the state leaves of every field: one lemma per field per update, so that no proof unfolds a
record update. -/

namespace Sys2Proof.Machine


/-! ## withCtx -/

@[simp] theorem State.withCtx_here (s : State) (f : Ctx → Ctx) : (s.withCtx f).here = s.here := rfl
@[simp] theorem State.withCtx_ctx (s : State) (f : Ctx → Ctx) : (s.withCtx f).ctx = f s.ctx := rfl
@[simp] theorem State.withCtx_ctxs (s : State) (f : Ctx → Ctx) : (s.withCtx f).ctxs = s.ctxs := rfl
@[simp] theorem State.withCtx_core (s : State) (f : Ctx → Ctx) : (s.withCtx f).core = s.core := rfl
@[simp] theorem State.withCtx_cores (s : State) (f : Ctx → Ctx) : (s.withCtx f).cores = s.cores := rfl
@[simp] theorem State.withCtx_mem (s : State) (f : Ctx → Ctx) : (s.withCtx f).mem = s.mem := rfl
@[simp] theorem State.withCtx_poison (s : State) (f : Ctx → Ctx) : (s.withCtx f).poison = s.poison := rfl
@[simp] theorem State.withCtx_badcrc (s : State) (f : Ctx → Ctx) : (s.withCtx f).badcrc = s.badcrc := rfl
@[simp] theorem State.withCtx_dirty (s : State) (f : Ctx → Ctx) : (s.withCtx f).dirty = s.dirty := rfl
@[simp] theorem State.withCtx_sdirty (s : State) (f : Ctx → Ctx) : (s.withCtx f).sdirty = s.sdirty := rfl
@[simp] theorem State.withCtx_copies (s : State) (f : Ctx → Ctx) : (s.withCtx f).copies = s.copies := rfl
@[simp] theorem State.withCtx_inval (s : State) (f : Ctx → Ctx) : (s.withCtx f).inval = s.inval := rfl
@[simp] theorem State.withCtx_records (s : State) (f : Ctx → Ctx) : (s.withCtx f).records = s.records := rfl
@[simp] theorem State.withCtx_sold (s : State) (f : Ctx → Ctx) : (s.withCtx f).sold = s.sold := rfl
@[simp] theorem State.withCtx_icopies (s : State) (f : Ctx → Ctx) : (s.withCtx f).icopies = s.icopies := rfl
@[simp] theorem State.withCtx_l2 (s : State) (f : Ctx → Ctx) : (s.withCtx f).l2 = s.l2 := rfl
@[simp] theorem State.withCtx_own (s : State) (f : Ctx → Ctx) : (s.withCtx f).own = s.own := rfl
@[simp] theorem State.withCtx_slayer (s : State) (f : Ctx → Ctx) : (s.withCtx f).slayer = s.slayer := rfl
@[simp] theorem State.withCtx_hnext (s : State) (f : Ctx → Ctx) : (s.withCtx f).hnext = s.hnext := rfl
@[simp] theorem State.withCtx_walkc (s : State) (f : Ctx → Ctx) : (s.withCtx f).walkc = s.walkc := rfl
@[simp] theorem State.withCtx_ats (s : State) (f : Ctx → Ctx) : (s.withCtx f).ats = s.ats := rfl
@[simp] theorem State.withCtx_atsq (s : State) (f : Ctx → Ctx) : (s.withCtx f).atsq = s.atsq := rfl
@[simp] theorem State.withCtx_toHost (s : State) (f : Ctx → Ctx) : (s.withCtx f).toHost = s.toHost := rfl
@[simp] theorem State.withCtx_hpoi (s : State) (f : Ctx → Ctx) : (s.withCtx f).hpoi = s.hpoi := rfl
@[simp] theorem State.withCtx_atsw (s : State) (f : Ctx → Ctx) : (s.withCtx f).atsw = s.atsw := rfl
@[simp] theorem State.withCtx_hot (s : State) (f : Ctx → Ctx) : (s.withCtx f).hot = s.hot := rfl
@[simp] theorem State.withCtx_vslow (s : State) (f : Ctx → Ctx) : (s.withCtx f).vslow = s.vslow := rfl
@[simp] theorem State.withCtx_remaps (s : State) (f : Ctx → Ctx) : (s.withCtx f).remaps = s.remaps := rfl
@[simp] theorem State.withCtx_trained (s : State) (f : Ctx → Ctx) : (s.withCtx f).trained = s.trained := rfl
@[simp] theorem State.withCtx_retrain (s : State) (f : Ctx → Ctx) : (s.withCtx f).retrain = s.retrain := rfl
@[simp] theorem State.withCtx_retries (s : State) (f : Ctx → Ctx) : (s.withCtx f).retries = s.retries := rfl
@[simp] theorem State.withCtx_sent (s : State) (f : Ctx → Ctx) : (s.withCtx f).sent = s.sent := rfl
@[simp] theorem State.withCtx_cut (s : State) (f : Ctx → Ctx) : (s.withCtx f).cut = s.cut := rfl
@[simp] theorem State.withCtx_agentNo (s : State) (f : Ctx → Ctx) : (s.withCtx f).agentNo = s.agentNo := rfl
@[simp] theorem State.withCtx_agentRun (s : State) (f : Ctx → Ctx) : (s.withCtx f).agentRun = s.agentRun := rfl
@[simp] theorem State.withCtx_lag (s : State) (f : Ctx → Ctx) : (s.withCtx f).lag = s.lag := rfl
@[simp] theorem State.withCtx_hits (s : State) (f : Ctx → Ctx) : (s.withCtx f).hits = s.hits := rfl
@[simp] theorem State.withCtx_inbound (s : State) (f : Ctx → Ctx) : (s.withCtx f).inbound = s.inbound := rfl
@[simp] theorem State.withCtx_epoch (s : State) (f : Ctx → Ctx) : (s.withCtx f).epoch = s.epoch := rfl
@[simp] theorem State.withCtx_since (s : State) (f : Ctx → Ctx) : (s.withCtx f).since = s.since := rfl
@[simp] theorem State.withCtx_hactive (s : State) (f : Ctx → Ctx) : (s.withCtx f).hactive = s.hactive := rfl
@[simp] theorem State.withCtx_csr (s : State) (f : Ctx → Ctx) : (s.withCtx f).csr = s.csr := rfl
@[simp] theorem State.withCtx_tlb (s : State) (f : Ctx → Ctx) : (s.withCtx f).tlb = s.tlb := rfl
@[simp] theorem State.withCtx_ptc (s : State) (f : Ctx → Ctx) : (s.withCtx f).ptc = s.ptc := rfl
@[simp] theorem State.withCtx_refetch (s : State) (f : Ctx → Ctx) : (s.withCtx f).refetch = s.refetch := rfl
@[simp] theorem State.withCtx_fops (s : State) (f : Ctx → Ctx) : (s.withCtx f).fops = s.fops := rfl
@[simp] theorem State.withCtx_served (s : State) (f : Ctx → Ctx) : (s.withCtx f).served = s.served := rfl
@[simp] theorem State.withCtx_gangs (s : State) (f : Ctx → Ctx) : (s.withCtx f).gangs = s.gangs := rfl
@[simp] theorem State.withCtx_colls (s : State) (f : Ctx → Ctx) : (s.withCtx f).colls = s.colls := rfl
@[simp] theorem State.withCtx_sqq (s : State) (f : Ctx → Ctx) : (s.withCtx f).sqq = s.sqq := rfl
@[simp] theorem State.withCtx_pipes (s : State) (f : Ctx → Ctx) : (s.withCtx f).pipes = s.pipes := rfl
@[simp] theorem State.withCtx_placing (s : State) (f : Ctx → Ctx) : (s.withCtx f).placing = s.placing := rfl
@[simp] theorem State.withCtx_spilled (s : State) (f : Ctx → Ctx) : (s.withCtx f).spilled = s.spilled := rfl
@[simp] theorem State.withCtx_past (s : State) (f : Ctx → Ctx) : (s.withCtx f).past = s.past := rfl
@[simp] theorem State.withCtx_launches (s : State) (f : Ctx → Ctx) : (s.withCtx f).launches = s.launches := rfl
@[simp] theorem State.withCtx_pri (s : State) (f : Ctx → Ctx) : (s.withCtx f).pri = s.pri := rfl
@[simp] theorem State.withCtx_moves (s : State) (f : Ctx → Ctx) : (s.withCtx f).moves = s.moves := rfl
@[simp] theorem State.withCtx_brels (s : State) (f : Ctx → Ctx) : (s.withCtx f).brels = s.brels := rfl
@[simp] theorem State.withCtx_errSeq (s : State) (f : Ctx → Ctx) : (s.withCtx f).errSeq = s.errSeq := rfl
@[simp] theorem State.withCtx_fnSeq (s : State) (f : Ctx → Ctx) : (s.withCtx f).fnSeq = s.fnSeq := rfl
@[simp] theorem State.withCtx_hist (s : State) (f : Ctx → Ctx) : (s.withCtx f).hist = s.hist := rfl
@[simp] theorem State.withCtx_msix (s : State) (f : Ctx → Ctx) : (s.withCtx f).msix = s.msix := rfl
@[simp] theorem State.withCtx_msixMask (s : State) (f : Ctx → Ctx) : (s.withCtx f).msixMask = s.msixMask := rfl
@[simp] theorem State.withCtx_msixPend (s : State) (f : Ctx → Ctx) : (s.withCtx f).msixPend = s.msixPend := rfl
@[simp] theorem State.withCtx_hostOut (s : State) (f : Ctx → Ctx) : (s.withCtx f).hostOut = s.hostOut := rfl
@[simp] theorem State.withCtx_fenced (s : State) (f : Ctx → Ctx) : (s.withCtx f).fenced = s.fenced := rfl
@[simp] theorem State.withCtx_stretch (s : State) (f : Ctx → Ctx) : (s.withCtx f).stretch = s.stretch := rfl
@[simp] theorem State.withCtx_cool (s : State) (f : Ctx → Ctx) : (s.withCtx f).cool = s.cool := rfl
@[simp] theorem State.withCtx_bootEnd (s : State) (f : Ctx → Ctx) : (s.withCtx f).bootEnd = s.bootEnd := rfl
@[simp] theorem State.withCtx_cold (s : State) (f : Ctx → Ctx) : (s.withCtx f).cold = s.cold := rfl
@[simp] theorem State.withCtx_resets (s : State) (f : Ctx → Ctx) : (s.withCtx f).resets = s.resets := rfl
@[simp] theorem State.withCtx_cyc (s : State) (f : Ctx → Ctx) : (s.withCtx f).cyc = s.cyc := rfl
@[simp] theorem State.withCtx_dsp (s : State) (f : Ctx → Ctx) : (s.withCtx f).dsp = s.dsp := rfl
@[simp] theorem State.withCtx_ev (s : State) (f : Ctx → Ctx) : (s.withCtx f).ev = s.ev := rfl
@[simp] theorem State.withCtx_agenda (s : State) (f : Ctx → Ctx) : (s.withCtx f).agenda = s.agenda := rfl
@[simp] theorem State.withCtx_sched (s : State) (f : Ctx → Ctx) : (s.withCtx f).sched = s.sched := rfl
@[simp] theorem State.withCtx_free (s : State) (f : Ctx → Ctx) : (s.withCtx f).free = s.free := rfl
@[simp] theorem State.withCtx_uid (s : State) (f : Ctx → Ctx) : (s.withCtx f).uid = s.uid := rfl

/-! ## withRegs -/

@[simp] theorem State.withRegs_here (s : State) (f : Regs → Regs) : (s.withRegs f).here = s.here := rfl
@[simp] theorem State.withRegs_ctx (s : State) (f : Regs → Regs) : (s.withRegs f).ctx = { s.ctx with r := f s.ctx.r } := rfl
@[simp] theorem State.withRegs_ctxs (s : State) (f : Regs → Regs) : (s.withRegs f).ctxs = s.ctxs := rfl
@[simp] theorem State.withRegs_core (s : State) (f : Regs → Regs) : (s.withRegs f).core = s.core := rfl
@[simp] theorem State.withRegs_cores (s : State) (f : Regs → Regs) : (s.withRegs f).cores = s.cores := rfl
@[simp] theorem State.withRegs_mem (s : State) (f : Regs → Regs) : (s.withRegs f).mem = s.mem := rfl
@[simp] theorem State.withRegs_poison (s : State) (f : Regs → Regs) : (s.withRegs f).poison = s.poison := rfl
@[simp] theorem State.withRegs_badcrc (s : State) (f : Regs → Regs) : (s.withRegs f).badcrc = s.badcrc := rfl
@[simp] theorem State.withRegs_dirty (s : State) (f : Regs → Regs) : (s.withRegs f).dirty = s.dirty := rfl
@[simp] theorem State.withRegs_sdirty (s : State) (f : Regs → Regs) : (s.withRegs f).sdirty = s.sdirty := rfl
@[simp] theorem State.withRegs_copies (s : State) (f : Regs → Regs) : (s.withRegs f).copies = s.copies := rfl
@[simp] theorem State.withRegs_inval (s : State) (f : Regs → Regs) : (s.withRegs f).inval = s.inval := rfl
@[simp] theorem State.withRegs_records (s : State) (f : Regs → Regs) : (s.withRegs f).records = s.records := rfl
@[simp] theorem State.withRegs_sold (s : State) (f : Regs → Regs) : (s.withRegs f).sold = s.sold := rfl
@[simp] theorem State.withRegs_icopies (s : State) (f : Regs → Regs) : (s.withRegs f).icopies = s.icopies := rfl
@[simp] theorem State.withRegs_l2 (s : State) (f : Regs → Regs) : (s.withRegs f).l2 = s.l2 := rfl
@[simp] theorem State.withRegs_own (s : State) (f : Regs → Regs) : (s.withRegs f).own = s.own := rfl
@[simp] theorem State.withRegs_slayer (s : State) (f : Regs → Regs) : (s.withRegs f).slayer = s.slayer := rfl
@[simp] theorem State.withRegs_hnext (s : State) (f : Regs → Regs) : (s.withRegs f).hnext = s.hnext := rfl
@[simp] theorem State.withRegs_walkc (s : State) (f : Regs → Regs) : (s.withRegs f).walkc = s.walkc := rfl
@[simp] theorem State.withRegs_ats (s : State) (f : Regs → Regs) : (s.withRegs f).ats = s.ats := rfl
@[simp] theorem State.withRegs_atsq (s : State) (f : Regs → Regs) : (s.withRegs f).atsq = s.atsq := rfl
@[simp] theorem State.withRegs_toHost (s : State) (f : Regs → Regs) : (s.withRegs f).toHost = s.toHost := rfl
@[simp] theorem State.withRegs_hpoi (s : State) (f : Regs → Regs) : (s.withRegs f).hpoi = s.hpoi := rfl
@[simp] theorem State.withRegs_atsw (s : State) (f : Regs → Regs) : (s.withRegs f).atsw = s.atsw := rfl
@[simp] theorem State.withRegs_hot (s : State) (f : Regs → Regs) : (s.withRegs f).hot = s.hot := rfl
@[simp] theorem State.withRegs_vslow (s : State) (f : Regs → Regs) : (s.withRegs f).vslow = s.vslow := rfl
@[simp] theorem State.withRegs_remaps (s : State) (f : Regs → Regs) : (s.withRegs f).remaps = s.remaps := rfl
@[simp] theorem State.withRegs_trained (s : State) (f : Regs → Regs) : (s.withRegs f).trained = s.trained := rfl
@[simp] theorem State.withRegs_retrain (s : State) (f : Regs → Regs) : (s.withRegs f).retrain = s.retrain := rfl
@[simp] theorem State.withRegs_retries (s : State) (f : Regs → Regs) : (s.withRegs f).retries = s.retries := rfl
@[simp] theorem State.withRegs_sent (s : State) (f : Regs → Regs) : (s.withRegs f).sent = s.sent := rfl
@[simp] theorem State.withRegs_cut (s : State) (f : Regs → Regs) : (s.withRegs f).cut = s.cut := rfl
@[simp] theorem State.withRegs_agentNo (s : State) (f : Regs → Regs) : (s.withRegs f).agentNo = s.agentNo := rfl
@[simp] theorem State.withRegs_agentRun (s : State) (f : Regs → Regs) : (s.withRegs f).agentRun = s.agentRun := rfl
@[simp] theorem State.withRegs_lag (s : State) (f : Regs → Regs) : (s.withRegs f).lag = s.lag := rfl
@[simp] theorem State.withRegs_hits (s : State) (f : Regs → Regs) : (s.withRegs f).hits = s.hits := rfl
@[simp] theorem State.withRegs_inbound (s : State) (f : Regs → Regs) : (s.withRegs f).inbound = s.inbound := rfl
@[simp] theorem State.withRegs_epoch (s : State) (f : Regs → Regs) : (s.withRegs f).epoch = s.epoch := rfl
@[simp] theorem State.withRegs_since (s : State) (f : Regs → Regs) : (s.withRegs f).since = s.since := rfl
@[simp] theorem State.withRegs_hactive (s : State) (f : Regs → Regs) : (s.withRegs f).hactive = s.hactive := rfl
@[simp] theorem State.withRegs_csr (s : State) (f : Regs → Regs) : (s.withRegs f).csr = s.csr := rfl
@[simp] theorem State.withRegs_tlb (s : State) (f : Regs → Regs) : (s.withRegs f).tlb = s.tlb := rfl
@[simp] theorem State.withRegs_ptc (s : State) (f : Regs → Regs) : (s.withRegs f).ptc = s.ptc := rfl
@[simp] theorem State.withRegs_refetch (s : State) (f : Regs → Regs) : (s.withRegs f).refetch = s.refetch := rfl
@[simp] theorem State.withRegs_fops (s : State) (f : Regs → Regs) : (s.withRegs f).fops = s.fops := rfl
@[simp] theorem State.withRegs_served (s : State) (f : Regs → Regs) : (s.withRegs f).served = s.served := rfl
@[simp] theorem State.withRegs_gangs (s : State) (f : Regs → Regs) : (s.withRegs f).gangs = s.gangs := rfl
@[simp] theorem State.withRegs_colls (s : State) (f : Regs → Regs) : (s.withRegs f).colls = s.colls := rfl
@[simp] theorem State.withRegs_sqq (s : State) (f : Regs → Regs) : (s.withRegs f).sqq = s.sqq := rfl
@[simp] theorem State.withRegs_pipes (s : State) (f : Regs → Regs) : (s.withRegs f).pipes = s.pipes := rfl
@[simp] theorem State.withRegs_placing (s : State) (f : Regs → Regs) : (s.withRegs f).placing = s.placing := rfl
@[simp] theorem State.withRegs_spilled (s : State) (f : Regs → Regs) : (s.withRegs f).spilled = s.spilled := rfl
@[simp] theorem State.withRegs_past (s : State) (f : Regs → Regs) : (s.withRegs f).past = s.past := rfl
@[simp] theorem State.withRegs_launches (s : State) (f : Regs → Regs) : (s.withRegs f).launches = s.launches := rfl
@[simp] theorem State.withRegs_pri (s : State) (f : Regs → Regs) : (s.withRegs f).pri = s.pri := rfl
@[simp] theorem State.withRegs_moves (s : State) (f : Regs → Regs) : (s.withRegs f).moves = s.moves := rfl
@[simp] theorem State.withRegs_brels (s : State) (f : Regs → Regs) : (s.withRegs f).brels = s.brels := rfl
@[simp] theorem State.withRegs_errSeq (s : State) (f : Regs → Regs) : (s.withRegs f).errSeq = s.errSeq := rfl
@[simp] theorem State.withRegs_fnSeq (s : State) (f : Regs → Regs) : (s.withRegs f).fnSeq = s.fnSeq := rfl
@[simp] theorem State.withRegs_hist (s : State) (f : Regs → Regs) : (s.withRegs f).hist = s.hist := rfl
@[simp] theorem State.withRegs_msix (s : State) (f : Regs → Regs) : (s.withRegs f).msix = s.msix := rfl
@[simp] theorem State.withRegs_msixMask (s : State) (f : Regs → Regs) : (s.withRegs f).msixMask = s.msixMask := rfl
@[simp] theorem State.withRegs_msixPend (s : State) (f : Regs → Regs) : (s.withRegs f).msixPend = s.msixPend := rfl
@[simp] theorem State.withRegs_hostOut (s : State) (f : Regs → Regs) : (s.withRegs f).hostOut = s.hostOut := rfl
@[simp] theorem State.withRegs_fenced (s : State) (f : Regs → Regs) : (s.withRegs f).fenced = s.fenced := rfl
@[simp] theorem State.withRegs_stretch (s : State) (f : Regs → Regs) : (s.withRegs f).stretch = s.stretch := rfl
@[simp] theorem State.withRegs_cool (s : State) (f : Regs → Regs) : (s.withRegs f).cool = s.cool := rfl
@[simp] theorem State.withRegs_bootEnd (s : State) (f : Regs → Regs) : (s.withRegs f).bootEnd = s.bootEnd := rfl
@[simp] theorem State.withRegs_cold (s : State) (f : Regs → Regs) : (s.withRegs f).cold = s.cold := rfl
@[simp] theorem State.withRegs_resets (s : State) (f : Regs → Regs) : (s.withRegs f).resets = s.resets := rfl
@[simp] theorem State.withRegs_cyc (s : State) (f : Regs → Regs) : (s.withRegs f).cyc = s.cyc := rfl
@[simp] theorem State.withRegs_dsp (s : State) (f : Regs → Regs) : (s.withRegs f).dsp = s.dsp := rfl
@[simp] theorem State.withRegs_ev (s : State) (f : Regs → Regs) : (s.withRegs f).ev = s.ev := rfl
@[simp] theorem State.withRegs_agenda (s : State) (f : Regs → Regs) : (s.withRegs f).agenda = s.agenda := rfl
@[simp] theorem State.withRegs_sched (s : State) (f : Regs → Regs) : (s.withRegs f).sched = s.sched := rfl
@[simp] theorem State.withRegs_free (s : State) (f : Regs → Regs) : (s.withRegs f).free = s.free := rfl
@[simp] theorem State.withRegs_uid (s : State) (f : Regs → Regs) : (s.withRegs f).uid = s.uid := rfl

/-! ## withCore -/

@[simp] theorem State.withCore_here (s : State) (f : Core → Core) : (s.withCore f).here = s.here := rfl
@[simp] theorem State.withCore_ctx (s : State) (f : Core → Core) : (s.withCore f).ctx = s.ctx := rfl
@[simp] theorem State.withCore_ctxs (s : State) (f : Core → Core) : (s.withCore f).ctxs = s.ctxs := rfl
@[simp] theorem State.withCore_core (s : State) (f : Core → Core) : (s.withCore f).core = f s.core := rfl
@[simp] theorem State.withCore_cores (s : State) (f : Core → Core) : (s.withCore f).cores = s.cores := rfl
@[simp] theorem State.withCore_mem (s : State) (f : Core → Core) : (s.withCore f).mem = s.mem := rfl
@[simp] theorem State.withCore_poison (s : State) (f : Core → Core) : (s.withCore f).poison = s.poison := rfl
@[simp] theorem State.withCore_badcrc (s : State) (f : Core → Core) : (s.withCore f).badcrc = s.badcrc := rfl
@[simp] theorem State.withCore_dirty (s : State) (f : Core → Core) : (s.withCore f).dirty = s.dirty := rfl
@[simp] theorem State.withCore_sdirty (s : State) (f : Core → Core) : (s.withCore f).sdirty = s.sdirty := rfl
@[simp] theorem State.withCore_copies (s : State) (f : Core → Core) : (s.withCore f).copies = s.copies := rfl
@[simp] theorem State.withCore_inval (s : State) (f : Core → Core) : (s.withCore f).inval = s.inval := rfl
@[simp] theorem State.withCore_records (s : State) (f : Core → Core) : (s.withCore f).records = s.records := rfl
@[simp] theorem State.withCore_sold (s : State) (f : Core → Core) : (s.withCore f).sold = s.sold := rfl
@[simp] theorem State.withCore_icopies (s : State) (f : Core → Core) : (s.withCore f).icopies = s.icopies := rfl
@[simp] theorem State.withCore_l2 (s : State) (f : Core → Core) : (s.withCore f).l2 = s.l2 := rfl
@[simp] theorem State.withCore_own (s : State) (f : Core → Core) : (s.withCore f).own = s.own := rfl
@[simp] theorem State.withCore_slayer (s : State) (f : Core → Core) : (s.withCore f).slayer = s.slayer := rfl
@[simp] theorem State.withCore_hnext (s : State) (f : Core → Core) : (s.withCore f).hnext = s.hnext := rfl
@[simp] theorem State.withCore_walkc (s : State) (f : Core → Core) : (s.withCore f).walkc = s.walkc := rfl
@[simp] theorem State.withCore_ats (s : State) (f : Core → Core) : (s.withCore f).ats = s.ats := rfl
@[simp] theorem State.withCore_atsq (s : State) (f : Core → Core) : (s.withCore f).atsq = s.atsq := rfl
@[simp] theorem State.withCore_toHost (s : State) (f : Core → Core) : (s.withCore f).toHost = s.toHost := rfl
@[simp] theorem State.withCore_hpoi (s : State) (f : Core → Core) : (s.withCore f).hpoi = s.hpoi := rfl
@[simp] theorem State.withCore_atsw (s : State) (f : Core → Core) : (s.withCore f).atsw = s.atsw := rfl
@[simp] theorem State.withCore_hot (s : State) (f : Core → Core) : (s.withCore f).hot = s.hot := rfl
@[simp] theorem State.withCore_vslow (s : State) (f : Core → Core) : (s.withCore f).vslow = s.vslow := rfl
@[simp] theorem State.withCore_remaps (s : State) (f : Core → Core) : (s.withCore f).remaps = s.remaps := rfl
@[simp] theorem State.withCore_trained (s : State) (f : Core → Core) : (s.withCore f).trained = s.trained := rfl
@[simp] theorem State.withCore_retrain (s : State) (f : Core → Core) : (s.withCore f).retrain = s.retrain := rfl
@[simp] theorem State.withCore_retries (s : State) (f : Core → Core) : (s.withCore f).retries = s.retries := rfl
@[simp] theorem State.withCore_sent (s : State) (f : Core → Core) : (s.withCore f).sent = s.sent := rfl
@[simp] theorem State.withCore_cut (s : State) (f : Core → Core) : (s.withCore f).cut = s.cut := rfl
@[simp] theorem State.withCore_agentNo (s : State) (f : Core → Core) : (s.withCore f).agentNo = s.agentNo := rfl
@[simp] theorem State.withCore_agentRun (s : State) (f : Core → Core) : (s.withCore f).agentRun = s.agentRun := rfl
@[simp] theorem State.withCore_lag (s : State) (f : Core → Core) : (s.withCore f).lag = s.lag := rfl
@[simp] theorem State.withCore_hits (s : State) (f : Core → Core) : (s.withCore f).hits = s.hits := rfl
@[simp] theorem State.withCore_inbound (s : State) (f : Core → Core) : (s.withCore f).inbound = s.inbound := rfl
@[simp] theorem State.withCore_epoch (s : State) (f : Core → Core) : (s.withCore f).epoch = s.epoch := rfl
@[simp] theorem State.withCore_since (s : State) (f : Core → Core) : (s.withCore f).since = s.since := rfl
@[simp] theorem State.withCore_hactive (s : State) (f : Core → Core) : (s.withCore f).hactive = s.hactive := rfl
@[simp] theorem State.withCore_csr (s : State) (f : Core → Core) : (s.withCore f).csr = s.csr := rfl
@[simp] theorem State.withCore_tlb (s : State) (f : Core → Core) : (s.withCore f).tlb = s.tlb := rfl
@[simp] theorem State.withCore_ptc (s : State) (f : Core → Core) : (s.withCore f).ptc = s.ptc := rfl
@[simp] theorem State.withCore_refetch (s : State) (f : Core → Core) : (s.withCore f).refetch = s.refetch := rfl
@[simp] theorem State.withCore_fops (s : State) (f : Core → Core) : (s.withCore f).fops = s.fops := rfl
@[simp] theorem State.withCore_served (s : State) (f : Core → Core) : (s.withCore f).served = s.served := rfl
@[simp] theorem State.withCore_gangs (s : State) (f : Core → Core) : (s.withCore f).gangs = s.gangs := rfl
@[simp] theorem State.withCore_colls (s : State) (f : Core → Core) : (s.withCore f).colls = s.colls := rfl
@[simp] theorem State.withCore_sqq (s : State) (f : Core → Core) : (s.withCore f).sqq = s.sqq := rfl
@[simp] theorem State.withCore_pipes (s : State) (f : Core → Core) : (s.withCore f).pipes = s.pipes := rfl
@[simp] theorem State.withCore_placing (s : State) (f : Core → Core) : (s.withCore f).placing = s.placing := rfl
@[simp] theorem State.withCore_spilled (s : State) (f : Core → Core) : (s.withCore f).spilled = s.spilled := rfl
@[simp] theorem State.withCore_past (s : State) (f : Core → Core) : (s.withCore f).past = s.past := rfl
@[simp] theorem State.withCore_launches (s : State) (f : Core → Core) : (s.withCore f).launches = s.launches := rfl
@[simp] theorem State.withCore_pri (s : State) (f : Core → Core) : (s.withCore f).pri = s.pri := rfl
@[simp] theorem State.withCore_moves (s : State) (f : Core → Core) : (s.withCore f).moves = s.moves := rfl
@[simp] theorem State.withCore_brels (s : State) (f : Core → Core) : (s.withCore f).brels = s.brels := rfl
@[simp] theorem State.withCore_errSeq (s : State) (f : Core → Core) : (s.withCore f).errSeq = s.errSeq := rfl
@[simp] theorem State.withCore_fnSeq (s : State) (f : Core → Core) : (s.withCore f).fnSeq = s.fnSeq := rfl
@[simp] theorem State.withCore_hist (s : State) (f : Core → Core) : (s.withCore f).hist = s.hist := rfl
@[simp] theorem State.withCore_msix (s : State) (f : Core → Core) : (s.withCore f).msix = s.msix := rfl
@[simp] theorem State.withCore_msixMask (s : State) (f : Core → Core) : (s.withCore f).msixMask = s.msixMask := rfl
@[simp] theorem State.withCore_msixPend (s : State) (f : Core → Core) : (s.withCore f).msixPend = s.msixPend := rfl
@[simp] theorem State.withCore_hostOut (s : State) (f : Core → Core) : (s.withCore f).hostOut = s.hostOut := rfl
@[simp] theorem State.withCore_fenced (s : State) (f : Core → Core) : (s.withCore f).fenced = s.fenced := rfl
@[simp] theorem State.withCore_stretch (s : State) (f : Core → Core) : (s.withCore f).stretch = s.stretch := rfl
@[simp] theorem State.withCore_cool (s : State) (f : Core → Core) : (s.withCore f).cool = s.cool := rfl
@[simp] theorem State.withCore_bootEnd (s : State) (f : Core → Core) : (s.withCore f).bootEnd = s.bootEnd := rfl
@[simp] theorem State.withCore_cold (s : State) (f : Core → Core) : (s.withCore f).cold = s.cold := rfl
@[simp] theorem State.withCore_resets (s : State) (f : Core → Core) : (s.withCore f).resets = s.resets := rfl
@[simp] theorem State.withCore_cyc (s : State) (f : Core → Core) : (s.withCore f).cyc = s.cyc := rfl
@[simp] theorem State.withCore_dsp (s : State) (f : Core → Core) : (s.withCore f).dsp = s.dsp := rfl
@[simp] theorem State.withCore_ev (s : State) (f : Core → Core) : (s.withCore f).ev = s.ev := rfl
@[simp] theorem State.withCore_agenda (s : State) (f : Core → Core) : (s.withCore f).agenda = s.agenda := rfl
@[simp] theorem State.withCore_sched (s : State) (f : Core → Core) : (s.withCore f).sched = s.sched := rfl
@[simp] theorem State.withCore_free (s : State) (f : Core → Core) : (s.withCore f).free = s.free := rfl
@[simp] theorem State.withCore_uid (s : State) (f : Core → Core) : (s.withCore f).uid = s.uid := rfl

/-! ## queue -/

@[simp] theorem State.queue_here (s : State) (e : Ev) : (s.queue e).here = s.here := rfl
@[simp] theorem State.queue_ctx (s : State) (e : Ev) : (s.queue e).ctx = s.ctx := rfl
@[simp] theorem State.queue_ctxs (s : State) (e : Ev) : (s.queue e).ctxs = s.ctxs := rfl
@[simp] theorem State.queue_core (s : State) (e : Ev) : (s.queue e).core = s.core := rfl
@[simp] theorem State.queue_cores (s : State) (e : Ev) : (s.queue e).cores = s.cores := rfl
@[simp] theorem State.queue_mem (s : State) (e : Ev) : (s.queue e).mem = s.mem := rfl
@[simp] theorem State.queue_poison (s : State) (e : Ev) : (s.queue e).poison = s.poison := rfl
@[simp] theorem State.queue_badcrc (s : State) (e : Ev) : (s.queue e).badcrc = s.badcrc := rfl
@[simp] theorem State.queue_dirty (s : State) (e : Ev) : (s.queue e).dirty = s.dirty := rfl
@[simp] theorem State.queue_sdirty (s : State) (e : Ev) : (s.queue e).sdirty = s.sdirty := rfl
@[simp] theorem State.queue_copies (s : State) (e : Ev) : (s.queue e).copies = s.copies := rfl
@[simp] theorem State.queue_inval (s : State) (e : Ev) : (s.queue e).inval = s.inval := rfl
@[simp] theorem State.queue_records (s : State) (e : Ev) : (s.queue e).records = s.records := rfl
@[simp] theorem State.queue_sold (s : State) (e : Ev) : (s.queue e).sold = s.sold := rfl
@[simp] theorem State.queue_icopies (s : State) (e : Ev) : (s.queue e).icopies = s.icopies := rfl
@[simp] theorem State.queue_l2 (s : State) (e : Ev) : (s.queue e).l2 = s.l2 := rfl
@[simp] theorem State.queue_own (s : State) (e : Ev) : (s.queue e).own = s.own := rfl
@[simp] theorem State.queue_slayer (s : State) (e : Ev) : (s.queue e).slayer = s.slayer := rfl
@[simp] theorem State.queue_hnext (s : State) (e : Ev) : (s.queue e).hnext = s.hnext := rfl
@[simp] theorem State.queue_walkc (s : State) (e : Ev) : (s.queue e).walkc = s.walkc := rfl
@[simp] theorem State.queue_ats (s : State) (e : Ev) : (s.queue e).ats = s.ats := rfl
@[simp] theorem State.queue_atsq (s : State) (e : Ev) : (s.queue e).atsq = s.atsq := rfl
@[simp] theorem State.queue_toHost (s : State) (e : Ev) : (s.queue e).toHost = s.toHost := rfl
@[simp] theorem State.queue_hpoi (s : State) (e : Ev) : (s.queue e).hpoi = s.hpoi := rfl
@[simp] theorem State.queue_atsw (s : State) (e : Ev) : (s.queue e).atsw = s.atsw := rfl
@[simp] theorem State.queue_hot (s : State) (e : Ev) : (s.queue e).hot = s.hot := rfl
@[simp] theorem State.queue_vslow (s : State) (e : Ev) : (s.queue e).vslow = s.vslow := rfl
@[simp] theorem State.queue_remaps (s : State) (e : Ev) : (s.queue e).remaps = s.remaps := rfl
@[simp] theorem State.queue_trained (s : State) (e : Ev) : (s.queue e).trained = s.trained := rfl
@[simp] theorem State.queue_retrain (s : State) (e : Ev) : (s.queue e).retrain = s.retrain := rfl
@[simp] theorem State.queue_retries (s : State) (e : Ev) : (s.queue e).retries = s.retries := rfl
@[simp] theorem State.queue_sent (s : State) (e : Ev) : (s.queue e).sent = s.sent := rfl
@[simp] theorem State.queue_cut (s : State) (e : Ev) : (s.queue e).cut = s.cut := rfl
@[simp] theorem State.queue_agentNo (s : State) (e : Ev) : (s.queue e).agentNo = s.agentNo := rfl
@[simp] theorem State.queue_agentRun (s : State) (e : Ev) : (s.queue e).agentRun = s.agentRun := rfl
@[simp] theorem State.queue_lag (s : State) (e : Ev) : (s.queue e).lag = s.lag := rfl
@[simp] theorem State.queue_hits (s : State) (e : Ev) : (s.queue e).hits = s.hits := rfl
@[simp] theorem State.queue_inbound (s : State) (e : Ev) : (s.queue e).inbound = s.inbound := rfl
@[simp] theorem State.queue_epoch (s : State) (e : Ev) : (s.queue e).epoch = s.epoch := rfl
@[simp] theorem State.queue_since (s : State) (e : Ev) : (s.queue e).since = s.since := rfl
@[simp] theorem State.queue_hactive (s : State) (e : Ev) : (s.queue e).hactive = s.hactive := rfl
@[simp] theorem State.queue_csr (s : State) (e : Ev) : (s.queue e).csr = s.csr := rfl
@[simp] theorem State.queue_tlb (s : State) (e : Ev) : (s.queue e).tlb = s.tlb := rfl
@[simp] theorem State.queue_ptc (s : State) (e : Ev) : (s.queue e).ptc = s.ptc := rfl
@[simp] theorem State.queue_refetch (s : State) (e : Ev) : (s.queue e).refetch = s.refetch := rfl
@[simp] theorem State.queue_fops (s : State) (e : Ev) : (s.queue e).fops = s.fops := rfl
@[simp] theorem State.queue_served (s : State) (e : Ev) : (s.queue e).served = s.served := rfl
@[simp] theorem State.queue_gangs (s : State) (e : Ev) : (s.queue e).gangs = s.gangs := rfl
@[simp] theorem State.queue_colls (s : State) (e : Ev) : (s.queue e).colls = s.colls := rfl
@[simp] theorem State.queue_sqq (s : State) (e : Ev) : (s.queue e).sqq = s.sqq := rfl
@[simp] theorem State.queue_pipes (s : State) (e : Ev) : (s.queue e).pipes = s.pipes := rfl
@[simp] theorem State.queue_placing (s : State) (e : Ev) : (s.queue e).placing = s.placing := rfl
@[simp] theorem State.queue_spilled (s : State) (e : Ev) : (s.queue e).spilled = s.spilled := rfl
@[simp] theorem State.queue_past (s : State) (e : Ev) : (s.queue e).past = s.past := rfl
@[simp] theorem State.queue_launches (s : State) (e : Ev) : (s.queue e).launches = s.launches := rfl
@[simp] theorem State.queue_pri (s : State) (e : Ev) : (s.queue e).pri = s.pri := rfl
@[simp] theorem State.queue_moves (s : State) (e : Ev) : (s.queue e).moves = s.moves := rfl
@[simp] theorem State.queue_brels (s : State) (e : Ev) : (s.queue e).brels = s.brels := rfl
@[simp] theorem State.queue_errSeq (s : State) (e : Ev) : (s.queue e).errSeq = s.errSeq := rfl
@[simp] theorem State.queue_fnSeq (s : State) (e : Ev) : (s.queue e).fnSeq = s.fnSeq := rfl
@[simp] theorem State.queue_hist (s : State) (e : Ev) : (s.queue e).hist = s.hist := rfl
@[simp] theorem State.queue_msix (s : State) (e : Ev) : (s.queue e).msix = s.msix := rfl
@[simp] theorem State.queue_msixMask (s : State) (e : Ev) : (s.queue e).msixMask = s.msixMask := rfl
@[simp] theorem State.queue_msixPend (s : State) (e : Ev) : (s.queue e).msixPend = s.msixPend := rfl
@[simp] theorem State.queue_hostOut (s : State) (e : Ev) : (s.queue e).hostOut = s.hostOut := rfl
@[simp] theorem State.queue_fenced (s : State) (e : Ev) : (s.queue e).fenced = s.fenced := rfl
@[simp] theorem State.queue_stretch (s : State) (e : Ev) : (s.queue e).stretch = s.stretch := rfl
@[simp] theorem State.queue_cool (s : State) (e : Ev) : (s.queue e).cool = s.cool := rfl
@[simp] theorem State.queue_bootEnd (s : State) (e : Ev) : (s.queue e).bootEnd = s.bootEnd := rfl
@[simp] theorem State.queue_cold (s : State) (e : Ev) : (s.queue e).cold = s.cold := rfl
@[simp] theorem State.queue_resets (s : State) (e : Ev) : (s.queue e).resets = s.resets := rfl
@[simp] theorem State.queue_cyc (s : State) (e : Ev) : (s.queue e).cyc = s.cyc := rfl
@[simp] theorem State.queue_dsp (s : State) (e : Ev) : (s.queue e).dsp = s.dsp := rfl
@[simp] theorem State.queue_ev (s : State) (e : Ev) : (s.queue e).ev = s.ev := rfl
@[simp] theorem State.queue_agenda (s : State) (e : Ev) : (s.queue e).agenda = s.agenda ++ [e] := rfl
@[simp] theorem State.queue_sched (s : State) (e : Ev) : (s.queue e).sched = s.sched := rfl
@[simp] theorem State.queue_free (s : State) (e : Ev) : (s.queue e).free = s.free := rfl
@[simp] theorem State.queue_uid (s : State) (e : Ev) : (s.queue e).uid = s.uid := rfl

/-! ## setReg -/

@[simp] theorem State.setReg_here (s : State) (o : Nat) (w : Word) : (s.setReg o w).here = s.here := rfl
@[simp] theorem State.setReg_ctx (s : State) (o : Nat) (w : Word) : (s.setReg o w).ctx = s.ctx := rfl
@[simp] theorem State.setReg_ctxs (s : State) (o : Nat) (w : Word) : (s.setReg o w).ctxs = s.ctxs := rfl
@[simp] theorem State.setReg_core (s : State) (o : Nat) (w : Word) : (s.setReg o w).core = s.core := rfl
@[simp] theorem State.setReg_cores (s : State) (o : Nat) (w : Word) : (s.setReg o w).cores = s.cores := rfl
@[simp] theorem State.setReg_mem (s : State) (o : Nat) (w : Word) : (s.setReg o w).mem = s.mem := rfl
@[simp] theorem State.setReg_poison (s : State) (o : Nat) (w : Word) : (s.setReg o w).poison = s.poison := rfl
@[simp] theorem State.setReg_badcrc (s : State) (o : Nat) (w : Word) : (s.setReg o w).badcrc = s.badcrc := rfl
@[simp] theorem State.setReg_dirty (s : State) (o : Nat) (w : Word) : (s.setReg o w).dirty = s.dirty := rfl
@[simp] theorem State.setReg_sdirty (s : State) (o : Nat) (w : Word) : (s.setReg o w).sdirty = s.sdirty := rfl
@[simp] theorem State.setReg_copies (s : State) (o : Nat) (w : Word) : (s.setReg o w).copies = s.copies := rfl
@[simp] theorem State.setReg_inval (s : State) (o : Nat) (w : Word) : (s.setReg o w).inval = s.inval := rfl
@[simp] theorem State.setReg_records (s : State) (o : Nat) (w : Word) : (s.setReg o w).records = s.records := rfl
@[simp] theorem State.setReg_sold (s : State) (o : Nat) (w : Word) : (s.setReg o w).sold = s.sold := rfl
@[simp] theorem State.setReg_icopies (s : State) (o : Nat) (w : Word) : (s.setReg o w).icopies = s.icopies := rfl
@[simp] theorem State.setReg_l2 (s : State) (o : Nat) (w : Word) : (s.setReg o w).l2 = s.l2 := rfl
@[simp] theorem State.setReg_own (s : State) (o : Nat) (w : Word) : (s.setReg o w).own = s.own := rfl
@[simp] theorem State.setReg_slayer (s : State) (o : Nat) (w : Word) : (s.setReg o w).slayer = s.slayer := rfl
@[simp] theorem State.setReg_hnext (s : State) (o : Nat) (w : Word) : (s.setReg o w).hnext = s.hnext := rfl
@[simp] theorem State.setReg_walkc (s : State) (o : Nat) (w : Word) : (s.setReg o w).walkc = s.walkc := rfl
@[simp] theorem State.setReg_ats (s : State) (o : Nat) (w : Word) : (s.setReg o w).ats = s.ats := rfl
@[simp] theorem State.setReg_atsq (s : State) (o : Nat) (w : Word) : (s.setReg o w).atsq = s.atsq := rfl
@[simp] theorem State.setReg_toHost (s : State) (o : Nat) (w : Word) : (s.setReg o w).toHost = s.toHost := rfl
@[simp] theorem State.setReg_hpoi (s : State) (o : Nat) (w : Word) : (s.setReg o w).hpoi = s.hpoi := rfl
@[simp] theorem State.setReg_atsw (s : State) (o : Nat) (w : Word) : (s.setReg o w).atsw = s.atsw := rfl
@[simp] theorem State.setReg_hot (s : State) (o : Nat) (w : Word) : (s.setReg o w).hot = s.hot := rfl
@[simp] theorem State.setReg_vslow (s : State) (o : Nat) (w : Word) : (s.setReg o w).vslow = s.vslow := rfl
@[simp] theorem State.setReg_remaps (s : State) (o : Nat) (w : Word) : (s.setReg o w).remaps = s.remaps := rfl
@[simp] theorem State.setReg_trained (s : State) (o : Nat) (w : Word) : (s.setReg o w).trained = s.trained := rfl
@[simp] theorem State.setReg_retrain (s : State) (o : Nat) (w : Word) : (s.setReg o w).retrain = s.retrain := rfl
@[simp] theorem State.setReg_retries (s : State) (o : Nat) (w : Word) : (s.setReg o w).retries = s.retries := rfl
@[simp] theorem State.setReg_sent (s : State) (o : Nat) (w : Word) : (s.setReg o w).sent = s.sent := rfl
@[simp] theorem State.setReg_cut (s : State) (o : Nat) (w : Word) : (s.setReg o w).cut = s.cut := rfl
@[simp] theorem State.setReg_agentNo (s : State) (o : Nat) (w : Word) : (s.setReg o w).agentNo = s.agentNo := rfl
@[simp] theorem State.setReg_agentRun (s : State) (o : Nat) (w : Word) : (s.setReg o w).agentRun = s.agentRun := rfl
@[simp] theorem State.setReg_lag (s : State) (o : Nat) (w : Word) : (s.setReg o w).lag = s.lag := rfl
@[simp] theorem State.setReg_hits (s : State) (o : Nat) (w : Word) : (s.setReg o w).hits = s.hits := rfl
@[simp] theorem State.setReg_inbound (s : State) (o : Nat) (w : Word) : (s.setReg o w).inbound = s.inbound := rfl
@[simp] theorem State.setReg_epoch (s : State) (o : Nat) (w : Word) : (s.setReg o w).epoch = s.epoch := rfl
@[simp] theorem State.setReg_since (s : State) (o : Nat) (w : Word) : (s.setReg o w).since = s.since := rfl
@[simp] theorem State.setReg_hactive (s : State) (o : Nat) (w : Word) : (s.setReg o w).hactive = s.hactive := rfl
@[simp] theorem State.setReg_csr (s : State) (o : Nat) (w : Word) : (s.setReg o w).csr = sparseSet csrReset s.csr o w := rfl
@[simp] theorem State.setReg_tlb (s : State) (o : Nat) (w : Word) : (s.setReg o w).tlb = s.tlb := rfl
@[simp] theorem State.setReg_ptc (s : State) (o : Nat) (w : Word) : (s.setReg o w).ptc = s.ptc := rfl
@[simp] theorem State.setReg_refetch (s : State) (o : Nat) (w : Word) : (s.setReg o w).refetch = s.refetch := rfl
@[simp] theorem State.setReg_fops (s : State) (o : Nat) (w : Word) : (s.setReg o w).fops = s.fops := rfl
@[simp] theorem State.setReg_served (s : State) (o : Nat) (w : Word) : (s.setReg o w).served = s.served := rfl
@[simp] theorem State.setReg_gangs (s : State) (o : Nat) (w : Word) : (s.setReg o w).gangs = s.gangs := rfl
@[simp] theorem State.setReg_colls (s : State) (o : Nat) (w : Word) : (s.setReg o w).colls = s.colls := rfl
@[simp] theorem State.setReg_sqq (s : State) (o : Nat) (w : Word) : (s.setReg o w).sqq = s.sqq := rfl
@[simp] theorem State.setReg_pipes (s : State) (o : Nat) (w : Word) : (s.setReg o w).pipes = s.pipes := rfl
@[simp] theorem State.setReg_placing (s : State) (o : Nat) (w : Word) : (s.setReg o w).placing = s.placing := rfl
@[simp] theorem State.setReg_spilled (s : State) (o : Nat) (w : Word) : (s.setReg o w).spilled = s.spilled := rfl
@[simp] theorem State.setReg_past (s : State) (o : Nat) (w : Word) : (s.setReg o w).past = s.past := rfl
@[simp] theorem State.setReg_launches (s : State) (o : Nat) (w : Word) : (s.setReg o w).launches = s.launches := rfl
@[simp] theorem State.setReg_pri (s : State) (o : Nat) (w : Word) : (s.setReg o w).pri = s.pri := rfl
@[simp] theorem State.setReg_moves (s : State) (o : Nat) (w : Word) : (s.setReg o w).moves = s.moves := rfl
@[simp] theorem State.setReg_brels (s : State) (o : Nat) (w : Word) : (s.setReg o w).brels = s.brels := rfl
@[simp] theorem State.setReg_errSeq (s : State) (o : Nat) (w : Word) : (s.setReg o w).errSeq = s.errSeq := rfl
@[simp] theorem State.setReg_fnSeq (s : State) (o : Nat) (w : Word) : (s.setReg o w).fnSeq = s.fnSeq := rfl
@[simp] theorem State.setReg_hist (s : State) (o : Nat) (w : Word) : (s.setReg o w).hist = s.hist := rfl
@[simp] theorem State.setReg_msix (s : State) (o : Nat) (w : Word) : (s.setReg o w).msix = s.msix := rfl
@[simp] theorem State.setReg_msixMask (s : State) (o : Nat) (w : Word) : (s.setReg o w).msixMask = s.msixMask := rfl
@[simp] theorem State.setReg_msixPend (s : State) (o : Nat) (w : Word) : (s.setReg o w).msixPend = s.msixPend := rfl
@[simp] theorem State.setReg_hostOut (s : State) (o : Nat) (w : Word) : (s.setReg o w).hostOut = s.hostOut := rfl
@[simp] theorem State.setReg_fenced (s : State) (o : Nat) (w : Word) : (s.setReg o w).fenced = s.fenced := rfl
@[simp] theorem State.setReg_stretch (s : State) (o : Nat) (w : Word) : (s.setReg o w).stretch = s.stretch := rfl
@[simp] theorem State.setReg_cool (s : State) (o : Nat) (w : Word) : (s.setReg o w).cool = s.cool := rfl
@[simp] theorem State.setReg_bootEnd (s : State) (o : Nat) (w : Word) : (s.setReg o w).bootEnd = s.bootEnd := rfl
@[simp] theorem State.setReg_cold (s : State) (o : Nat) (w : Word) : (s.setReg o w).cold = s.cold := rfl
@[simp] theorem State.setReg_resets (s : State) (o : Nat) (w : Word) : (s.setReg o w).resets = s.resets := rfl
@[simp] theorem State.setReg_cyc (s : State) (o : Nat) (w : Word) : (s.setReg o w).cyc = s.cyc := rfl
@[simp] theorem State.setReg_dsp (s : State) (o : Nat) (w : Word) : (s.setReg o w).dsp = s.dsp := rfl
@[simp] theorem State.setReg_ev (s : State) (o : Nat) (w : Word) : (s.setReg o w).ev = s.ev := rfl
@[simp] theorem State.setReg_agenda (s : State) (o : Nat) (w : Word) : (s.setReg o w).agenda = s.agenda := rfl
@[simp] theorem State.setReg_sched (s : State) (o : Nat) (w : Word) : (s.setReg o w).sched = s.sched := rfl
@[simp] theorem State.setReg_free (s : State) (o : Nat) (w : Word) : (s.setReg o w).free = s.free := rfl
@[simp] theorem State.setReg_uid (s : State) (o : Nat) (w : Word) : (s.setReg o w).uid = s.uid := rfl

/-! ## putByte -/

@[simp] theorem State.putByte_here (s : State) (l : Nat) (b : Byte) : (s.putByte l b).here = s.here := rfl
@[simp] theorem State.putByte_ctx (s : State) (l : Nat) (b : Byte) : (s.putByte l b).ctx = s.ctx := rfl
@[simp] theorem State.putByte_ctxs (s : State) (l : Nat) (b : Byte) : (s.putByte l b).ctxs = s.ctxs := rfl
@[simp] theorem State.putByte_core (s : State) (l : Nat) (b : Byte) : (s.putByte l b).core = s.core := rfl
@[simp] theorem State.putByte_cores (s : State) (l : Nat) (b : Byte) : (s.putByte l b).cores = s.cores := rfl
@[simp] theorem State.putByte_mem (s : State) (l : Nat) (b : Byte) : (s.putByte l b).mem = sparseSet memDefault s.mem l b := rfl
@[simp] theorem State.putByte_poison (s : State) (l : Nat) (b : Byte) : (s.putByte l b).poison = s.poison := rfl
@[simp] theorem State.putByte_badcrc (s : State) (l : Nat) (b : Byte) : (s.putByte l b).badcrc = s.badcrc := rfl
@[simp] theorem State.putByte_dirty (s : State) (l : Nat) (b : Byte) : (s.putByte l b).dirty = s.dirty := rfl
@[simp] theorem State.putByte_sdirty (s : State) (l : Nat) (b : Byte) : (s.putByte l b).sdirty = s.sdirty := rfl
@[simp] theorem State.putByte_copies (s : State) (l : Nat) (b : Byte) : (s.putByte l b).copies = s.copies := rfl
@[simp] theorem State.putByte_inval (s : State) (l : Nat) (b : Byte) : (s.putByte l b).inval = s.inval := rfl
@[simp] theorem State.putByte_records (s : State) (l : Nat) (b : Byte) : (s.putByte l b).records = s.records := rfl
@[simp] theorem State.putByte_sold (s : State) (l : Nat) (b : Byte) : (s.putByte l b).sold = s.sold := rfl
@[simp] theorem State.putByte_icopies (s : State) (l : Nat) (b : Byte) : (s.putByte l b).icopies = s.icopies := rfl
@[simp] theorem State.putByte_l2 (s : State) (l : Nat) (b : Byte) : (s.putByte l b).l2 = s.l2 := rfl
@[simp] theorem State.putByte_own (s : State) (l : Nat) (b : Byte) : (s.putByte l b).own = s.own := rfl
@[simp] theorem State.putByte_slayer (s : State) (l : Nat) (b : Byte) : (s.putByte l b).slayer = s.slayer := rfl
@[simp] theorem State.putByte_hnext (s : State) (l : Nat) (b : Byte) : (s.putByte l b).hnext = s.hnext := rfl
@[simp] theorem State.putByte_walkc (s : State) (l : Nat) (b : Byte) : (s.putByte l b).walkc = s.walkc := rfl
@[simp] theorem State.putByte_ats (s : State) (l : Nat) (b : Byte) : (s.putByte l b).ats = s.ats := rfl
@[simp] theorem State.putByte_atsq (s : State) (l : Nat) (b : Byte) : (s.putByte l b).atsq = s.atsq := rfl
@[simp] theorem State.putByte_toHost (s : State) (l : Nat) (b : Byte) : (s.putByte l b).toHost = s.toHost := rfl
@[simp] theorem State.putByte_hpoi (s : State) (l : Nat) (b : Byte) : (s.putByte l b).hpoi = s.hpoi := rfl
@[simp] theorem State.putByte_atsw (s : State) (l : Nat) (b : Byte) : (s.putByte l b).atsw = s.atsw := rfl
@[simp] theorem State.putByte_hot (s : State) (l : Nat) (b : Byte) : (s.putByte l b).hot = s.hot := rfl
@[simp] theorem State.putByte_vslow (s : State) (l : Nat) (b : Byte) : (s.putByte l b).vslow = s.vslow := rfl
@[simp] theorem State.putByte_remaps (s : State) (l : Nat) (b : Byte) : (s.putByte l b).remaps = s.remaps := rfl
@[simp] theorem State.putByte_trained (s : State) (l : Nat) (b : Byte) : (s.putByte l b).trained = s.trained := rfl
@[simp] theorem State.putByte_retrain (s : State) (l : Nat) (b : Byte) : (s.putByte l b).retrain = s.retrain := rfl
@[simp] theorem State.putByte_retries (s : State) (l : Nat) (b : Byte) : (s.putByte l b).retries = s.retries := rfl
@[simp] theorem State.putByte_sent (s : State) (l : Nat) (b : Byte) : (s.putByte l b).sent = s.sent := rfl
@[simp] theorem State.putByte_cut (s : State) (l : Nat) (b : Byte) : (s.putByte l b).cut = s.cut := rfl
@[simp] theorem State.putByte_agentNo (s : State) (l : Nat) (b : Byte) : (s.putByte l b).agentNo = s.agentNo := rfl
@[simp] theorem State.putByte_agentRun (s : State) (l : Nat) (b : Byte) : (s.putByte l b).agentRun = s.agentRun := rfl
@[simp] theorem State.putByte_lag (s : State) (l : Nat) (b : Byte) : (s.putByte l b).lag = s.lag := rfl
@[simp] theorem State.putByte_hits (s : State) (l : Nat) (b : Byte) : (s.putByte l b).hits = s.hits := rfl
@[simp] theorem State.putByte_inbound (s : State) (l : Nat) (b : Byte) : (s.putByte l b).inbound = s.inbound := rfl
@[simp] theorem State.putByte_epoch (s : State) (l : Nat) (b : Byte) : (s.putByte l b).epoch = s.epoch := rfl
@[simp] theorem State.putByte_since (s : State) (l : Nat) (b : Byte) : (s.putByte l b).since = if isHbm l && decide (s.epoch.getD (hbmTower l) 0 ≠ 0) then setIns s.since l else s.since := rfl
@[simp] theorem State.putByte_hactive (s : State) (l : Nat) (b : Byte) : (s.putByte l b).hactive = s.hactive := rfl
@[simp] theorem State.putByte_csr (s : State) (l : Nat) (b : Byte) : (s.putByte l b).csr = s.csr := rfl
@[simp] theorem State.putByte_tlb (s : State) (l : Nat) (b : Byte) : (s.putByte l b).tlb = s.tlb := rfl
@[simp] theorem State.putByte_ptc (s : State) (l : Nat) (b : Byte) : (s.putByte l b).ptc = s.ptc := rfl
@[simp] theorem State.putByte_refetch (s : State) (l : Nat) (b : Byte) : (s.putByte l b).refetch = s.refetch := rfl
@[simp] theorem State.putByte_fops (s : State) (l : Nat) (b : Byte) : (s.putByte l b).fops = s.fops := rfl
@[simp] theorem State.putByte_served (s : State) (l : Nat) (b : Byte) : (s.putByte l b).served = s.served := rfl
@[simp] theorem State.putByte_gangs (s : State) (l : Nat) (b : Byte) : (s.putByte l b).gangs = s.gangs := rfl
@[simp] theorem State.putByte_colls (s : State) (l : Nat) (b : Byte) : (s.putByte l b).colls = s.colls := rfl
@[simp] theorem State.putByte_sqq (s : State) (l : Nat) (b : Byte) : (s.putByte l b).sqq = s.sqq := rfl
@[simp] theorem State.putByte_pipes (s : State) (l : Nat) (b : Byte) : (s.putByte l b).pipes = s.pipes := rfl
@[simp] theorem State.putByte_placing (s : State) (l : Nat) (b : Byte) : (s.putByte l b).placing = s.placing := rfl
@[simp] theorem State.putByte_spilled (s : State) (l : Nat) (b : Byte) : (s.putByte l b).spilled = s.spilled := rfl
@[simp] theorem State.putByte_past (s : State) (l : Nat) (b : Byte) : (s.putByte l b).past = s.past := rfl
@[simp] theorem State.putByte_launches (s : State) (l : Nat) (b : Byte) : (s.putByte l b).launches = s.launches := rfl
@[simp] theorem State.putByte_pri (s : State) (l : Nat) (b : Byte) : (s.putByte l b).pri = s.pri := rfl
@[simp] theorem State.putByte_moves (s : State) (l : Nat) (b : Byte) : (s.putByte l b).moves = s.moves := rfl
@[simp] theorem State.putByte_brels (s : State) (l : Nat) (b : Byte) : (s.putByte l b).brels = s.brels := rfl
@[simp] theorem State.putByte_errSeq (s : State) (l : Nat) (b : Byte) : (s.putByte l b).errSeq = s.errSeq := rfl
@[simp] theorem State.putByte_fnSeq (s : State) (l : Nat) (b : Byte) : (s.putByte l b).fnSeq = s.fnSeq := rfl
@[simp] theorem State.putByte_hist (s : State) (l : Nat) (b : Byte) : (s.putByte l b).hist = s.hist := rfl
@[simp] theorem State.putByte_msix (s : State) (l : Nat) (b : Byte) : (s.putByte l b).msix = s.msix := rfl
@[simp] theorem State.putByte_msixMask (s : State) (l : Nat) (b : Byte) : (s.putByte l b).msixMask = s.msixMask := rfl
@[simp] theorem State.putByte_msixPend (s : State) (l : Nat) (b : Byte) : (s.putByte l b).msixPend = s.msixPend := rfl
@[simp] theorem State.putByte_hostOut (s : State) (l : Nat) (b : Byte) : (s.putByte l b).hostOut = s.hostOut := rfl
@[simp] theorem State.putByte_fenced (s : State) (l : Nat) (b : Byte) : (s.putByte l b).fenced = s.fenced := rfl
@[simp] theorem State.putByte_stretch (s : State) (l : Nat) (b : Byte) : (s.putByte l b).stretch = s.stretch := rfl
@[simp] theorem State.putByte_cool (s : State) (l : Nat) (b : Byte) : (s.putByte l b).cool = s.cool := rfl
@[simp] theorem State.putByte_bootEnd (s : State) (l : Nat) (b : Byte) : (s.putByte l b).bootEnd = s.bootEnd := rfl
@[simp] theorem State.putByte_cold (s : State) (l : Nat) (b : Byte) : (s.putByte l b).cold = s.cold := rfl
@[simp] theorem State.putByte_resets (s : State) (l : Nat) (b : Byte) : (s.putByte l b).resets = s.resets := rfl
@[simp] theorem State.putByte_cyc (s : State) (l : Nat) (b : Byte) : (s.putByte l b).cyc = s.cyc := rfl
@[simp] theorem State.putByte_dsp (s : State) (l : Nat) (b : Byte) : (s.putByte l b).dsp = s.dsp := rfl
@[simp] theorem State.putByte_ev (s : State) (l : Nat) (b : Byte) : (s.putByte l b).ev = s.ev := rfl
@[simp] theorem State.putByte_agenda (s : State) (l : Nat) (b : Byte) : (s.putByte l b).agenda = s.agenda := rfl
@[simp] theorem State.putByte_sched (s : State) (l : Nat) (b : Byte) : (s.putByte l b).sched = s.sched := rfl
@[simp] theorem State.putByte_free (s : State) (l : Nat) (b : Byte) : (s.putByte l b).free = s.free := rfl
@[simp] theorem State.putByte_uid (s : State) (l : Nat) (b : Byte) : (s.putByte l b).uid = s.uid := rfl

/-! ## setPoison -/

@[simp] theorem State.setPoison_here (s : State) (l : Nat) : (s.setPoison l).here = s.here := rfl
@[simp] theorem State.setPoison_ctx (s : State) (l : Nat) : (s.setPoison l).ctx = s.ctx := rfl
@[simp] theorem State.setPoison_ctxs (s : State) (l : Nat) : (s.setPoison l).ctxs = s.ctxs := rfl
@[simp] theorem State.setPoison_core (s : State) (l : Nat) : (s.setPoison l).core = s.core := rfl
@[simp] theorem State.setPoison_cores (s : State) (l : Nat) : (s.setPoison l).cores = s.cores := rfl
@[simp] theorem State.setPoison_mem (s : State) (l : Nat) : (s.setPoison l).mem = s.mem := rfl
@[simp] theorem State.setPoison_poison (s : State) (l : Nat) : (s.setPoison l).poison = setIns s.poison (l / granule l * granule l) := rfl
@[simp] theorem State.setPoison_badcrc (s : State) (l : Nat) : (s.setPoison l).badcrc = s.badcrc := rfl
@[simp] theorem State.setPoison_dirty (s : State) (l : Nat) : (s.setPoison l).dirty = s.dirty := rfl
@[simp] theorem State.setPoison_sdirty (s : State) (l : Nat) : (s.setPoison l).sdirty = s.sdirty := rfl
@[simp] theorem State.setPoison_copies (s : State) (l : Nat) : (s.setPoison l).copies = s.copies := rfl
@[simp] theorem State.setPoison_inval (s : State) (l : Nat) : (s.setPoison l).inval = s.inval := rfl
@[simp] theorem State.setPoison_records (s : State) (l : Nat) : (s.setPoison l).records = s.records := rfl
@[simp] theorem State.setPoison_sold (s : State) (l : Nat) : (s.setPoison l).sold = s.sold := rfl
@[simp] theorem State.setPoison_icopies (s : State) (l : Nat) : (s.setPoison l).icopies = s.icopies := rfl
@[simp] theorem State.setPoison_l2 (s : State) (l : Nat) : (s.setPoison l).l2 = s.l2 := rfl
@[simp] theorem State.setPoison_own (s : State) (l : Nat) : (s.setPoison l).own = s.own := rfl
@[simp] theorem State.setPoison_slayer (s : State) (l : Nat) : (s.setPoison l).slayer = s.slayer := rfl
@[simp] theorem State.setPoison_hnext (s : State) (l : Nat) : (s.setPoison l).hnext = s.hnext := rfl
@[simp] theorem State.setPoison_walkc (s : State) (l : Nat) : (s.setPoison l).walkc = s.walkc := rfl
@[simp] theorem State.setPoison_ats (s : State) (l : Nat) : (s.setPoison l).ats = s.ats := rfl
@[simp] theorem State.setPoison_atsq (s : State) (l : Nat) : (s.setPoison l).atsq = s.atsq := rfl
@[simp] theorem State.setPoison_toHost (s : State) (l : Nat) : (s.setPoison l).toHost = s.toHost := rfl
@[simp] theorem State.setPoison_hpoi (s : State) (l : Nat) : (s.setPoison l).hpoi = s.hpoi := rfl
@[simp] theorem State.setPoison_atsw (s : State) (l : Nat) : (s.setPoison l).atsw = s.atsw := rfl
@[simp] theorem State.setPoison_hot (s : State) (l : Nat) : (s.setPoison l).hot = s.hot := rfl
@[simp] theorem State.setPoison_vslow (s : State) (l : Nat) : (s.setPoison l).vslow = s.vslow := rfl
@[simp] theorem State.setPoison_remaps (s : State) (l : Nat) : (s.setPoison l).remaps = s.remaps := rfl
@[simp] theorem State.setPoison_trained (s : State) (l : Nat) : (s.setPoison l).trained = s.trained := rfl
@[simp] theorem State.setPoison_retrain (s : State) (l : Nat) : (s.setPoison l).retrain = s.retrain := rfl
@[simp] theorem State.setPoison_retries (s : State) (l : Nat) : (s.setPoison l).retries = s.retries := rfl
@[simp] theorem State.setPoison_sent (s : State) (l : Nat) : (s.setPoison l).sent = s.sent := rfl
@[simp] theorem State.setPoison_cut (s : State) (l : Nat) : (s.setPoison l).cut = s.cut := rfl
@[simp] theorem State.setPoison_agentNo (s : State) (l : Nat) : (s.setPoison l).agentNo = s.agentNo := rfl
@[simp] theorem State.setPoison_agentRun (s : State) (l : Nat) : (s.setPoison l).agentRun = s.agentRun := rfl
@[simp] theorem State.setPoison_lag (s : State) (l : Nat) : (s.setPoison l).lag = s.lag := rfl
@[simp] theorem State.setPoison_hits (s : State) (l : Nat) : (s.setPoison l).hits = s.hits := rfl
@[simp] theorem State.setPoison_inbound (s : State) (l : Nat) : (s.setPoison l).inbound = s.inbound := rfl
@[simp] theorem State.setPoison_epoch (s : State) (l : Nat) : (s.setPoison l).epoch = s.epoch := rfl
@[simp] theorem State.setPoison_since (s : State) (l : Nat) : (s.setPoison l).since = s.since := rfl
@[simp] theorem State.setPoison_hactive (s : State) (l : Nat) : (s.setPoison l).hactive = s.hactive := rfl
@[simp] theorem State.setPoison_csr (s : State) (l : Nat) : (s.setPoison l).csr = s.csr := rfl
@[simp] theorem State.setPoison_tlb (s : State) (l : Nat) : (s.setPoison l).tlb = s.tlb := rfl
@[simp] theorem State.setPoison_ptc (s : State) (l : Nat) : (s.setPoison l).ptc = s.ptc := rfl
@[simp] theorem State.setPoison_refetch (s : State) (l : Nat) : (s.setPoison l).refetch = s.refetch := rfl
@[simp] theorem State.setPoison_fops (s : State) (l : Nat) : (s.setPoison l).fops = s.fops := rfl
@[simp] theorem State.setPoison_served (s : State) (l : Nat) : (s.setPoison l).served = s.served := rfl
@[simp] theorem State.setPoison_gangs (s : State) (l : Nat) : (s.setPoison l).gangs = s.gangs := rfl
@[simp] theorem State.setPoison_colls (s : State) (l : Nat) : (s.setPoison l).colls = s.colls := rfl
@[simp] theorem State.setPoison_sqq (s : State) (l : Nat) : (s.setPoison l).sqq = s.sqq := rfl
@[simp] theorem State.setPoison_pipes (s : State) (l : Nat) : (s.setPoison l).pipes = s.pipes := rfl
@[simp] theorem State.setPoison_placing (s : State) (l : Nat) : (s.setPoison l).placing = s.placing := rfl
@[simp] theorem State.setPoison_spilled (s : State) (l : Nat) : (s.setPoison l).spilled = s.spilled := rfl
@[simp] theorem State.setPoison_past (s : State) (l : Nat) : (s.setPoison l).past = s.past := rfl
@[simp] theorem State.setPoison_launches (s : State) (l : Nat) : (s.setPoison l).launches = s.launches := rfl
@[simp] theorem State.setPoison_pri (s : State) (l : Nat) : (s.setPoison l).pri = s.pri := rfl
@[simp] theorem State.setPoison_moves (s : State) (l : Nat) : (s.setPoison l).moves = s.moves := rfl
@[simp] theorem State.setPoison_brels (s : State) (l : Nat) : (s.setPoison l).brels = s.brels := rfl
@[simp] theorem State.setPoison_errSeq (s : State) (l : Nat) : (s.setPoison l).errSeq = s.errSeq := rfl
@[simp] theorem State.setPoison_fnSeq (s : State) (l : Nat) : (s.setPoison l).fnSeq = s.fnSeq := rfl
@[simp] theorem State.setPoison_hist (s : State) (l : Nat) : (s.setPoison l).hist = s.hist := rfl
@[simp] theorem State.setPoison_msix (s : State) (l : Nat) : (s.setPoison l).msix = s.msix := rfl
@[simp] theorem State.setPoison_msixMask (s : State) (l : Nat) : (s.setPoison l).msixMask = s.msixMask := rfl
@[simp] theorem State.setPoison_msixPend (s : State) (l : Nat) : (s.setPoison l).msixPend = s.msixPend := rfl
@[simp] theorem State.setPoison_hostOut (s : State) (l : Nat) : (s.setPoison l).hostOut = s.hostOut := rfl
@[simp] theorem State.setPoison_fenced (s : State) (l : Nat) : (s.setPoison l).fenced = s.fenced := rfl
@[simp] theorem State.setPoison_stretch (s : State) (l : Nat) : (s.setPoison l).stretch = s.stretch := rfl
@[simp] theorem State.setPoison_cool (s : State) (l : Nat) : (s.setPoison l).cool = s.cool := rfl
@[simp] theorem State.setPoison_bootEnd (s : State) (l : Nat) : (s.setPoison l).bootEnd = s.bootEnd := rfl
@[simp] theorem State.setPoison_cold (s : State) (l : Nat) : (s.setPoison l).cold = s.cold := rfl
@[simp] theorem State.setPoison_resets (s : State) (l : Nat) : (s.setPoison l).resets = s.resets := rfl
@[simp] theorem State.setPoison_cyc (s : State) (l : Nat) : (s.setPoison l).cyc = s.cyc := rfl
@[simp] theorem State.setPoison_dsp (s : State) (l : Nat) : (s.setPoison l).dsp = s.dsp := rfl
@[simp] theorem State.setPoison_ev (s : State) (l : Nat) : (s.setPoison l).ev = s.ev := rfl
@[simp] theorem State.setPoison_agenda (s : State) (l : Nat) : (s.setPoison l).agenda = s.agenda := rfl
@[simp] theorem State.setPoison_sched (s : State) (l : Nat) : (s.setPoison l).sched = s.sched := rfl
@[simp] theorem State.setPoison_free (s : State) (l : Nat) : (s.setPoison l).free = s.free := rfl
@[simp] theorem State.setPoison_uid (s : State) (l : Nat) : (s.setPoison l).uid = s.uid := rfl

/-! ## clearPoison -/

@[simp] theorem State.clearPoison_here (s : State) (l : Nat) : (s.clearPoison l).here = s.here := rfl
@[simp] theorem State.clearPoison_ctx (s : State) (l : Nat) : (s.clearPoison l).ctx = s.ctx := rfl
@[simp] theorem State.clearPoison_ctxs (s : State) (l : Nat) : (s.clearPoison l).ctxs = s.ctxs := rfl
@[simp] theorem State.clearPoison_core (s : State) (l : Nat) : (s.clearPoison l).core = s.core := rfl
@[simp] theorem State.clearPoison_cores (s : State) (l : Nat) : (s.clearPoison l).cores = s.cores := rfl
@[simp] theorem State.clearPoison_mem (s : State) (l : Nat) : (s.clearPoison l).mem = s.mem := rfl
@[simp] theorem State.clearPoison_poison (s : State) (l : Nat) : (s.clearPoison l).poison = setDel s.poison (l / granule l * granule l) := rfl
@[simp] theorem State.clearPoison_badcrc (s : State) (l : Nat) : (s.clearPoison l).badcrc = s.badcrc := rfl
@[simp] theorem State.clearPoison_dirty (s : State) (l : Nat) : (s.clearPoison l).dirty = s.dirty := rfl
@[simp] theorem State.clearPoison_sdirty (s : State) (l : Nat) : (s.clearPoison l).sdirty = s.sdirty := rfl
@[simp] theorem State.clearPoison_copies (s : State) (l : Nat) : (s.clearPoison l).copies = s.copies := rfl
@[simp] theorem State.clearPoison_inval (s : State) (l : Nat) : (s.clearPoison l).inval = s.inval := rfl
@[simp] theorem State.clearPoison_records (s : State) (l : Nat) : (s.clearPoison l).records = s.records := rfl
@[simp] theorem State.clearPoison_sold (s : State) (l : Nat) : (s.clearPoison l).sold = s.sold := rfl
@[simp] theorem State.clearPoison_icopies (s : State) (l : Nat) : (s.clearPoison l).icopies = s.icopies := rfl
@[simp] theorem State.clearPoison_l2 (s : State) (l : Nat) : (s.clearPoison l).l2 = s.l2 := rfl
@[simp] theorem State.clearPoison_own (s : State) (l : Nat) : (s.clearPoison l).own = s.own := rfl
@[simp] theorem State.clearPoison_slayer (s : State) (l : Nat) : (s.clearPoison l).slayer = s.slayer := rfl
@[simp] theorem State.clearPoison_hnext (s : State) (l : Nat) : (s.clearPoison l).hnext = s.hnext := rfl
@[simp] theorem State.clearPoison_walkc (s : State) (l : Nat) : (s.clearPoison l).walkc = s.walkc := rfl
@[simp] theorem State.clearPoison_ats (s : State) (l : Nat) : (s.clearPoison l).ats = s.ats := rfl
@[simp] theorem State.clearPoison_atsq (s : State) (l : Nat) : (s.clearPoison l).atsq = s.atsq := rfl
@[simp] theorem State.clearPoison_toHost (s : State) (l : Nat) : (s.clearPoison l).toHost = s.toHost := rfl
@[simp] theorem State.clearPoison_hpoi (s : State) (l : Nat) : (s.clearPoison l).hpoi = s.hpoi := rfl
@[simp] theorem State.clearPoison_atsw (s : State) (l : Nat) : (s.clearPoison l).atsw = s.atsw := rfl
@[simp] theorem State.clearPoison_hot (s : State) (l : Nat) : (s.clearPoison l).hot = s.hot := rfl
@[simp] theorem State.clearPoison_vslow (s : State) (l : Nat) : (s.clearPoison l).vslow = s.vslow := rfl
@[simp] theorem State.clearPoison_remaps (s : State) (l : Nat) : (s.clearPoison l).remaps = s.remaps := rfl
@[simp] theorem State.clearPoison_trained (s : State) (l : Nat) : (s.clearPoison l).trained = s.trained := rfl
@[simp] theorem State.clearPoison_retrain (s : State) (l : Nat) : (s.clearPoison l).retrain = s.retrain := rfl
@[simp] theorem State.clearPoison_retries (s : State) (l : Nat) : (s.clearPoison l).retries = s.retries := rfl
@[simp] theorem State.clearPoison_sent (s : State) (l : Nat) : (s.clearPoison l).sent = s.sent := rfl
@[simp] theorem State.clearPoison_cut (s : State) (l : Nat) : (s.clearPoison l).cut = s.cut := rfl
@[simp] theorem State.clearPoison_agentNo (s : State) (l : Nat) : (s.clearPoison l).agentNo = s.agentNo := rfl
@[simp] theorem State.clearPoison_agentRun (s : State) (l : Nat) : (s.clearPoison l).agentRun = s.agentRun := rfl
@[simp] theorem State.clearPoison_lag (s : State) (l : Nat) : (s.clearPoison l).lag = s.lag := rfl
@[simp] theorem State.clearPoison_hits (s : State) (l : Nat) : (s.clearPoison l).hits = s.hits := rfl
@[simp] theorem State.clearPoison_inbound (s : State) (l : Nat) : (s.clearPoison l).inbound = s.inbound := rfl
@[simp] theorem State.clearPoison_epoch (s : State) (l : Nat) : (s.clearPoison l).epoch = s.epoch := rfl
@[simp] theorem State.clearPoison_since (s : State) (l : Nat) : (s.clearPoison l).since = s.since := rfl
@[simp] theorem State.clearPoison_hactive (s : State) (l : Nat) : (s.clearPoison l).hactive = s.hactive := rfl
@[simp] theorem State.clearPoison_csr (s : State) (l : Nat) : (s.clearPoison l).csr = s.csr := rfl
@[simp] theorem State.clearPoison_tlb (s : State) (l : Nat) : (s.clearPoison l).tlb = s.tlb := rfl
@[simp] theorem State.clearPoison_ptc (s : State) (l : Nat) : (s.clearPoison l).ptc = s.ptc := rfl
@[simp] theorem State.clearPoison_refetch (s : State) (l : Nat) : (s.clearPoison l).refetch = s.refetch := rfl
@[simp] theorem State.clearPoison_fops (s : State) (l : Nat) : (s.clearPoison l).fops = s.fops := rfl
@[simp] theorem State.clearPoison_served (s : State) (l : Nat) : (s.clearPoison l).served = s.served := rfl
@[simp] theorem State.clearPoison_gangs (s : State) (l : Nat) : (s.clearPoison l).gangs = s.gangs := rfl
@[simp] theorem State.clearPoison_colls (s : State) (l : Nat) : (s.clearPoison l).colls = s.colls := rfl
@[simp] theorem State.clearPoison_sqq (s : State) (l : Nat) : (s.clearPoison l).sqq = s.sqq := rfl
@[simp] theorem State.clearPoison_pipes (s : State) (l : Nat) : (s.clearPoison l).pipes = s.pipes := rfl
@[simp] theorem State.clearPoison_placing (s : State) (l : Nat) : (s.clearPoison l).placing = s.placing := rfl
@[simp] theorem State.clearPoison_spilled (s : State) (l : Nat) : (s.clearPoison l).spilled = s.spilled := rfl
@[simp] theorem State.clearPoison_past (s : State) (l : Nat) : (s.clearPoison l).past = s.past := rfl
@[simp] theorem State.clearPoison_launches (s : State) (l : Nat) : (s.clearPoison l).launches = s.launches := rfl
@[simp] theorem State.clearPoison_pri (s : State) (l : Nat) : (s.clearPoison l).pri = s.pri := rfl
@[simp] theorem State.clearPoison_moves (s : State) (l : Nat) : (s.clearPoison l).moves = s.moves := rfl
@[simp] theorem State.clearPoison_brels (s : State) (l : Nat) : (s.clearPoison l).brels = s.brels := rfl
@[simp] theorem State.clearPoison_errSeq (s : State) (l : Nat) : (s.clearPoison l).errSeq = s.errSeq := rfl
@[simp] theorem State.clearPoison_fnSeq (s : State) (l : Nat) : (s.clearPoison l).fnSeq = s.fnSeq := rfl
@[simp] theorem State.clearPoison_hist (s : State) (l : Nat) : (s.clearPoison l).hist = s.hist := rfl
@[simp] theorem State.clearPoison_msix (s : State) (l : Nat) : (s.clearPoison l).msix = s.msix := rfl
@[simp] theorem State.clearPoison_msixMask (s : State) (l : Nat) : (s.clearPoison l).msixMask = s.msixMask := rfl
@[simp] theorem State.clearPoison_msixPend (s : State) (l : Nat) : (s.clearPoison l).msixPend = s.msixPend := rfl
@[simp] theorem State.clearPoison_hostOut (s : State) (l : Nat) : (s.clearPoison l).hostOut = s.hostOut := rfl
@[simp] theorem State.clearPoison_fenced (s : State) (l : Nat) : (s.clearPoison l).fenced = s.fenced := rfl
@[simp] theorem State.clearPoison_stretch (s : State) (l : Nat) : (s.clearPoison l).stretch = s.stretch := rfl
@[simp] theorem State.clearPoison_cool (s : State) (l : Nat) : (s.clearPoison l).cool = s.cool := rfl
@[simp] theorem State.clearPoison_bootEnd (s : State) (l : Nat) : (s.clearPoison l).bootEnd = s.bootEnd := rfl
@[simp] theorem State.clearPoison_cold (s : State) (l : Nat) : (s.clearPoison l).cold = s.cold := rfl
@[simp] theorem State.clearPoison_resets (s : State) (l : Nat) : (s.clearPoison l).resets = s.resets := rfl
@[simp] theorem State.clearPoison_cyc (s : State) (l : Nat) : (s.clearPoison l).cyc = s.cyc := rfl
@[simp] theorem State.clearPoison_dsp (s : State) (l : Nat) : (s.clearPoison l).dsp = s.dsp := rfl
@[simp] theorem State.clearPoison_ev (s : State) (l : Nat) : (s.clearPoison l).ev = s.ev := rfl
@[simp] theorem State.clearPoison_agenda (s : State) (l : Nat) : (s.clearPoison l).agenda = s.agenda := rfl
@[simp] theorem State.clearPoison_sched (s : State) (l : Nat) : (s.clearPoison l).sched = s.sched := rfl
@[simp] theorem State.clearPoison_free (s : State) (l : Nat) : (s.clearPoison l).free = s.free := rfl
@[simp] theorem State.clearPoison_uid (s : State) (l : Nat) : (s.clearPoison l).uid = s.uid := rfl

/-! ## setPlot -/

@[simp] theorem State.setPlot_here (s : State) (n : Nat) (w : Word) : (s.setPlot n w).here = s.here := rfl
@[simp] theorem State.setPlot_ctx (s : State) (n : Nat) (w : Word) : (s.setPlot n w).ctx = s.ctx := rfl
@[simp] theorem State.setPlot_ctxs (s : State) (n : Nat) (w : Word) : (s.setPlot n w).ctxs = s.ctxs := rfl
@[simp] theorem State.setPlot_core (s : State) (n : Nat) (w : Word) : (s.setPlot n w).core = s.core := rfl
@[simp] theorem State.setPlot_cores (s : State) (n : Nat) (w : Word) : (s.setPlot n w).cores = s.cores := rfl
@[simp] theorem State.setPlot_mem (s : State) (n : Nat) (w : Word) : (s.setPlot n w).mem = s.mem := rfl
@[simp] theorem State.setPlot_poison (s : State) (n : Nat) (w : Word) : (s.setPlot n w).poison = s.poison := rfl
@[simp] theorem State.setPlot_badcrc (s : State) (n : Nat) (w : Word) : (s.setPlot n w).badcrc = s.badcrc := rfl
@[simp] theorem State.setPlot_dirty (s : State) (n : Nat) (w : Word) : (s.setPlot n w).dirty = s.dirty := rfl
@[simp] theorem State.setPlot_sdirty (s : State) (n : Nat) (w : Word) : (s.setPlot n w).sdirty = s.sdirty := rfl
@[simp] theorem State.setPlot_copies (s : State) (n : Nat) (w : Word) : (s.setPlot n w).copies = s.copies := rfl
@[simp] theorem State.setPlot_inval (s : State) (n : Nat) (w : Word) : (s.setPlot n w).inval = s.inval := rfl
@[simp] theorem State.setPlot_records (s : State) (n : Nat) (w : Word) : (s.setPlot n w).records = s.records := rfl
@[simp] theorem State.setPlot_sold (s : State) (n : Nat) (w : Word) : (s.setPlot n w).sold = s.sold := rfl
@[simp] theorem State.setPlot_icopies (s : State) (n : Nat) (w : Word) : (s.setPlot n w).icopies = s.icopies := rfl
@[simp] theorem State.setPlot_l2 (s : State) (n : Nat) (w : Word) : (s.setPlot n w).l2 = s.l2 := rfl
@[simp] theorem State.setPlot_own (s : State) (n : Nat) (w : Word) : (s.setPlot n w).own = s.own := rfl
@[simp] theorem State.setPlot_slayer (s : State) (n : Nat) (w : Word) : (s.setPlot n w).slayer = s.slayer := rfl
@[simp] theorem State.setPlot_hnext (s : State) (n : Nat) (w : Word) : (s.setPlot n w).hnext = s.hnext := rfl
@[simp] theorem State.setPlot_walkc (s : State) (n : Nat) (w : Word) : (s.setPlot n w).walkc = s.walkc := rfl
@[simp] theorem State.setPlot_ats (s : State) (n : Nat) (w : Word) : (s.setPlot n w).ats = s.ats := rfl
@[simp] theorem State.setPlot_atsq (s : State) (n : Nat) (w : Word) : (s.setPlot n w).atsq = s.atsq := rfl
@[simp] theorem State.setPlot_toHost (s : State) (n : Nat) (w : Word) : (s.setPlot n w).toHost = s.toHost := rfl
@[simp] theorem State.setPlot_hpoi (s : State) (n : Nat) (w : Word) : (s.setPlot n w).hpoi = s.hpoi := rfl
@[simp] theorem State.setPlot_atsw (s : State) (n : Nat) (w : Word) : (s.setPlot n w).atsw = s.atsw := rfl
@[simp] theorem State.setPlot_hot (s : State) (n : Nat) (w : Word) : (s.setPlot n w).hot = s.hot := rfl
@[simp] theorem State.setPlot_vslow (s : State) (n : Nat) (w : Word) : (s.setPlot n w).vslow = s.vslow := rfl
@[simp] theorem State.setPlot_remaps (s : State) (n : Nat) (w : Word) : (s.setPlot n w).remaps = s.remaps := rfl
@[simp] theorem State.setPlot_trained (s : State) (n : Nat) (w : Word) : (s.setPlot n w).trained = s.trained := rfl
@[simp] theorem State.setPlot_retrain (s : State) (n : Nat) (w : Word) : (s.setPlot n w).retrain = s.retrain := rfl
@[simp] theorem State.setPlot_retries (s : State) (n : Nat) (w : Word) : (s.setPlot n w).retries = s.retries := rfl
@[simp] theorem State.setPlot_sent (s : State) (n : Nat) (w : Word) : (s.setPlot n w).sent = s.sent := rfl
@[simp] theorem State.setPlot_cut (s : State) (n : Nat) (w : Word) : (s.setPlot n w).cut = s.cut := rfl
@[simp] theorem State.setPlot_agentNo (s : State) (n : Nat) (w : Word) : (s.setPlot n w).agentNo = s.agentNo := rfl
@[simp] theorem State.setPlot_agentRun (s : State) (n : Nat) (w : Word) : (s.setPlot n w).agentRun = s.agentRun := rfl
@[simp] theorem State.setPlot_lag (s : State) (n : Nat) (w : Word) : (s.setPlot n w).lag = s.lag := rfl
@[simp] theorem State.setPlot_hits (s : State) (n : Nat) (w : Word) : (s.setPlot n w).hits = s.hits := rfl
@[simp] theorem State.setPlot_inbound (s : State) (n : Nat) (w : Word) : (s.setPlot n w).inbound = s.inbound := rfl
@[simp] theorem State.setPlot_epoch (s : State) (n : Nat) (w : Word) : (s.setPlot n w).epoch = s.epoch := rfl
@[simp] theorem State.setPlot_since (s : State) (n : Nat) (w : Word) : (s.setPlot n w).since = s.since := rfl
@[simp] theorem State.setPlot_hactive (s : State) (n : Nat) (w : Word) : (s.setPlot n w).hactive = s.hactive := rfl
@[simp] theorem State.setPlot_csr (s : State) (n : Nat) (w : Word) : (s.setPlot n w).csr = sparseSet csrReset s.csr (oFPLST (plotTower n) (n % 256)) w := rfl
@[simp] theorem State.setPlot_tlb (s : State) (n : Nat) (w : Word) : (s.setPlot n w).tlb = s.tlb := rfl
@[simp] theorem State.setPlot_ptc (s : State) (n : Nat) (w : Word) : (s.setPlot n w).ptc = s.ptc := rfl
@[simp] theorem State.setPlot_refetch (s : State) (n : Nat) (w : Word) : (s.setPlot n w).refetch = s.refetch := rfl
@[simp] theorem State.setPlot_fops (s : State) (n : Nat) (w : Word) : (s.setPlot n w).fops = s.fops := rfl
@[simp] theorem State.setPlot_served (s : State) (n : Nat) (w : Word) : (s.setPlot n w).served = s.served := rfl
@[simp] theorem State.setPlot_gangs (s : State) (n : Nat) (w : Word) : (s.setPlot n w).gangs = s.gangs := rfl
@[simp] theorem State.setPlot_colls (s : State) (n : Nat) (w : Word) : (s.setPlot n w).colls = s.colls := rfl
@[simp] theorem State.setPlot_sqq (s : State) (n : Nat) (w : Word) : (s.setPlot n w).sqq = s.sqq := rfl
@[simp] theorem State.setPlot_pipes (s : State) (n : Nat) (w : Word) : (s.setPlot n w).pipes = s.pipes := rfl
@[simp] theorem State.setPlot_placing (s : State) (n : Nat) (w : Word) : (s.setPlot n w).placing = s.placing := rfl
@[simp] theorem State.setPlot_spilled (s : State) (n : Nat) (w : Word) : (s.setPlot n w).spilled = s.spilled := rfl
@[simp] theorem State.setPlot_past (s : State) (n : Nat) (w : Word) : (s.setPlot n w).past = s.past := rfl
@[simp] theorem State.setPlot_launches (s : State) (n : Nat) (w : Word) : (s.setPlot n w).launches = s.launches := rfl
@[simp] theorem State.setPlot_pri (s : State) (n : Nat) (w : Word) : (s.setPlot n w).pri = s.pri := rfl
@[simp] theorem State.setPlot_moves (s : State) (n : Nat) (w : Word) : (s.setPlot n w).moves = s.moves := rfl
@[simp] theorem State.setPlot_brels (s : State) (n : Nat) (w : Word) : (s.setPlot n w).brels = s.brels := rfl
@[simp] theorem State.setPlot_errSeq (s : State) (n : Nat) (w : Word) : (s.setPlot n w).errSeq = s.errSeq := rfl
@[simp] theorem State.setPlot_fnSeq (s : State) (n : Nat) (w : Word) : (s.setPlot n w).fnSeq = s.fnSeq := rfl
@[simp] theorem State.setPlot_hist (s : State) (n : Nat) (w : Word) : (s.setPlot n w).hist = s.hist := rfl
@[simp] theorem State.setPlot_msix (s : State) (n : Nat) (w : Word) : (s.setPlot n w).msix = s.msix := rfl
@[simp] theorem State.setPlot_msixMask (s : State) (n : Nat) (w : Word) : (s.setPlot n w).msixMask = s.msixMask := rfl
@[simp] theorem State.setPlot_msixPend (s : State) (n : Nat) (w : Word) : (s.setPlot n w).msixPend = s.msixPend := rfl
@[simp] theorem State.setPlot_hostOut (s : State) (n : Nat) (w : Word) : (s.setPlot n w).hostOut = s.hostOut := rfl
@[simp] theorem State.setPlot_fenced (s : State) (n : Nat) (w : Word) : (s.setPlot n w).fenced = s.fenced := rfl
@[simp] theorem State.setPlot_stretch (s : State) (n : Nat) (w : Word) : (s.setPlot n w).stretch = s.stretch := rfl
@[simp] theorem State.setPlot_cool (s : State) (n : Nat) (w : Word) : (s.setPlot n w).cool = s.cool := rfl
@[simp] theorem State.setPlot_bootEnd (s : State) (n : Nat) (w : Word) : (s.setPlot n w).bootEnd = s.bootEnd := rfl
@[simp] theorem State.setPlot_cold (s : State) (n : Nat) (w : Word) : (s.setPlot n w).cold = s.cold := rfl
@[simp] theorem State.setPlot_resets (s : State) (n : Nat) (w : Word) : (s.setPlot n w).resets = s.resets := rfl
@[simp] theorem State.setPlot_cyc (s : State) (n : Nat) (w : Word) : (s.setPlot n w).cyc = s.cyc := rfl
@[simp] theorem State.setPlot_dsp (s : State) (n : Nat) (w : Word) : (s.setPlot n w).dsp = s.dsp := rfl
@[simp] theorem State.setPlot_ev (s : State) (n : Nat) (w : Word) : (s.setPlot n w).ev = s.ev := rfl
@[simp] theorem State.setPlot_agenda (s : State) (n : Nat) (w : Word) : (s.setPlot n w).agenda = s.agenda := rfl
@[simp] theorem State.setPlot_sched (s : State) (n : Nat) (w : Word) : (s.setPlot n w).sched = s.sched := rfl
@[simp] theorem State.setPlot_free (s : State) (n : Nat) (w : Word) : (s.setPlot n w).free = s.free := rfl
@[simp] theorem State.setPlot_uid (s : State) (n : Nat) (w : Word) : (s.setPlot n w).uid = s.uid := rfl

/-! ## setLayer -/

@[simp] theorem State.setLayer_here (s : State) (T n : Nat) : (s.setLayer T n).here = s.here := rfl
@[simp] theorem State.setLayer_ctx (s : State) (T n : Nat) : (s.setLayer T n).ctx = s.ctx := rfl
@[simp] theorem State.setLayer_ctxs (s : State) (T n : Nat) : (s.setLayer T n).ctxs = s.ctxs := rfl
@[simp] theorem State.setLayer_core (s : State) (T n : Nat) : (s.setLayer T n).core = s.core := rfl
@[simp] theorem State.setLayer_cores (s : State) (T n : Nat) : (s.setLayer T n).cores = s.cores := rfl
@[simp] theorem State.setLayer_mem (s : State) (T n : Nat) : (s.setLayer T n).mem = s.mem := rfl
@[simp] theorem State.setLayer_poison (s : State) (T n : Nat) : (s.setLayer T n).poison = s.poison := rfl
@[simp] theorem State.setLayer_badcrc (s : State) (T n : Nat) : (s.setLayer T n).badcrc = s.badcrc := rfl
@[simp] theorem State.setLayer_dirty (s : State) (T n : Nat) : (s.setLayer T n).dirty = s.dirty := rfl
@[simp] theorem State.setLayer_sdirty (s : State) (T n : Nat) : (s.setLayer T n).sdirty = s.sdirty := rfl
@[simp] theorem State.setLayer_copies (s : State) (T n : Nat) : (s.setLayer T n).copies = s.copies := rfl
@[simp] theorem State.setLayer_inval (s : State) (T n : Nat) : (s.setLayer T n).inval = s.inval := rfl
@[simp] theorem State.setLayer_records (s : State) (T n : Nat) : (s.setLayer T n).records = s.records := rfl
@[simp] theorem State.setLayer_sold (s : State) (T n : Nat) : (s.setLayer T n).sold = s.sold := rfl
@[simp] theorem State.setLayer_icopies (s : State) (T n : Nat) : (s.setLayer T n).icopies = s.icopies := rfl
@[simp] theorem State.setLayer_l2 (s : State) (T n : Nat) : (s.setLayer T n).l2 = s.l2 := rfl
@[simp] theorem State.setLayer_own (s : State) (T n : Nat) : (s.setLayer T n).own = s.own := rfl
@[simp] theorem State.setLayer_slayer (s : State) (T n : Nat) : (s.setLayer T n).slayer = s.slayer := rfl
@[simp] theorem State.setLayer_hnext (s : State) (T n : Nat) : (s.setLayer T n).hnext = s.hnext := rfl
@[simp] theorem State.setLayer_walkc (s : State) (T n : Nat) : (s.setLayer T n).walkc = s.walkc := rfl
@[simp] theorem State.setLayer_ats (s : State) (T n : Nat) : (s.setLayer T n).ats = s.ats := rfl
@[simp] theorem State.setLayer_atsq (s : State) (T n : Nat) : (s.setLayer T n).atsq = s.atsq := rfl
@[simp] theorem State.setLayer_toHost (s : State) (T n : Nat) : (s.setLayer T n).toHost = s.toHost := rfl
@[simp] theorem State.setLayer_hpoi (s : State) (T n : Nat) : (s.setLayer T n).hpoi = s.hpoi := rfl
@[simp] theorem State.setLayer_atsw (s : State) (T n : Nat) : (s.setLayer T n).atsw = s.atsw := rfl
@[simp] theorem State.setLayer_hot (s : State) (T n : Nat) : (s.setLayer T n).hot = s.hot := rfl
@[simp] theorem State.setLayer_vslow (s : State) (T n : Nat) : (s.setLayer T n).vslow = s.vslow := rfl
@[simp] theorem State.setLayer_remaps (s : State) (T n : Nat) : (s.setLayer T n).remaps = s.remaps := rfl
@[simp] theorem State.setLayer_trained (s : State) (T n : Nat) : (s.setLayer T n).trained = s.trained := rfl
@[simp] theorem State.setLayer_retrain (s : State) (T n : Nat) : (s.setLayer T n).retrain = s.retrain := rfl
@[simp] theorem State.setLayer_retries (s : State) (T n : Nat) : (s.setLayer T n).retries = s.retries := rfl
@[simp] theorem State.setLayer_sent (s : State) (T n : Nat) : (s.setLayer T n).sent = s.sent := rfl
@[simp] theorem State.setLayer_cut (s : State) (T n : Nat) : (s.setLayer T n).cut = s.cut := rfl
@[simp] theorem State.setLayer_agentNo (s : State) (T n : Nat) : (s.setLayer T n).agentNo = s.agentNo := rfl
@[simp] theorem State.setLayer_agentRun (s : State) (T n : Nat) : (s.setLayer T n).agentRun = s.agentRun := rfl
@[simp] theorem State.setLayer_lag (s : State) (T n : Nat) : (s.setLayer T n).lag = s.lag := rfl
@[simp] theorem State.setLayer_hits (s : State) (T n : Nat) : (s.setLayer T n).hits = s.hits := rfl
@[simp] theorem State.setLayer_inbound (s : State) (T n : Nat) : (s.setLayer T n).inbound = s.inbound := rfl
@[simp] theorem State.setLayer_epoch (s : State) (T n : Nat) : (s.setLayer T n).epoch = s.epoch := rfl
@[simp] theorem State.setLayer_since (s : State) (T n : Nat) : (s.setLayer T n).since = s.since := rfl
@[simp] theorem State.setLayer_hactive (s : State) (T n : Nat) : (s.setLayer T n).hactive = s.hactive := rfl
@[simp] theorem State.setLayer_csr (s : State) (T n : Nat) : (s.setLayer T n).csr = sparseSet csrReset s.csr (oSLEMST T) (BitVec.ofNat 64 n) := rfl
@[simp] theorem State.setLayer_tlb (s : State) (T n : Nat) : (s.setLayer T n).tlb = s.tlb := rfl
@[simp] theorem State.setLayer_ptc (s : State) (T n : Nat) : (s.setLayer T n).ptc = s.ptc := rfl
@[simp] theorem State.setLayer_refetch (s : State) (T n : Nat) : (s.setLayer T n).refetch = s.refetch := rfl
@[simp] theorem State.setLayer_fops (s : State) (T n : Nat) : (s.setLayer T n).fops = s.fops := rfl
@[simp] theorem State.setLayer_served (s : State) (T n : Nat) : (s.setLayer T n).served = s.served := rfl
@[simp] theorem State.setLayer_gangs (s : State) (T n : Nat) : (s.setLayer T n).gangs = s.gangs := rfl
@[simp] theorem State.setLayer_colls (s : State) (T n : Nat) : (s.setLayer T n).colls = s.colls := rfl
@[simp] theorem State.setLayer_sqq (s : State) (T n : Nat) : (s.setLayer T n).sqq = s.sqq := rfl
@[simp] theorem State.setLayer_pipes (s : State) (T n : Nat) : (s.setLayer T n).pipes = s.pipes := rfl
@[simp] theorem State.setLayer_placing (s : State) (T n : Nat) : (s.setLayer T n).placing = s.placing := rfl
@[simp] theorem State.setLayer_spilled (s : State) (T n : Nat) : (s.setLayer T n).spilled = s.spilled := rfl
@[simp] theorem State.setLayer_past (s : State) (T n : Nat) : (s.setLayer T n).past = s.past := rfl
@[simp] theorem State.setLayer_launches (s : State) (T n : Nat) : (s.setLayer T n).launches = s.launches := rfl
@[simp] theorem State.setLayer_pri (s : State) (T n : Nat) : (s.setLayer T n).pri = s.pri := rfl
@[simp] theorem State.setLayer_moves (s : State) (T n : Nat) : (s.setLayer T n).moves = s.moves := rfl
@[simp] theorem State.setLayer_brels (s : State) (T n : Nat) : (s.setLayer T n).brels = s.brels := rfl
@[simp] theorem State.setLayer_errSeq (s : State) (T n : Nat) : (s.setLayer T n).errSeq = s.errSeq := rfl
@[simp] theorem State.setLayer_fnSeq (s : State) (T n : Nat) : (s.setLayer T n).fnSeq = s.fnSeq := rfl
@[simp] theorem State.setLayer_hist (s : State) (T n : Nat) : (s.setLayer T n).hist = s.hist := rfl
@[simp] theorem State.setLayer_msix (s : State) (T n : Nat) : (s.setLayer T n).msix = s.msix := rfl
@[simp] theorem State.setLayer_msixMask (s : State) (T n : Nat) : (s.setLayer T n).msixMask = s.msixMask := rfl
@[simp] theorem State.setLayer_msixPend (s : State) (T n : Nat) : (s.setLayer T n).msixPend = s.msixPend := rfl
@[simp] theorem State.setLayer_hostOut (s : State) (T n : Nat) : (s.setLayer T n).hostOut = s.hostOut := rfl
@[simp] theorem State.setLayer_fenced (s : State) (T n : Nat) : (s.setLayer T n).fenced = s.fenced := rfl
@[simp] theorem State.setLayer_stretch (s : State) (T n : Nat) : (s.setLayer T n).stretch = s.stretch := rfl
@[simp] theorem State.setLayer_cool (s : State) (T n : Nat) : (s.setLayer T n).cool = s.cool := rfl
@[simp] theorem State.setLayer_bootEnd (s : State) (T n : Nat) : (s.setLayer T n).bootEnd = s.bootEnd := rfl
@[simp] theorem State.setLayer_cold (s : State) (T n : Nat) : (s.setLayer T n).cold = s.cold := rfl
@[simp] theorem State.setLayer_resets (s : State) (T n : Nat) : (s.setLayer T n).resets = s.resets := rfl
@[simp] theorem State.setLayer_cyc (s : State) (T n : Nat) : (s.setLayer T n).cyc = s.cyc := rfl
@[simp] theorem State.setLayer_dsp (s : State) (T n : Nat) : (s.setLayer T n).dsp = s.dsp := rfl
@[simp] theorem State.setLayer_ev (s : State) (T n : Nat) : (s.setLayer T n).ev = s.ev := rfl
@[simp] theorem State.setLayer_agenda (s : State) (T n : Nat) : (s.setLayer T n).agenda = s.agenda := rfl
@[simp] theorem State.setLayer_sched (s : State) (T n : Nat) : (s.setLayer T n).sched = s.sched := rfl
@[simp] theorem State.setLayer_free (s : State) (T n : Nat) : (s.setLayer T n).free = s.free := rfl
@[simp] theorem State.setLayer_uid (s : State) (T n : Nat) : (s.setLayer T n).uid = s.uid := rfl

/-! ## block -/

@[simp] theorem State.block_here (s : State) : s.block.here = s.here := rfl
@[simp] theorem State.block_core (s : State) : s.block.core = s.core := rfl
@[simp] theorem State.block_cores (s : State) : s.block.cores = s.cores := rfl
@[simp] theorem State.block_mem (s : State) : s.block.mem = s.mem := rfl
@[simp] theorem State.block_poison (s : State) : s.block.poison = s.poison := rfl
@[simp] theorem State.block_badcrc (s : State) : s.block.badcrc = s.badcrc := rfl
@[simp] theorem State.block_dirty (s : State) : s.block.dirty = s.dirty := rfl
@[simp] theorem State.block_sdirty (s : State) : s.block.sdirty = s.sdirty := rfl
@[simp] theorem State.block_copies (s : State) : s.block.copies = s.copies := rfl
@[simp] theorem State.block_inval (s : State) : s.block.inval = s.inval := rfl
@[simp] theorem State.block_records (s : State) : s.block.records = s.records := rfl
@[simp] theorem State.block_sold (s : State) : s.block.sold = s.sold := rfl
@[simp] theorem State.block_icopies (s : State) : s.block.icopies = s.icopies := rfl
@[simp] theorem State.block_l2 (s : State) : s.block.l2 = s.l2 := rfl
@[simp] theorem State.block_own (s : State) : s.block.own = s.own := rfl
@[simp] theorem State.block_slayer (s : State) : s.block.slayer = s.slayer := rfl
@[simp] theorem State.block_hnext (s : State) : s.block.hnext = s.hnext := rfl
@[simp] theorem State.block_walkc (s : State) : s.block.walkc = s.walkc := rfl
@[simp] theorem State.block_ats (s : State) : s.block.ats = s.ats := rfl
@[simp] theorem State.block_atsq (s : State) : s.block.atsq = s.atsq := rfl
@[simp] theorem State.block_toHost (s : State) : s.block.toHost = s.toHost := rfl
@[simp] theorem State.block_hpoi (s : State) : s.block.hpoi = s.hpoi := rfl
@[simp] theorem State.block_atsw (s : State) : s.block.atsw = s.atsw := rfl
@[simp] theorem State.block_hot (s : State) : s.block.hot = s.hot := rfl
@[simp] theorem State.block_vslow (s : State) : s.block.vslow = s.vslow := rfl
@[simp] theorem State.block_remaps (s : State) : s.block.remaps = s.remaps := rfl
@[simp] theorem State.block_trained (s : State) : s.block.trained = s.trained := rfl
@[simp] theorem State.block_retrain (s : State) : s.block.retrain = s.retrain := rfl
@[simp] theorem State.block_retries (s : State) : s.block.retries = s.retries := rfl
@[simp] theorem State.block_sent (s : State) : s.block.sent = s.sent := rfl
@[simp] theorem State.block_cut (s : State) : s.block.cut = s.cut := rfl
@[simp] theorem State.block_agentNo (s : State) : s.block.agentNo = s.agentNo := rfl
@[simp] theorem State.block_agentRun (s : State) : s.block.agentRun = s.agentRun := rfl
@[simp] theorem State.block_lag (s : State) : s.block.lag = s.lag := rfl
@[simp] theorem State.block_hits (s : State) : s.block.hits = s.hits := rfl
@[simp] theorem State.block_inbound (s : State) : s.block.inbound = s.inbound := rfl
@[simp] theorem State.block_epoch (s : State) : s.block.epoch = s.epoch := rfl
@[simp] theorem State.block_since (s : State) : s.block.since = s.since := rfl
@[simp] theorem State.block_hactive (s : State) : s.block.hactive = s.hactive := rfl
@[simp] theorem State.block_csr (s : State) : s.block.csr = s.csr := rfl
@[simp] theorem State.block_tlb (s : State) : s.block.tlb = s.tlb := rfl
@[simp] theorem State.block_ptc (s : State) : s.block.ptc = s.ptc := rfl
@[simp] theorem State.block_refetch (s : State) : s.block.refetch = s.refetch := rfl
@[simp] theorem State.block_fops (s : State) : s.block.fops = s.fops := rfl
@[simp] theorem State.block_served (s : State) : s.block.served = s.served := rfl
@[simp] theorem State.block_gangs (s : State) : s.block.gangs = s.gangs := rfl
@[simp] theorem State.block_colls (s : State) : s.block.colls = s.colls := rfl
@[simp] theorem State.block_sqq (s : State) : s.block.sqq = s.sqq := rfl
@[simp] theorem State.block_pipes (s : State) : s.block.pipes = s.pipes := rfl
@[simp] theorem State.block_placing (s : State) : s.block.placing = s.placing := rfl
@[simp] theorem State.block_spilled (s : State) : s.block.spilled = s.spilled := rfl
@[simp] theorem State.block_past (s : State) : s.block.past = s.past := rfl
@[simp] theorem State.block_launches (s : State) : s.block.launches = s.launches := rfl
@[simp] theorem State.block_pri (s : State) : s.block.pri = s.pri := rfl
@[simp] theorem State.block_moves (s : State) : s.block.moves = s.moves := rfl
@[simp] theorem State.block_brels (s : State) : s.block.brels = s.brels := rfl
@[simp] theorem State.block_errSeq (s : State) : s.block.errSeq = s.errSeq := rfl
@[simp] theorem State.block_fnSeq (s : State) : s.block.fnSeq = s.fnSeq := rfl
@[simp] theorem State.block_hist (s : State) : s.block.hist = s.hist := rfl
@[simp] theorem State.block_msix (s : State) : s.block.msix = s.msix := rfl
@[simp] theorem State.block_msixMask (s : State) : s.block.msixMask = s.msixMask := rfl
@[simp] theorem State.block_msixPend (s : State) : s.block.msixPend = s.msixPend := rfl
@[simp] theorem State.block_hostOut (s : State) : s.block.hostOut = s.hostOut := rfl
@[simp] theorem State.block_fenced (s : State) : s.block.fenced = s.fenced := rfl
@[simp] theorem State.block_stretch (s : State) : s.block.stretch = s.stretch := rfl
@[simp] theorem State.block_cool (s : State) : s.block.cool = s.cool := rfl
@[simp] theorem State.block_bootEnd (s : State) : s.block.bootEnd = s.bootEnd := rfl
@[simp] theorem State.block_cold (s : State) : s.block.cold = s.cold := rfl
@[simp] theorem State.block_resets (s : State) : s.block.resets = s.resets := rfl
@[simp] theorem State.block_cyc (s : State) : s.block.cyc = s.cyc := rfl
@[simp] theorem State.block_dsp (s : State) : s.block.dsp = s.dsp := rfl
@[simp] theorem State.block_ev (s : State) : s.block.ev = s.ev := rfl
@[simp] theorem State.block_agenda (s : State) : s.block.agenda = s.agenda := rfl
@[simp] theorem State.block_sched (s : State) : s.block.sched = s.sched := rfl
@[simp] theorem State.block_free (s : State) : s.block.free = s.free := rfl
@[simp] theorem State.block_uid (s : State) : s.block.uid = s.uid := rfl

/-! ## freeze -/

@[simp] theorem State.freeze_here (s : State) : s.freeze.here = s.here := rfl
@[simp] theorem State.freeze_core (s : State) : s.freeze.core = s.core := rfl
@[simp] theorem State.freeze_cores (s : State) : s.freeze.cores = s.cores := rfl
@[simp] theorem State.freeze_mem (s : State) : s.freeze.mem = s.mem := rfl
@[simp] theorem State.freeze_poison (s : State) : s.freeze.poison = s.poison := rfl
@[simp] theorem State.freeze_badcrc (s : State) : s.freeze.badcrc = s.badcrc := rfl
@[simp] theorem State.freeze_dirty (s : State) : s.freeze.dirty = s.dirty := rfl
@[simp] theorem State.freeze_sdirty (s : State) : s.freeze.sdirty = s.sdirty := rfl
@[simp] theorem State.freeze_copies (s : State) : s.freeze.copies = s.copies := rfl
@[simp] theorem State.freeze_inval (s : State) : s.freeze.inval = s.inval := rfl
@[simp] theorem State.freeze_records (s : State) : s.freeze.records = s.records := rfl
@[simp] theorem State.freeze_sold (s : State) : s.freeze.sold = s.sold := rfl
@[simp] theorem State.freeze_icopies (s : State) : s.freeze.icopies = s.icopies := rfl
@[simp] theorem State.freeze_l2 (s : State) : s.freeze.l2 = s.l2 := rfl
@[simp] theorem State.freeze_own (s : State) : s.freeze.own = s.own := rfl
@[simp] theorem State.freeze_slayer (s : State) : s.freeze.slayer = s.slayer := rfl
@[simp] theorem State.freeze_hnext (s : State) : s.freeze.hnext = s.hnext := rfl
@[simp] theorem State.freeze_walkc (s : State) : s.freeze.walkc = s.walkc := rfl
@[simp] theorem State.freeze_ats (s : State) : s.freeze.ats = s.ats := rfl
@[simp] theorem State.freeze_atsq (s : State) : s.freeze.atsq = s.atsq := rfl
@[simp] theorem State.freeze_toHost (s : State) : s.freeze.toHost = s.toHost := rfl
@[simp] theorem State.freeze_hpoi (s : State) : s.freeze.hpoi = s.hpoi := rfl
@[simp] theorem State.freeze_atsw (s : State) : s.freeze.atsw = s.atsw := rfl
@[simp] theorem State.freeze_hot (s : State) : s.freeze.hot = s.hot := rfl
@[simp] theorem State.freeze_vslow (s : State) : s.freeze.vslow = s.vslow := rfl
@[simp] theorem State.freeze_remaps (s : State) : s.freeze.remaps = s.remaps := rfl
@[simp] theorem State.freeze_trained (s : State) : s.freeze.trained = s.trained := rfl
@[simp] theorem State.freeze_retrain (s : State) : s.freeze.retrain = s.retrain := rfl
@[simp] theorem State.freeze_retries (s : State) : s.freeze.retries = s.retries := rfl
@[simp] theorem State.freeze_sent (s : State) : s.freeze.sent = s.sent := rfl
@[simp] theorem State.freeze_cut (s : State) : s.freeze.cut = s.cut := rfl
@[simp] theorem State.freeze_agentNo (s : State) : s.freeze.agentNo = s.agentNo := rfl
@[simp] theorem State.freeze_agentRun (s : State) : s.freeze.agentRun = s.agentRun := rfl
@[simp] theorem State.freeze_lag (s : State) : s.freeze.lag = s.lag := rfl
@[simp] theorem State.freeze_hits (s : State) : s.freeze.hits = s.hits := rfl
@[simp] theorem State.freeze_inbound (s : State) : s.freeze.inbound = s.inbound := rfl
@[simp] theorem State.freeze_epoch (s : State) : s.freeze.epoch = s.epoch := rfl
@[simp] theorem State.freeze_since (s : State) : s.freeze.since = s.since := rfl
@[simp] theorem State.freeze_hactive (s : State) : s.freeze.hactive = s.hactive := rfl
@[simp] theorem State.freeze_csr (s : State) : s.freeze.csr = s.csr := rfl
@[simp] theorem State.freeze_tlb (s : State) : s.freeze.tlb = s.tlb := rfl
@[simp] theorem State.freeze_ptc (s : State) : s.freeze.ptc = s.ptc := rfl
@[simp] theorem State.freeze_refetch (s : State) : s.freeze.refetch = s.refetch := rfl
@[simp] theorem State.freeze_fops (s : State) : s.freeze.fops = s.fops := rfl
@[simp] theorem State.freeze_served (s : State) : s.freeze.served = s.served := rfl
@[simp] theorem State.freeze_gangs (s : State) : s.freeze.gangs = s.gangs := rfl
@[simp] theorem State.freeze_colls (s : State) : s.freeze.colls = s.colls := rfl
@[simp] theorem State.freeze_sqq (s : State) : s.freeze.sqq = s.sqq := rfl
@[simp] theorem State.freeze_pipes (s : State) : s.freeze.pipes = s.pipes := rfl
@[simp] theorem State.freeze_placing (s : State) : s.freeze.placing = s.placing := rfl
@[simp] theorem State.freeze_spilled (s : State) : s.freeze.spilled = s.spilled := rfl
@[simp] theorem State.freeze_past (s : State) : s.freeze.past = s.past := rfl
@[simp] theorem State.freeze_launches (s : State) : s.freeze.launches = s.launches := rfl
@[simp] theorem State.freeze_pri (s : State) : s.freeze.pri = s.pri := rfl
@[simp] theorem State.freeze_moves (s : State) : s.freeze.moves = s.moves := rfl
@[simp] theorem State.freeze_brels (s : State) : s.freeze.brels = s.brels := rfl
@[simp] theorem State.freeze_errSeq (s : State) : s.freeze.errSeq = s.errSeq := rfl
@[simp] theorem State.freeze_fnSeq (s : State) : s.freeze.fnSeq = s.fnSeq := rfl
@[simp] theorem State.freeze_hist (s : State) : s.freeze.hist = s.hist := rfl
@[simp] theorem State.freeze_msix (s : State) : s.freeze.msix = s.msix := rfl
@[simp] theorem State.freeze_msixMask (s : State) : s.freeze.msixMask = s.msixMask := rfl
@[simp] theorem State.freeze_msixPend (s : State) : s.freeze.msixPend = s.msixPend := rfl
@[simp] theorem State.freeze_hostOut (s : State) : s.freeze.hostOut = s.hostOut := rfl
@[simp] theorem State.freeze_fenced (s : State) : s.freeze.fenced = s.fenced := rfl
@[simp] theorem State.freeze_stretch (s : State) : s.freeze.stretch = s.stretch := rfl
@[simp] theorem State.freeze_cool (s : State) : s.freeze.cool = s.cool := rfl
@[simp] theorem State.freeze_bootEnd (s : State) : s.freeze.bootEnd = s.bootEnd := rfl
@[simp] theorem State.freeze_cold (s : State) : s.freeze.cold = s.cold := rfl
@[simp] theorem State.freeze_resets (s : State) : s.freeze.resets = s.resets := rfl
@[simp] theorem State.freeze_cyc (s : State) : s.freeze.cyc = s.cyc := rfl
@[simp] theorem State.freeze_dsp (s : State) : s.freeze.dsp = s.dsp := rfl
@[simp] theorem State.freeze_ev (s : State) : s.freeze.ev = s.ev := rfl
@[simp] theorem State.freeze_agenda (s : State) : s.freeze.agenda = s.agenda := rfl
@[simp] theorem State.freeze_sched (s : State) : s.freeze.sched = s.sched := rfl
@[simp] theorem State.freeze_free (s : State) : s.freeze.free = s.free := rfl
@[simp] theorem State.freeze_uid (s : State) : s.freeze.uid = s.uid := rfl

/-! ## meet -/

@[simp] theorem State.meet_here (s : State) (src : Nat) (at' : Counted) (ctx : Option Nat) (n : Nat) : (s.meet src at' ctx n).here = s.here := rfl
@[simp] theorem State.meet_ctx (s : State) (src : Nat) (at' : Counted) (ctx : Option Nat) (n : Nat) : (s.meet src at' ctx n).ctx = s.ctx := rfl
@[simp] theorem State.meet_ctxs (s : State) (src : Nat) (at' : Counted) (ctx : Option Nat) (n : Nat) : (s.meet src at' ctx n).ctxs = s.ctxs := rfl
@[simp] theorem State.meet_core (s : State) (src : Nat) (at' : Counted) (ctx : Option Nat) (n : Nat) : (s.meet src at' ctx n).core = s.core := rfl
@[simp] theorem State.meet_cores (s : State) (src : Nat) (at' : Counted) (ctx : Option Nat) (n : Nat) : (s.meet src at' ctx n).cores = s.cores := rfl
@[simp] theorem State.meet_mem (s : State) (src : Nat) (at' : Counted) (ctx : Option Nat) (n : Nat) : (s.meet src at' ctx n).mem = s.mem := rfl
@[simp] theorem State.meet_poison (s : State) (src : Nat) (at' : Counted) (ctx : Option Nat) (n : Nat) : (s.meet src at' ctx n).poison = s.poison := rfl
@[simp] theorem State.meet_badcrc (s : State) (src : Nat) (at' : Counted) (ctx : Option Nat) (n : Nat) : (s.meet src at' ctx n).badcrc = s.badcrc := rfl
@[simp] theorem State.meet_dirty (s : State) (src : Nat) (at' : Counted) (ctx : Option Nat) (n : Nat) : (s.meet src at' ctx n).dirty = s.dirty := rfl
@[simp] theorem State.meet_sdirty (s : State) (src : Nat) (at' : Counted) (ctx : Option Nat) (n : Nat) : (s.meet src at' ctx n).sdirty = s.sdirty := rfl
@[simp] theorem State.meet_copies (s : State) (src : Nat) (at' : Counted) (ctx : Option Nat) (n : Nat) : (s.meet src at' ctx n).copies = s.copies := rfl
@[simp] theorem State.meet_inval (s : State) (src : Nat) (at' : Counted) (ctx : Option Nat) (n : Nat) : (s.meet src at' ctx n).inval = s.inval := rfl
@[simp] theorem State.meet_records (s : State) (src : Nat) (at' : Counted) (ctx : Option Nat) (n : Nat) : (s.meet src at' ctx n).records = s.records := rfl
@[simp] theorem State.meet_sold (s : State) (src : Nat) (at' : Counted) (ctx : Option Nat) (n : Nat) : (s.meet src at' ctx n).sold = s.sold := rfl
@[simp] theorem State.meet_icopies (s : State) (src : Nat) (at' : Counted) (ctx : Option Nat) (n : Nat) : (s.meet src at' ctx n).icopies = s.icopies := rfl
@[simp] theorem State.meet_l2 (s : State) (src : Nat) (at' : Counted) (ctx : Option Nat) (n : Nat) : (s.meet src at' ctx n).l2 = s.l2 := rfl
@[simp] theorem State.meet_own (s : State) (src : Nat) (at' : Counted) (ctx : Option Nat) (n : Nat) : (s.meet src at' ctx n).own = s.own := rfl
@[simp] theorem State.meet_slayer (s : State) (src : Nat) (at' : Counted) (ctx : Option Nat) (n : Nat) : (s.meet src at' ctx n).slayer = s.slayer := rfl
@[simp] theorem State.meet_hnext (s : State) (src : Nat) (at' : Counted) (ctx : Option Nat) (n : Nat) : (s.meet src at' ctx n).hnext = s.hnext := rfl
@[simp] theorem State.meet_walkc (s : State) (src : Nat) (at' : Counted) (ctx : Option Nat) (n : Nat) : (s.meet src at' ctx n).walkc = s.walkc := rfl
@[simp] theorem State.meet_ats (s : State) (src : Nat) (at' : Counted) (ctx : Option Nat) (n : Nat) : (s.meet src at' ctx n).ats = s.ats := rfl
@[simp] theorem State.meet_atsq (s : State) (src : Nat) (at' : Counted) (ctx : Option Nat) (n : Nat) : (s.meet src at' ctx n).atsq = s.atsq := rfl
@[simp] theorem State.meet_toHost (s : State) (src : Nat) (at' : Counted) (ctx : Option Nat) (n : Nat) : (s.meet src at' ctx n).toHost = s.toHost := rfl
@[simp] theorem State.meet_hpoi (s : State) (src : Nat) (at' : Counted) (ctx : Option Nat) (n : Nat) : (s.meet src at' ctx n).hpoi = s.hpoi := rfl
@[simp] theorem State.meet_atsw (s : State) (src : Nat) (at' : Counted) (ctx : Option Nat) (n : Nat) : (s.meet src at' ctx n).atsw = s.atsw := rfl
@[simp] theorem State.meet_hot (s : State) (src : Nat) (at' : Counted) (ctx : Option Nat) (n : Nat) : (s.meet src at' ctx n).hot = s.hot := rfl
@[simp] theorem State.meet_vslow (s : State) (src : Nat) (at' : Counted) (ctx : Option Nat) (n : Nat) : (s.meet src at' ctx n).vslow = s.vslow := rfl
@[simp] theorem State.meet_remaps (s : State) (src : Nat) (at' : Counted) (ctx : Option Nat) (n : Nat) : (s.meet src at' ctx n).remaps = s.remaps := rfl
@[simp] theorem State.meet_trained (s : State) (src : Nat) (at' : Counted) (ctx : Option Nat) (n : Nat) : (s.meet src at' ctx n).trained = s.trained := rfl
@[simp] theorem State.meet_retrain (s : State) (src : Nat) (at' : Counted) (ctx : Option Nat) (n : Nat) : (s.meet src at' ctx n).retrain = s.retrain := rfl
@[simp] theorem State.meet_retries (s : State) (src : Nat) (at' : Counted) (ctx : Option Nat) (n : Nat) : (s.meet src at' ctx n).retries = s.retries := rfl
@[simp] theorem State.meet_sent (s : State) (src : Nat) (at' : Counted) (ctx : Option Nat) (n : Nat) : (s.meet src at' ctx n).sent = s.sent := rfl
@[simp] theorem State.meet_cut (s : State) (src : Nat) (at' : Counted) (ctx : Option Nat) (n : Nat) : (s.meet src at' ctx n).cut = s.cut := rfl
@[simp] theorem State.meet_agentNo (s : State) (src : Nat) (at' : Counted) (ctx : Option Nat) (n : Nat) : (s.meet src at' ctx n).agentNo = s.agentNo := rfl
@[simp] theorem State.meet_agentRun (s : State) (src : Nat) (at' : Counted) (ctx : Option Nat) (n : Nat) : (s.meet src at' ctx n).agentRun = s.agentRun := rfl
@[simp] theorem State.meet_lag (s : State) (src : Nat) (at' : Counted) (ctx : Option Nat) (n : Nat) : (s.meet src at' ctx n).lag = s.lag := rfl
@[simp] theorem State.meet_hits (s : State) (src : Nat) (at' : Counted) (ctx : Option Nat) (n : Nat) : (s.meet src at' ctx n).hits = ⟨src, at', ctx, n⟩ :: s.hits := rfl
@[simp] theorem State.meet_inbound (s : State) (src : Nat) (at' : Counted) (ctx : Option Nat) (n : Nat) : (s.meet src at' ctx n).inbound = s.inbound := rfl
@[simp] theorem State.meet_epoch (s : State) (src : Nat) (at' : Counted) (ctx : Option Nat) (n : Nat) : (s.meet src at' ctx n).epoch = s.epoch := rfl
@[simp] theorem State.meet_since (s : State) (src : Nat) (at' : Counted) (ctx : Option Nat) (n : Nat) : (s.meet src at' ctx n).since = s.since := rfl
@[simp] theorem State.meet_hactive (s : State) (src : Nat) (at' : Counted) (ctx : Option Nat) (n : Nat) : (s.meet src at' ctx n).hactive = s.hactive := rfl
@[simp] theorem State.meet_csr (s : State) (src : Nat) (at' : Counted) (ctx : Option Nat) (n : Nat) : (s.meet src at' ctx n).csr = s.csr := rfl
@[simp] theorem State.meet_tlb (s : State) (src : Nat) (at' : Counted) (ctx : Option Nat) (n : Nat) : (s.meet src at' ctx n).tlb = s.tlb := rfl
@[simp] theorem State.meet_ptc (s : State) (src : Nat) (at' : Counted) (ctx : Option Nat) (n : Nat) : (s.meet src at' ctx n).ptc = s.ptc := rfl
@[simp] theorem State.meet_refetch (s : State) (src : Nat) (at' : Counted) (ctx : Option Nat) (n : Nat) : (s.meet src at' ctx n).refetch = s.refetch := rfl
@[simp] theorem State.meet_fops (s : State) (src : Nat) (at' : Counted) (ctx : Option Nat) (n : Nat) : (s.meet src at' ctx n).fops = s.fops := rfl
@[simp] theorem State.meet_served (s : State) (src : Nat) (at' : Counted) (ctx : Option Nat) (n : Nat) : (s.meet src at' ctx n).served = s.served := rfl
@[simp] theorem State.meet_gangs (s : State) (src : Nat) (at' : Counted) (ctx : Option Nat) (n : Nat) : (s.meet src at' ctx n).gangs = s.gangs := rfl
@[simp] theorem State.meet_colls (s : State) (src : Nat) (at' : Counted) (ctx : Option Nat) (n : Nat) : (s.meet src at' ctx n).colls = s.colls := rfl
@[simp] theorem State.meet_sqq (s : State) (src : Nat) (at' : Counted) (ctx : Option Nat) (n : Nat) : (s.meet src at' ctx n).sqq = s.sqq := rfl
@[simp] theorem State.meet_pipes (s : State) (src : Nat) (at' : Counted) (ctx : Option Nat) (n : Nat) : (s.meet src at' ctx n).pipes = s.pipes := rfl
@[simp] theorem State.meet_placing (s : State) (src : Nat) (at' : Counted) (ctx : Option Nat) (n : Nat) : (s.meet src at' ctx n).placing = s.placing := rfl
@[simp] theorem State.meet_spilled (s : State) (src : Nat) (at' : Counted) (ctx : Option Nat) (n : Nat) : (s.meet src at' ctx n).spilled = s.spilled := rfl
@[simp] theorem State.meet_past (s : State) (src : Nat) (at' : Counted) (ctx : Option Nat) (n : Nat) : (s.meet src at' ctx n).past = s.past := rfl
@[simp] theorem State.meet_launches (s : State) (src : Nat) (at' : Counted) (ctx : Option Nat) (n : Nat) : (s.meet src at' ctx n).launches = s.launches := rfl
@[simp] theorem State.meet_pri (s : State) (src : Nat) (at' : Counted) (ctx : Option Nat) (n : Nat) : (s.meet src at' ctx n).pri = s.pri := rfl
@[simp] theorem State.meet_moves (s : State) (src : Nat) (at' : Counted) (ctx : Option Nat) (n : Nat) : (s.meet src at' ctx n).moves = s.moves := rfl
@[simp] theorem State.meet_brels (s : State) (src : Nat) (at' : Counted) (ctx : Option Nat) (n : Nat) : (s.meet src at' ctx n).brels = s.brels := rfl
@[simp] theorem State.meet_errSeq (s : State) (src : Nat) (at' : Counted) (ctx : Option Nat) (n : Nat) : (s.meet src at' ctx n).errSeq = s.errSeq := rfl
@[simp] theorem State.meet_fnSeq (s : State) (src : Nat) (at' : Counted) (ctx : Option Nat) (n : Nat) : (s.meet src at' ctx n).fnSeq = s.fnSeq := rfl
@[simp] theorem State.meet_hist (s : State) (src : Nat) (at' : Counted) (ctx : Option Nat) (n : Nat) : (s.meet src at' ctx n).hist = s.hist := rfl
@[simp] theorem State.meet_msix (s : State) (src : Nat) (at' : Counted) (ctx : Option Nat) (n : Nat) : (s.meet src at' ctx n).msix = s.msix := rfl
@[simp] theorem State.meet_msixMask (s : State) (src : Nat) (at' : Counted) (ctx : Option Nat) (n : Nat) : (s.meet src at' ctx n).msixMask = s.msixMask := rfl
@[simp] theorem State.meet_msixPend (s : State) (src : Nat) (at' : Counted) (ctx : Option Nat) (n : Nat) : (s.meet src at' ctx n).msixPend = s.msixPend := rfl
@[simp] theorem State.meet_hostOut (s : State) (src : Nat) (at' : Counted) (ctx : Option Nat) (n : Nat) : (s.meet src at' ctx n).hostOut = s.hostOut := rfl
@[simp] theorem State.meet_fenced (s : State) (src : Nat) (at' : Counted) (ctx : Option Nat) (n : Nat) : (s.meet src at' ctx n).fenced = s.fenced := rfl
@[simp] theorem State.meet_stretch (s : State) (src : Nat) (at' : Counted) (ctx : Option Nat) (n : Nat) : (s.meet src at' ctx n).stretch = s.stretch := rfl
@[simp] theorem State.meet_cool (s : State) (src : Nat) (at' : Counted) (ctx : Option Nat) (n : Nat) : (s.meet src at' ctx n).cool = s.cool := rfl
@[simp] theorem State.meet_bootEnd (s : State) (src : Nat) (at' : Counted) (ctx : Option Nat) (n : Nat) : (s.meet src at' ctx n).bootEnd = s.bootEnd := rfl
@[simp] theorem State.meet_cold (s : State) (src : Nat) (at' : Counted) (ctx : Option Nat) (n : Nat) : (s.meet src at' ctx n).cold = s.cold := rfl
@[simp] theorem State.meet_resets (s : State) (src : Nat) (at' : Counted) (ctx : Option Nat) (n : Nat) : (s.meet src at' ctx n).resets = s.resets := rfl
@[simp] theorem State.meet_cyc (s : State) (src : Nat) (at' : Counted) (ctx : Option Nat) (n : Nat) : (s.meet src at' ctx n).cyc = s.cyc := rfl
@[simp] theorem State.meet_dsp (s : State) (src : Nat) (at' : Counted) (ctx : Option Nat) (n : Nat) : (s.meet src at' ctx n).dsp = s.dsp := rfl
@[simp] theorem State.meet_ev (s : State) (src : Nat) (at' : Counted) (ctx : Option Nat) (n : Nat) : (s.meet src at' ctx n).ev = s.ev := rfl
@[simp] theorem State.meet_agenda (s : State) (src : Nat) (at' : Counted) (ctx : Option Nat) (n : Nat) : (s.meet src at' ctx n).agenda = s.agenda := rfl
@[simp] theorem State.meet_sched (s : State) (src : Nat) (at' : Counted) (ctx : Option Nat) (n : Nat) : (s.meet src at' ctx n).sched = s.sched := rfl
@[simp] theorem State.meet_free (s : State) (src : Nat) (at' : Counted) (ctx : Option Nat) (n : Nat) : (s.meet src at' ctx n).free = s.free := rfl
@[simp] theorem State.meet_uid (s : State) (src : Nat) (at' : Counted) (ctx : Option Nat) (n : Nat) : (s.meet src at' ctx n).uid = s.uid := rfl

end Sys2Proof.Machine
end

