-- ==== Sys2Proof/Laws/Memory.lean ====
section
/-! SUPPORT. Laws of memory: read after write, frames, and that every write keeps the canonical form and a memory without poison. -/

namespace Sys2Proof.Machine

/-! ## One byte -/

theorem State.undefinedAt_putByte (s : State) (l m : Nat) (b : Byte) :
    (s.putByte l b).undefinedAt m = (s.undefinedAt m && m != l) := by
  unfold State.undefinedAt
  simp only [State.putByte_epoch, State.putByte_since]
  by_cases e : m = l
  · subst e
    split <;> simp_all
  · have e' : (m == l) = false := by simpa using e
    by_cases z : s.epoch.getD (hbmTower m) 0 = 0 <;> split <;> simp [e', bne, z]

@[simp] theorem State.byteAt_putByte_self (s : State) (l : Nat) (b : Byte) : (s.putByte l b).byteAt l = b := by
  simp [State.byteAt, State.undefinedAt_putByte]

theorem State.byteAt_putByte_ne (s : State) {l m : Nat} (b : Byte) (ne : m ≠ l) : (s.putByte l b).byteAt m = s.byteAt m := by
  simp [State.byteAt, State.undefinedAt_putByte, ne, sparseGet_set_ne]

theorem State.putByte_wf {s : State} (h : Memory.wf s.mem) (l : Nat) (b : Byte) : Memory.wf (s.putByte l b).mem :=
  sparseSet_wf h l b

theorem State.setReg_wf {s : State} (h : sparseWf csrReset s.csr = true) (o : Nat) (w : Word) :
    sparseWf csrReset (s.setReg o w).csr = true := sparseSet_wf h o w

@[simp] theorem State.reg_setReg_self (s : State) (o : Nat) (w : Word) : (s.setReg o w).reg o = w := by
  simp [State.reg]

theorem State.reg_setReg_ne (s : State) {o p : Nat} (w : Word) (ne : p ≠ o) : (s.setReg o w).reg p = s.reg p := by
  simp [State.reg, sparseGet_set_ne, ne]

/-- The bytes of memory do not depend on the register window. -/
@[simp] theorem State.byteAt_setReg (s : State) (o l : Nat) (w : Word) : (s.setReg o w).byteAt l = s.byteAt l := rfl

/-- A byte write leaves every register of the window. -/
@[simp] theorem State.reg_putByte (s : State) (l o : Nat) (b : Byte) : (s.putByte l b).reg o = s.reg o := rfl

/-! ## Runs of bytes -/

/-- t differs from s in memory, poison and CRC marks alone. -/
def OnlyMemory (s t : State) : Prop :=
  t = { s with mem := t.mem, since := t.since, poison := t.poison, badcrc := t.badcrc }

theorem OnlyMemory.refl (s : State) : OnlyMemory s s := rfl

theorem OnlyMemory.trans {s t u : State} (h : OnlyMemory s t) (k : OnlyMemory t u) : OnlyMemory s u := by
  unfold OnlyMemory at *
  rw [k, h]

theorem State.putBytes_only (bs : List Byte) (s : State) (l : Nat) : OnlyMemory s (s.putBytes l bs) := by
  induction bs generalizing s l with
  | nil => exact OnlyMemory.refl s
  | cons b t ih => exact OnlyMemory.trans (t := s.putByte l b) rfl (ih (s.putByte l b) (l + 1))

theorem State.putBytes_wf (bs : List Byte) {s : State} (l : Nat) (h : Memory.wf s.mem) : Memory.wf (s.putBytes l bs).mem := by
  induction bs generalizing s l with
  | nil => exact h
  | cons b t ih => exact ih (l + 1) (State.putByte_wf h l b)

theorem State.putBytes_marks (bs : List Byte) (s : State) (l : Nat) :
    (s.putBytes l bs).poison = s.poison ∧ (s.putBytes l bs).badcrc = s.badcrc := by
  induction bs generalizing s l with
  | nil => exact ⟨rfl, rfl⟩
  | cons b t ih => exact ih (s.putByte l b) (l + 1)

theorem State.byteAt_putBytes_out (bs : List Byte) (s : State) {l a : Nat} (h : a < l ∨ l + bs.length ≤ a) :
    (s.putBytes l bs).byteAt a = s.byteAt a := by
  induction bs generalizing s l with
  | nil => rfl
  | cons b t ih =>
    simp only [List.length_cons] at h
    rw [State.putBytes, ih (s.putByte l b) (by omega), State.byteAt_putByte_ne s b (by omega)]

theorem State.byteAt_putBytes_in (bs : List Byte) (s : State) (l k : Nat) (h : k < bs.length) :
    (s.putBytes l bs).byteAt (l + k) = bs.getD k 0#8 := by
  induction bs generalizing s l k with
  | nil => simp at h
  | cons b t ih =>
    cases k with
    | zero => rw [State.putBytes, State.byteAt_putBytes_out t _ (by omega)]; simp
    | succ k =>
      rw [State.putBytes, show l + (k + 1) = l + 1 + k by omega, ih (s.putByte l b) (l + 1) k (by simpa using h)]
      simp

/-! ## Writes by granules -/

theorem State.writeGranule_only (s : State) (l : Nat) (bs : List Byte) : OnlyMemory s (s.writeGranule l bs) := by
  unfold State.writeGranule
  dsimp only
  split
  · exact OnlyMemory.trans (State.putBytes_only bs s l) rfl
  · split
    · exact OnlyMemory.refl s
    · split
      · rfl
      · exact State.putBytes_only bs s l

theorem State.writeGranule_wf {s : State} (l : Nat) (bs : List Byte) (h : Memory.wf s.mem) : Memory.wf (s.writeGranule l bs).mem := by
  unfold State.writeGranule
  dsimp only
  split
  · exact State.putBytes_wf bs l h
  · split
    · exact h
    · split
      · exact h
      · exact State.putBytes_wf bs l h

theorem State.writeGranule_clean {s : State} (l : Nat) (bs : List Byte) (h : s.poison = [] ∧ s.badcrc = []) :
    (s.writeGranule l bs).poison = [] ∧ (s.writeGranule l bs).badcrc = [] := by
  unfold State.writeGranule
  dsimp only
  split
  · simp [h, setDel, eraseKey]
  · have m := State.putBytes_marks bs s l
    simp [h, setHas, findKey, m]

theorem State.byteAt_writeGranule_out (s : State) {l a : Nat} (bs : List Byte) (h : a < l ∨ l + bs.length ≤ a) :
    (s.writeGranule l bs).byteAt a = s.byteAt a := by
  have p := State.byteAt_putBytes_out bs s h
  unfold State.writeGranule
  dsimp only
  split
  · exact p
  · split
    · rfl
    · split
      · rfl
      · exact p

theorem State.writeMem_only (fuel : Nat) (s : State) (l : Nat) (bs : List Byte) : OnlyMemory s (s.writeMem l bs fuel) := by
  induction fuel generalizing s l bs with
  | zero => exact OnlyMemory.refl s
  | succ n ih =>
    cases bs with
    | nil => exact OnlyMemory.refl s
    | cons b t => exact OnlyMemory.trans (State.writeGranule_only ..) (ih ..)

theorem State.writeMem_wf (fuel : Nat) {s : State} (l : Nat) (bs : List Byte) (h : Memory.wf s.mem) :
    Memory.wf (s.writeMem l bs fuel).mem := by
  induction fuel generalizing s l bs with
  | zero => exact h
  | succ n ih =>
    cases bs with
    | nil => exact h
    | cons b t => exact ih _ _ (State.writeGranule_wf _ _ h)

theorem State.writeMem_clean (fuel : Nat) {s : State} (l : Nat) (bs : List Byte) (h : s.poison = [] ∧ s.badcrc = []) :
    (s.writeMem l bs fuel).poison = [] ∧ (s.writeMem l bs fuel).badcrc = [] := by
  induction fuel generalizing s l bs with
  | zero => exact h
  | succ n ih =>
    cases bs with
    | nil => exact h
    | cons b t => exact ih _ _ (State.writeGranule_clean _ _ h)

theorem State.byteAt_writeMem_out (fuel : Nat) (s : State) {l a : Nat} (bs : List Byte) (h : a < l ∨ l + bs.length ≤ a) :
    (s.writeMem l bs fuel).byteAt a = s.byteAt a := by
  induction fuel generalizing s l bs with
  | zero => rfl
  | succ n ih =>
    cases bs with
    | nil => rfl
    | cons b t =>
      rw [State.writeMem]
      · rw [ih, State.byteAt_writeGranule_out]
        · simp only [List.length_take]; omega
        · simp only [List.length_drop]; omega
      · simp

/-- A write changes memory and its marks alone. -/
theorem State.write_only (s : State) (l : Nat) (bs : List Byte) : OnlyMemory s (s.write l bs) := State.writeMem_only ..

/-- A write keeps the canonical form. -/
theorem State.write_wf {s : State} (l : Nat) (bs : List Byte) (h : Memory.wf s.mem) : Memory.wf (s.write l bs).mem :=
  State.writeMem_wf _ _ _ h

/-- A write into memory without poison leaves it so. -/
theorem State.write_clean {s : State} (l : Nat) (bs : List Byte) (h : s.poison = [] ∧ s.badcrc = []) :
    (s.write l bs).poison = [] ∧ (s.write l bs).badcrc = [] := State.writeMem_clean _ _ _ h

/-- A write leaves every byte outside its range. -/
theorem State.byteAt_write_out (s : State) {l a : Nat} (bs : List Byte) (h : a < l ∨ l + bs.length ≤ a) :
    (s.write l bs).byteAt a = s.byteAt a := State.byteAt_writeMem_out _ _ _ h

/-- A write leaves every register of the window. -/
theorem State.reg_write (s : State) (l : Nat) (bs : List Byte) (o : Nat) : (s.write l bs).reg o = s.reg o := by
  rw [State.write_only s l bs]; rfl

/-- Events for monitors change the agenda alone. -/
theorem State.wakeMonitors_only (s : State) (l n : Nat) : ∃ es, s.wakeMonitors l n = { s with agenda := es } := by
  unfold State.wakeMonitors
  dsimp only
  split <;> split <;> exact ⟨_, rfl⟩

end Sys2Proof.Machine
end

