-- ==== Sys2Proof/Laws/Scratch.lean ====
section
/-! SUPPORT. In a scratchpad without poison, frames and images can always be written and read. -/

namespace Sys2Proof.Machine

/-- Where nothing is poisoned, no range is. -/
theorem State.poisonedAt_clean {s : State} (h : s.poison = []) (l n : Nat) : s.poisonedAt l n = false := by
  simp [State.poisonedAt, h]

theorem State.badCrcAt_clean {s : State} (h : s.badcrc = []) (l n : Nat) : s.badCrcAt l n = false := by
  simp [State.badCrcAt, h]

/-! ## What leaves the marks of memory alone -/

/-- t has the poison and the CRC marks of s. -/
def SameMarks (s t : State) : Prop := t.poison = s.poison ∧ t.badcrc = s.badcrc

theorem SameMarks.refl (s : State) : SameMarks s s := ⟨rfl, rfl⟩

theorem SameMarks.trans {s t u : State} (h : SameMarks s t) (k : SameMarks t u) : SameMarks s u :=
  ⟨k.1.trans h.1, k.2.trans h.2⟩

/-- A fold of steps that keep the marks keeps them. -/
theorem SameMarks.fold {α : Type} {f : State → α → State} (h : ∀ s a, SameMarks s (f s a)) (l : List α) (s : State) :
    SameMarks s (l.foldl f s) := by
  induction l generalizing s with
  | nil => exact SameMarks.refl s
  | cons a t ih => exact (h s a).trans (ih (f s a))

theorem State.countUp_marks (s : State) (o n : Nat) : SameMarks s (s.countUp o n) := by
  unfold State.countUp
  split <;> exact ⟨rfl, rfl⟩

theorem State.countSector_marks (s : State) (l : Nat) : SameMarks s (s.countSector l) := by
  unfold State.countSector
  split
  · exact State.countUp_marks ..
  · split <;> exact ⟨rfl, rfl⟩

theorem State.meetHbm_marks (s : State) (src T n : Nat) : SameMarks s (s.meetHbm src T n) := ⟨rfl, rfl⟩

theorem State.wroteBack_marks (s : State) (T n : Nat) : SameMarks s (s.wroteBack T n) :=
  (State.countUp_marks ..).trans (State.meetHbm_marks ..)

theorem State.meetBack_marks (s : State) (G a : Nat) : SameMarks s (s.meetBack G a) := by
  unfold State.meetBack
  split <;> exact ⟨rfl, rfl⟩

theorem State.allocSector_marks (s : State) (l : Nat) : SameMarks s (s.allocSector l) := by
  unfold State.allocSector
  dsimp only
  split
  · exact ⟨rfl, rfl⟩
  · split
    · exact ⟨rfl, rfl⟩
    · refine ⟨?_, ?_⟩ <;> dsimp only
      · exact (State.wroteBack_marks s (hbmTower l) _).1
      · exact (State.wroteBack_marks s (hbmTower l) _).2

theorem State.sectorDirty_marks (s : State) (l : Nat) (old : List Byte) : SameMarks s (s.sectorDirty l old) := by
  unfold State.sectorDirty
  split
  · exact SameMarks.refl s
  · split
    · exact State.meetHbm_marks ..
    · dsimp only
      split
      · exact State.allocSector_marks s l
      · split
        · exact (State.allocSector_marks s l).trans (State.meetHbm_marks ..)
        · have m := fun n => (State.allocSector_marks s l).trans (State.wroteBack_marks (s.allocSector l) (hbmTower l) n)
          refine ⟨?_, ?_⟩ <;> dsimp only
          · exact (m _).1
          · exact (m _).2

theorem State.sectorOver_marks (s : State) (l : Nat) (old : List Byte) : SameMarks s (s.sectorOver l old) :=
  (State.countSector_marks s l).trans (State.sectorDirty_marks ..)

theorem State.cleanLine_marks (s : State) (l : Nat) : SameMarks s (s.cleanLine l) := by
  unfold State.cleanLine
  split
  · next d _ =>
    refine SameMarks.trans ?_ (State.sectorOver_marks ..)
    cases s.own.find? fun c => c.1 == lineOf l with
    | none => exact ⟨rfl, rfl⟩
    | some c => exact (State.meetBack_marks s c.2 (lineOf l)).trans ⟨rfl, rfl⟩
  · exact SameMarks.refl s

theorem State.recallLine_marks (s : State) (src a : Nat) : SameMarks s (s.recallLine src a) :=
  (State.cleanLine_marks s a).trans ⟨rfl, rfl⟩

theorem State.dropOrigin_marks (s : State) (l : Nat) : SameMarks s (s.dropOrigin l) := by
  unfold State.dropOrigin
  split <;> exact ⟨rfl, rfl⟩

theorem State.wakeMonitors_marks (s : State) (l n : Nat) : SameMarks s (s.wakeMonitors l n) := by
  obtain ⟨es, e⟩ := State.wakeMonitors_only s l n
  rw [e]; exact ⟨rfl, rfl⟩

theorem State.noteMerge_clean {s : State} (h : s.badcrc = []) (l n : Nat) : s.noteMerge l n = s := by
  simp [State.noteMerge, h, findKey]

/-- A piece written at the memory side into a memory without poison leaves it so. -/
theorem State.homePiece_clean {s : State} (l : Nat) (bs : List Byte) (h : s.poison = [] ∧ s.badcrc = []) :
    (s.homePiece l bs).poison = [] ∧ (s.homePiece l bs).badcrc = [] := by
  unfold State.homePiece
  split
  · exact h
  · rw [State.noteMerge_clean h.2]
    unfold State.rawHome
    split
    · exact h
    · dsimp only
      have m := (SameMarks.fold (f := fun (t : State) a => (t.recallLine noStrand a).sectorWrite a)
        (fun t a => (State.recallLine_marks t noStrand a).trans (State.sectorOver_marks ..)) (linesOf l bs.length) s).trans
        (State.dropOrigin_marks _ l)
      have c := State.write_clean (s := (((linesOf l bs.length).foldl (fun (t : State) a => (t.recallLine noStrand a).sectorWrite a) s).dropOrigin l))
        l bs ⟨m.1.trans h.1, m.2.trans h.2⟩
      have w := State.wakeMonitors_marks ((((linesOf l bs.length).foldl (fun (t : State) a => (t.recallLine noStrand a).sectorWrite a) s).dropOrigin l).write l bs)
        l bs.length
      exact ⟨w.1.trans c.1, w.2.trans c.2⟩

/-! ## The own scratchpad -/

/-- The own scratchpad is reached without translation (R34). -/
theorem State.reach_scratch (s : State) (v : Via) (G : Nat) (n : Need) {k : Nat} (h : k < 0x80000) :
    s.reach v G (0xfffffffff0000000#64 + BitVec.ofNat 64 k) n = .ok (locScratch G k, s) := by
  have e : (0xfffffffff0000000#64 + BitVec.ofNat 64 k).toNat = 0xfffffffff0000000 + k := by
    simp only [BitVec.toNat_add, BitVec.toNat_ofNat]
    omega
  have d : decodeByte G (0xfffffffff0000000 + k) = some (.scratch, locScratch G k) := by
    unfold decodeByte fixedBase
    rw [if_neg (by omega), if_neg (by omega), if_neg (by omega), if_neg (by omega), if_neg (by omega), if_neg (by omega),
      if_pos (by omega), Nat.add_sub_cancel_left]
  simp only [State.reach, e, d]

/-- A scratchpad location is in local memory. -/
theorem regionOf_scratch (G k : Nat) (g : G < 1536) (h : k < 0x80000) : regionOf (locScratch G k) = 1 := by
  unfold regionOf locScratch regionSize
  omega

/-- The scratchpad address 8 bytes on. -/
theorem scratch_next (k : Nat) :
    0xfffffffff0000000#64 + BitVec.ofNat 64 k + 8#64 = 0xfffffffff0000000#64 + BitVec.ofNat 64 (k + 8) := by
  rw [BitVec.add_assoc]; congr 1
  apply BitVec.eq_of_toNat_eq
  simp only [BitVec.toNat_add, BitVec.toNat_ofNat]
  omega

/-- Doublewords can be written at an offset of a scratchpad without poison. -/
theorem State.putWordsVA_scratch (ws : List Word) (s : State) (v : Via) (G k : Nat) (g : G < 1536)
    (h : s.poison = [] ∧ s.badcrc = []) (fits : k + 8 * ws.length ≤ 0x80000) :
    ∃ u, s.putWordsVA v G (0xfffffffff0000000#64 + BitVec.ofNat 64 k) ws = .ok u ∧ u.poison = [] ∧ u.badcrc = [] := by
  induction ws generalizing s k with
  | nil => exact ⟨s, rfl, h⟩
  | cons w t ih =>
    simp only [List.length_cons] at fits
    have c := State.homePiece_clean (locScratch G k) (natToBytes 8 w.toNat) h
    have m := SameMarks.fold (f := fun (u : State) a => u.refresh G a) (fun _ _ => ⟨rfl, rfl⟩)
      (linesOf (locScratch G k) (natToBytes 8 w.toNat).length) (s.homePiece (locScratch G k) (natToBytes 8 w.toNat))
    have p : s.putVA v G (0xfffffffff0000000#64 + BitVec.ofNat 64 k) (natToBytes 8 w.toNat) =
        .ok ((linesOf (locScratch G k) (natToBytes 8 w.toNat).length).foldl (fun (u : State) a => u.refresh G a)
          (s.homePiece (locScratch G k) (natToBytes 8 w.toNat))) := by
      rw [State.putVA, State.reach_scratch s v G .write (by omega)]
      simp [State.poisonedAt_clean h.1, State.badCrcAt_clean h.2, regionOf_scratch G k g (by omega), bind, Except.bind, pure, Except.pure]
    rw [State.putWordsVA, p, scratch_next]
    exact ih _ (k + 8) ⟨m.1.trans c.1, m.2.trans c.2⟩ (by omega)

/-- Doublewords can be read at an offset of a scratchpad without poison. -/
theorem State.getWordsVA_scratch (n : Nat) (s : State) (v : Via) (G k : Nat) (g : G < 1536) (h : s.poison = [] ∧ s.badcrc = [])
    (fits : k + 8 * n ≤ 0x80000) :
    ∃ l, s.getWordsVA v G (0xfffffffff0000000#64 + BitVec.ofNat 64 k) n = .ok (l, s) := by
  induction n generalizing k with
  | zero => exact ⟨[], rfl⟩
  | succ n ih =>
    obtain ⟨l, e⟩ := ih (k + 8) (by omega)
    have r := regionOf_scratch G k g (by omega)
    have f : s.isFenced (locScratch G k) = false := by simp [State.isFenced, towerOfLoc, State.unlinked, r]
    have b : isHbm (locScratch G k) = false := by
      unfold isHbm
      unfold regionOf at r
      simp only [decide_eq_false_iff_not]
      unfold regionSize at r
      omega
    refine ⟨s.wordAt (locScratch G k) :: l, ?_⟩
    rw [State.getWordsVA, State.reach_scratch s v G .read (by omega)]
    simp [State.poisonedAt_clean h.1, State.badCrcAt_clean h.2, f, b, scratch_next, e, bind, Except.bind, pure, Except.pure]

end Sys2Proof.Machine
end

