-- ==== Sys2Proof/Laws/Frames.lean ====
section
/-! SUPPORT. What the memory side leaves alone: walks, sector requests, recalls, records and the module's own accesses change no
strand and no core, and keep memory and the register window canonical. -/

namespace Sys2Proof.Machine

/-- What stands apart from the memory side: the strands, the cores, and what moves next. -/
def State.strands (s : State) :=
  (s.here, s.ctx, s.ctxs, s.core, s.cores, s.spilled, s.past, s.uid, s.cyc, s.lag, s.ev, s.sched, s.pipes, s.fops)

/-- t differs from s at the memory side only, and stays canonical. -/
structure MemorySide (s t : State) : Prop where
  strands : t.strands = s.strands
  mem : Memory.wf s.mem → Memory.wf t.mem
  csr : sparseWf csrReset s.csr = true → sparseWf csrReset t.csr = true

namespace MemorySide

theorem refl (s : State) : MemorySide s s := ⟨rfl, id, id⟩

theorem trans {s t u : State} (h : MemorySide s t) (k : MemorySide t u) : MemorySide s u :=
  ⟨k.strands.trans h.strands, k.mem ∘ h.mem, k.csr ∘ h.csr⟩

/-- An update of fields apart from strands, memory and registers. -/
theorem of {s t : State} (a : t.strands = s.strands) (b : t.mem = s.mem) (c : t.csr = s.csr) : MemorySide s t :=
  ⟨a, fun h => b ▸ h, fun h => c ▸ h⟩

theorem fold {α : Type} {f : State → α → State} (h : ∀ s a, MemorySide s (f s a)) (l : List α) (s : State) :
    MemorySide s (l.foldl f s) := by
  induction l generalizing s with
  | nil => exact refl s
  | cons a t ih => exact (h s a).trans (ih (f s a))

theorem ite {c : Prop} [Decidable c] {s t u : State} (h : MemorySide s t) (k : MemorySide s u) :
    MemorySide s (if c then t else u) := by split <;> assumption

theorem here {s t : State} (h : MemorySide s t) : t.here = s.here := congrArg (·.1) h.strands
theorem ctx {s t : State} (h : MemorySide s t) : t.ctx = s.ctx := congrArg (·.2.1) h.strands
theorem ctxs {s t : State} (h : MemorySide s t) : t.ctxs = s.ctxs := congrArg (·.2.2.1) h.strands
theorem core {s t : State} (h : MemorySide s t) : t.core = s.core := congrArg (·.2.2.2.1) h.strands
theorem cores {s t : State} (h : MemorySide s t) : t.cores = s.cores := congrArg (·.2.2.2.2.1) h.strands

end MemorySide

open MemorySide

/-! ## Registers, records and memory -/

theorem State.setReg_side (s : State) (o : Nat) (w : Word) : MemorySide s (s.setReg o w) :=
  ⟨rfl, id, fun h => State.setReg_wf h o w⟩

theorem State.countUp_side (s : State) (o n : Nat) : MemorySide s (s.countUp o n) := by
  unfold State.countUp
  exact ite (refl s) (State.setReg_side ..)

theorem State.meet_side (s : State) (src : Nat) (at' : Counted) (ctx : Option Nat) (n : Nat) : MemorySide s (s.meet src at' ctx n) :=
  of rfl rfl rfl

theorem State.meetCore_side (s : State) (src G : Nat) : MemorySide s (s.meetCore src G) := of rfl rfl rfl

theorem State.meetHbm_side (s : State) (src T n : Nat) : MemorySide s (s.meetHbm src T n) := of rfl rfl rfl

theorem State.wroteBack_side (s : State) (T n : Nat) : MemorySide s (s.wroteBack T n) :=
  (State.countUp_side ..).trans (State.meetHbm_side ..)

theorem State.meetBack_side (s : State) (G a : Nat) : MemorySide s (s.meetBack G a) := by
  unfold State.meetBack
  exact ite (State.meetCore_side ..) (refl s)

theorem State.countSector_side (s : State) (l : Nat) : MemorySide s (s.countSector l) := by
  unfold State.countSector
  exact ite (State.countUp_side ..) (ite (State.meet_side ..) (refl s))

theorem State.allocSector_side (s : State) (l : Nat) : MemorySide s (s.allocSector l) := by
  unfold State.allocSector
  dsimp only
  split
  · exact of rfl rfl rfl
  · split
    · exact of rfl rfl rfl
    · exact (State.wroteBack_side s _ _).trans (of rfl rfl rfl)

theorem State.sectorRead_side (s : State) (l : Nat) (keep : Bool) : MemorySide s (s.sectorRead l keep) := by
  unfold State.sectorRead
  dsimp only
  have c := State.countSector_side s l
  have m := (c.trans (State.countUp_side _ (oSLMISS (hbmTower l)) 1)).trans (State.meetHbm_side _ 8 (hbmTower l) 1)
  refine ite c (ite (c.trans (State.meetHbm_side ..)) (ite (c.trans (State.countUp_side ..)) (ite ?_ m)))
  exact m.trans (State.allocSector_side ..)

theorem State.sectorDirty_side (s : State) (l : Nat) (old : List Byte) : MemorySide s (s.sectorDirty l old) := by
  unfold State.sectorDirty
  dsimp only
  have a := State.allocSector_side s l
  have m := fun n => a.trans (State.wroteBack_side (s.allocSector l) (hbmTower l) n)
  refine ite (refl s) (ite (State.meetHbm_side ..) (ite a (ite (a.trans (State.meetHbm_side ..)) ⟨?_, ?_, ?_⟩)))
  all_goals dsimp only [State.strands]
  · exact (m _).strands
  · exact (m _).mem
  · exact (m _).csr

theorem State.sectorOver_side (s : State) (l : Nat) (old : List Byte) : MemorySide s (s.sectorOver l old) :=
  (State.countSector_side s l).trans (State.sectorDirty_side ..)

theorem State.cleanLine_side (s : State) (l : Nat) : MemorySide s (s.cleanLine l) := by
  unfold State.cleanLine
  split
  · refine MemorySide.trans ?_ (State.sectorOver_side _ _ _)
    cases s.own.find? fun c => c.1 == lineOf l with
    | none => exact of rfl rfl rfl
    | some c => exact (State.meetBack_side s c.2 (lineOf l)).trans (of rfl rfl rfl)
  · exact refl s

theorem State.dropL2_side (s : State) (T a : Nat) : MemorySide s (s.dropL2 T a) := by
  unfold State.dropL2
  dsimp only
  have m := fold (f := fun (u : State) (c : Nat × Nat) => if c.1 == a && twrOf c.2 == T then u.meetBack c.2 a else u)
    (fun u c => ite (State.meetBack_side u c.2 a) (refl u)) s.own s
  refine ite (m.trans (of rfl rfl rfl)) (MemorySide.trans ?_ (State.cleanLine_side _ _))
  exact m.trans (of rfl rfl rfl)

theorem State.takeL2_side (s : State) (T a : Nat) : MemorySide s (s.takeL2 T a) := by
  unfold State.takeL2
  dsimp only
  refine ite (refl s) (ite (of rfl rfl rfl) ?_)
  split
  · exact refl s
  · refine MemorySide.trans (MemorySide.trans ?_ (State.dropL2_side _ _ _)) (of rfl rfl rfl)
    exact of rfl rfl rfl

theorem State.readL2_side (s : State) (T a : Nat) : MemorySide s (s.readL2 T a) := by
  unfold State.readL2
  exact ite (State.meet_side ..) (((State.meet_side ..).trans (State.sectorRead_side ..)).trans (State.takeL2_side ..))

theorem State.recallLine_side (s : State) (src a : Nat) : MemorySide s (s.recallLine src a) :=
  (State.cleanLine_side s a).trans (of rfl rfl rfl)

theorem State.dropOrigin_side (s : State) (l : Nat) : MemorySide s (s.dropOrigin l) := by
  unfold State.dropOrigin
  exact ite ((State.setReg_side ..).trans (State.setReg_side ..)) (refl s)

theorem State.write_side (s : State) (l : Nat) (bs : List Byte) : MemorySide s (s.write l bs) := by
  have h := State.write_only s l bs
  refine ⟨?_, State.write_wf l bs, ?_⟩
  · rw [h]; rfl
  · rw [h]; exact id

theorem State.wakeMonitors_side (s : State) (l n : Nat) : MemorySide s (s.wakeMonitors l n) := by
  obtain ⟨es, e⟩ := State.wakeMonitors_only s l n
  rw [e]; exact of rfl rfl rfl

theorem State.rawHome_side (s : State) (l : Nat) (bs : List Byte) : MemorySide s (s.rawHome l bs) := by
  unfold State.rawHome
  refine ite (refl s) ?_
  exact (((fold (fun t a => (State.recallLine_side t noStrand a).trans (State.sectorOver_side ..)) _ s).trans
    (State.dropOrigin_side ..)).trans (State.write_side ..)).trans (State.wakeMonitors_side ..)

theorem State.sendMsi_side (s : State) (v : Nat) : MemorySide s (s.sendMsi v) := by
  unfold State.sendMsi
  exact ite (of rfl rfl rfl) (of rfl rfl rfl)

theorem State.putRecord_side (s : State) (pa : Nat) (ws : List Word) : MemorySide s (s.putRecord pa ws) := by
  unfold State.putRecord
  exact ite (of rfl rfl rfl) (State.rawHome_side ..)

theorem State.report_side (s : State) (T cls sev G X : Nat) (sego : Bool) (rwc : Nat) (addr synd detail : Word) :
    MemorySide s (s.report T cls sev G X sego rwc addr synd detail) := by
  unfold State.report
  dsimp only
  have a := State.setReg_side s (oERRSTAT T) (s.reg (oERRSTAT T) ||| (1#64 <<< sev))
  generalize s.setReg (oERRSTAT T) (s.reg (oERRSTAT T) ||| (1#64 <<< sev)) = s0 at a ⊢
  have b : MemorySide s (if sev = 0 then s0.setReg (oCECNT T cls) (s0.reg (oCECNT T cls) + 1#64) else s0) :=
    ite (a.trans (State.setReg_side ..)) a
  generalize (if sev = 0 then s0.setReg (oCECNT T cls) (s0.reg (oCECNT T cls) + 1#64) else s0) = s1 at b ⊢
  refine ite b (ite (b.trans (State.setReg_side ..)) ?_)
  generalize hp : s1.putRecord _ _ = s2
  have c : MemorySide s s2 := hp ▸ b.trans (State.putRecord_side ..)
  have d : MemorySide s { s2 with errSeq := s2.errSeq.setIfInBounds T (s1.errSeq.getD T 0#16 + 1#16) } :=
    c.trans (of rfl rfl rfl)
  exact ite ((d.trans (State.setReg_side ..)).trans (State.sendMsi_side ..)) (d.trans (State.setReg_side ..))

theorem State.noteMerge_side (s : State) (l n : Nat) : MemorySide s (s.noteMerge l n) := by
  unfold State.noteMerge
  exact fold (fun _ _ => State.report_side ..) _ s

theorem State.homePiece_side (s : State) (l : Nat) (bs : List Byte) : MemorySide s (s.homePiece l bs) := by
  unfold State.homePiece
  exact ite (refl s) ((State.noteMerge_side ..).trans (State.rawHome_side ..))

/-! ## Translation -/

theorem State.setAD_side (s : State) (a : Nat) (d : Bool) : MemorySide s (s.setAD a d) := by
  unfold State.setAD
  exact ite (refl s) (State.homePiece_side ..)

theorem State.fillUnit_side (s : State) (t : TlbEntry) (u : TlbUnit) : MemorySide s (s.fillUnit t u) := by
  unfold State.fillUnit
  dsimp only
  exact ite (refl s) (ite (of rfl rfl rfl) (of rfl rfl rfl))

theorem State.fill_side (s : State) (v : Via) (n : Need) (t : TlbEntry) : MemorySide s (s.fill v n t) := by
  unfold State.fill
  exact fold (fun _ _ => State.fillUnit_side ..) _ s

theorem State.keepPointer_side (s : State) (T lvl va table : Nat) : MemorySide s (s.keepPointer T lvl va table) := by
  unfold State.keepPointer
  dsimp only
  exact ite (of rfl rfl rfl) (of rfl rfl rfl)

theorem State.walkFrom_side (T va n : Nat) (s : State) (t : Nat) : MemorySide s (s.walkFrom T va t n).1 := by
  induction n generalizing s t with
  | zero => exact refl s
  | succ k ih =>
    unfold State.walkFrom
    dsimp only
    have r := State.readL2_side s T (lineOf (t + 8 * (va / 2 ^ stepLg k % 512)))
    repeat' split
    all_goals first
      | exact refl s
      | exact r
      | exact (r.trans (State.keepPointer_side ..)).trans (ih ..)

theorem State.atsAsk_side (s : State) (T va : Nat) : MemorySide s (s.atsAsk T va) := by
  unfold State.atsAsk
  dsimp only
  have t : MemorySide s (if (s.atsw.any (· == ⟨T, pageOf (BitVec.ofNat 64 va), s.asker, false⟩)) = true then s
      else { s with atsw := s.atsw ++ [⟨T, pageOf (BitVec.ofNat 64 va), s.asker, false⟩] }) := ite (refl s) (of rfl rfl rfl)
  exact ite t (t.trans (of rfl rfl rfl))

theorem State.atsSeen_side (s : State) (T va : Nat) (c : Option AtsEntry) : MemorySide s (s.atsSeen T va c) := of rfl rfl rfl

theorem State.walked_side (s : State) (v : Via) : MemorySide s (s.walked v) := by
  unfold State.walked
  dsimp only
  split <;> exact of rfl rfl rfl

theorem finishWalk_side (s : State) (v : Via) (va : Nat) (sup : Bool) (n : Need) (g : Option Nat) (a lvl : Nat) (e : Word) :
    MemorySide s (finishWalk s v va sup n g a lvl e).1 := by
  unfold finishWalk
  have r := State.setAD_side s a false
  generalize s.setAD a false = s1 at r ⊢
  dsimp only
  repeat' split
  all_goals first
    | exact refl s
    | exact r
    | exact (r.trans (State.setAD_side ..)).trans (State.fill_side ..)
    | exact ((r.trans (State.atsSeen_side ..)).trans (State.setAD_side ..)).trans (State.fill_side ..)
    | exact (r.trans (State.atsSeen_side ..)).trans (State.atsAsk_side ..)
    | exact r.trans (State.atsSeen_side ..)

theorem State.missWalk_side (s : State) (v : Via) (va : Nat) (sup : Bool) (n : Need) (g : Option Nat) :
    MemorySide s (s.missWalk v va sup n g).1 := by
  have r := State.walkFrom_side v.twr va (s.walkStart v.twr va).2 s (s.walkStart v.twr va).1
  unfold State.missWalk
  split
  · next e => rw [State.walk] at e; rw [e] at r; exact r.trans (State.walked_side ..)
  · next e => rw [State.walk] at e; rw [e] at r; exact r
  · next e => rw [State.walk] at e; rw [e] at r; exact (r.trans (State.walked_side ..)).trans (finishWalk_side ..)

theorem translated_side (s : State) (v : Via) (va : Nat) (sup : Bool) (n : Need) : MemorySide s (translated s v va sup n).1 := by
  unfold translated
  repeat' split
  all_goals first
    | exact refl s
    | exact State.missWalk_side ..
    | exact State.fill_side ..

/-- A translation changes no strand and no core, and keeps the canonical form. -/
theorem translate_side (s : State) (v : Via) (va : Nat) (sup : Bool) (n : Need) : MemorySide s (translate s v va sup n).1 := by
  have r := translated_side s v va sup n
  unfold translate
  split
  · next e =>
    rw [e] at r
    split
    · exact r.trans (of rfl rfl rfl)
    · exact r
  · exact r

/-! ## The module's own accesses -/

theorem State.resolve_side (v : Via) (G : Nat) (sup : Bool) (need : Need) (fuel : Nat) (s : State) (va n : Nat) :
    MemorySide s (s.resolve v G sup need va n fuel).1 := by
  induction fuel generalizing s va n with
  | zero => exact refl s
  | succ k ih =>
    unfold State.resolve
    have x := fun a => translate_side s v a sup need
    split
    · exact refl s
    · split
      · exact refl s
      · next a _ =>
        have r := x va
        dsimp only
        split
        · next e => rw [e] at r; exact r
        · next e => rw [e] at r; exact r
        · next e => rw [e] at r; exact r
        · next t l nc e =>
          rw [e] at r
          have q := ih t (va + min n (4096 - va % 4096)) (n - min n (4096 - va % 4096))
          split
          · next u ps w => rw [w] at q; exact r.trans q
          · exact r.trans q
      · exact refl s

theorem State.tried_side (s : State) (q : Tried) : MemorySide s (s.tried q).1 := State.resolve_side ..

theorem State.kept_side (s : State) (t : Option Tried) : MemorySide s (s.kept t) := by
  unfold State.kept
  split
  · exact refl s
  · exact State.tried_side ..

theorem State.reach_side {s t : State} {v : Via} {G : Nat} {va : Word} {n : Need} {l : Nat} (h : s.reach v G va n = .ok (l, t)) :
    MemorySide s t := by
  unfold State.reach at h
  dsimp only at h
  split at h
  · cases h
  · next a _ =>
    have r := translate_side s v a true n
    split at h
    · next e =>
      rw [e] at r
      split at h
      · cases h
      · cases h; exact r
    · cases h
    · cases h
    · cases h
  · cases h
  · repeat' split at h
    all_goals first
      | cases h; done
      | cases h; exact refl s
  · cases h; exact refl s

theorem State.refresh_side (s : State) (G a : Nat) : MemorySide s (s.refresh G a) := of rfl rfl rfl

theorem State.ifReadL2_side (c : Bool) (s : State) (T a : Nat) : MemorySide s (if c = true then s.readL2 T a else s) :=
  ite (State.readL2_side ..) (refl s)

theorem State.putVA_side {s t : State} {v : Via} {G : Nat} {va : Word} {bs : List Byte} (h : s.putVA v G va bs = .ok t) :
    MemorySide s t := by
  unfold State.putVA at h
  simp only [bind, Except.bind, pure, Except.pure, throw, throwThe, MonadExceptOf.throw] at h
  split at h
  · cases h
  · next q e =>
    have r := State.reach_side (l := q.1) (t := q.2) (by rw [e])
    repeat' split at h
    all_goals first
      | cases h; done
      | (cases h; exact r)
      | (cases h; exact (r.trans (State.homePiece_side ..)).trans (fold (fun _ _ => State.refresh_side ..) _ _))

/-- Doublewords written from an address on change no strand and no core, and keep the canonical form. -/
theorem State.putWordsVA_side {v : Via} {G : Nat} (ws : List Word) {s t : State} {va : Word} (h : s.putWordsVA v G va ws = .ok t) :
    MemorySide s t := by
  induction ws generalizing s va with
  | nil => cases h; exact refl _
  | cons w l ih =>
    unfold State.putWordsVA at h
    simp only [bind, Except.bind] at h
    split at h
    · cases h
    · next u e => exact (State.putVA_side e).trans (ih h)

/-- Doublewords read from an address on change no strand and no core, and keep the canonical form. -/
theorem State.getWordsVA_side {v : Via} {G : Nat} (n : Nat) {s t : State} {va : Word} {l : List Word}
    (h : s.getWordsVA v G va n = .ok (l, t)) : MemorySide s t := by
  induction n generalizing s va l with
  | zero => cases h; exact refl _
  | succ k ih =>
    unfold State.getWordsVA at h
    simp only [bind, Except.bind, pure, Except.pure, throw, throwThe, MonadExceptOf.throw] at h
    split at h
    · cases h
    · next q e =>
      have r := State.reach_side (l := q.1) (t := q.2) (by rw [e])
      repeat' split at h
      all_goals first
        | cases h; done
        | (next w x => cases h; exact (r.trans (State.ifReadL2_side ..)).trans (ih x))

end Sys2Proof.Machine
end

