-- ==== Sys2Proof/Laws/Ops.lean ====
section
/-! SUPPORT. One lemma for each shared operation, saying once what it can do. -/

namespace Sys2Proof.Machine

/-! ## Guards -/

theorem whenOn_true {g : BitVec 4} {s : State} (h : s.on g = true) (f : State → State) : whenOn g s f = .next (f s) := by
  simp [whenOn, h]

theorem whenOn_false {g : BitVec 4} {s : State} (h : s.on g = false) (f : State → State) : whenOn g s f = .next s := by
  simp [whenOn, h]

theorem whenSup_true {p : Pos} {g : BitVec 4} {s : State} (u : s.ctx.r.sup = true) (h : s.on g = true) (f : State → State) :
    whenSup p g s f = .next (f s) := by
  simp [whenSup, u, whenOn_true h]

theorem whenSup_false {p : Pos} {g : BitVec 4} {s : State} (u : s.ctx.r.sup = true) (h : s.on g = false) (f : State → State) :
    whenSup p g s f = .next s := by
  simp [whenSup, u, whenOn_false h]

theorem whenSup_user {p : Pos} {g : BitVec 4} {s : State} (u : s.ctx.r.sup = false) (f : State → State) :
    whenSup p g s f = .next (s.trapAt p cPRIV 0#64 0#64) := by
  simp [whenSup, u, State.trapAt]

theorem whenLanes_some {g : BitVec 4} {s : State} (h : s.pr g ≠ 0#32) (f : BitVec 32 → State → State) :
    whenLanes g s f = .next (f (s.pr g) s) := by
  simp [whenLanes, h]

theorem whenLanes_none {g : BitVec 4} {s : State} (h : s.pr g = 0#32) (f : BitVec 32 → State → State) :
    whenLanes g s f = .next s := by
  simp [whenLanes, h]

/-- Guard 0 is always true (R246). -/
@[simp] theorem State.on_zero (s : State) : s.on 0#4 = true := by
  simp [State.on, State.pr, Regs.preg]

/-- s0 reads zero (R246). -/
@[simp] theorem Regs.sreg_zero (r : Regs) : r.sreg 0#6 = 0#64 := by
  simp [Regs.sreg]

/-- p0 reads all ones (R246). -/
@[simp] theorem Regs.preg_zero (r : Regs) : r.preg 0#4 = 0xffffffff#32 := by
  simp [Regs.preg]

/-! ## Results -/

/-- A result issued changes nothing but what the strand awaits; each destination awaits its own landing, those of an LDQ one (R243, R282). -/
theorem State.land_eq (s : State) (lat : Nat) (p : Pos) (i : Instr) (ws : List Write) (a b c : Vec) (gm : BitVec 32) (w : Word) :
    s.land lat p i ws a b c gm w =
      { s with ctx := { s.ctx with r := { s.ctx.r with
          pend := (landParts i ws).foldl
            (fun (l : List Pend) x => addPend l ⟨lat, s.ctx.r.bc, p, i, x, a, b, c, gm, w, false, lat == 1⟩) s.ctx.r.pend } } } :=
  rfl

/-- Where no awaited result is of the same bundle in a higher slot or of the same register, a result goes to the end. -/
theorem addPend_nil (e : Pend) : addPend [] e = [e] := by
  simp [addPend]

/-- Nothing lands where nothing is awaited. -/
theorem tickPend_nil {r : Regs} (h : r.pend = []) : tickPend r = r := by
  unfold tickPend tickHeld Regs.landNow
  simp [h, Regs.puts]
  rw [← h]

theorem Regs.settle_nil {r : Regs} (h : r.pend = []) : r.settle = r := by
  unfold Regs.settle
  simp [h, Regs.puts]
  rw [← h]

/-! ## Segments, waits and drains -/

theorem State.inSeg_none {s : State} (h : s.ctx.seg = none) : s.inSeg = false := by
  simp [State.inSeg, h]

theorem afterClose_none {s : State} (h : s.ctx.seg = none) (f : State → State) : afterClose s f = f s := by
  simp [afterClose, State.closeSeg, h]

theorem State.afterDrain_done {s : State} {d : BitVec 3} {sc : Nat}
    (h : s.drainedOf (fun a => s.ctx.earlier a.id) (d &&& 3#3) sc = true) (f : State → State) :
    s.afterDrain d sc f = f ((s.acquire d).drainNext d sc) := by
  simp [State.afterDrain, h]

theorem State.afterDrain_wait {s : State} {d : BitVec 3} {sc : Nat}
    (h : s.drainedOf (fun a => s.ctx.earlier a.id) (d &&& 3#3) sc = false) (f : State → State) :
    s.afterDrain d sc f = s.freeze := by
  simp [State.afterDrain, h]

/-! ## Contexts -/

theorem State.ctxAt_me {s : State} (h : s.ctx.st ≠ .stopped) : s.ctxAt s.me = some s.ctx := by
  simp [State.ctxAt, h]

theorem State.onCtx_me {s : State} (h : s.ctx.st ≠ .stopped) (f : Ctx → Ctx) : s.onCtx s.me f = { s with ctx := f s.ctx } := by
  simp [State.onCtx, State.ctxAt_me h, State.putCtx]

@[simp] theorem State.coreAt_here (s : State) : s.coreAt s.here = s.core := by
  simp [State.coreAt]

@[simp] theorem State.onCore_here (s : State) (f : Core → Core) : s.onCore s.here f = s.withCore f := by
  simp [State.onCore, State.withCore]

/-- An access issued by the running strand joins its flight with every unit to perform, and each unit's event is due. -/
theorem State.launch_me {s : State} (h : s.ctx.st ≠ .stopped) (a : Access) :
    s.launch s.me a =
      { s with
        ctx := { s.ctx with flight := s.ctx.flight ++ [{ a with left := List.range (max 1 (unitsOf a).length), got := 0 }] }
        agenda := s.agenda ++ (List.range (max 1 (unitsOf a).length)).map (accessEvent s.me a) } := by
  simp [State.launch, State.onCtx_me h]

/-! ## Traps -/

/-- A landing result leaves the trap depth as it is. -/
@[simp] theorem Regs.put_deep (r : Regs) (w : Write) : (r.put w).deep = r.deep := by
  cases w <;> simp only [Regs.put] <;> split <;> rfl

@[simp] theorem Regs.puts_deep (r : Regs) (ws : List Write) : (r.puts ws).deep = r.deep := by
  unfold Regs.puts
  induction ws generalizing r with
  | nil => rfl
  | cons w ws ih => simp [List.foldl_cons, ih]

@[simp] theorem Regs.settle_deep (r : Regs) : r.settle.deep = r.deep := by
  simp [Regs.settle]

/-- CSRs are read whatever the registers hold. -/
@[simp] theorem reg_withRegs (s : State) (f : Regs → Regs) (o : Nat) : (s.withRegs f).reg o = s.reg o := rfl

/-- A trap at depth 0 with a handler and a frame that can be written enters the handler. -/
theorem takeTrap_handler {s u : State} {k : Trap} (d : s.ctx.r.deep = false) (v : s.reg (oTVEC (twrOf s.here)) ≠ 0#64)
    (f : (s.withRegs Regs.settle).putFrame k = .ok u) :
    takeTrap k s = u.enterHandler (s.reg (oTVEC (twrOf s.here))) := by
  have d' : (s.withRegs Regs.settle).ctx.r.deep = false := by simp [State.withRegs, d]
  have v' : ((s.withRegs Regs.settle).reg (oTVEC (twrOf (s.withRegs Regs.settle).here)) == 0#64) = false := by
    rw [reg_withRegs]; exact beq_false_of_ne v
  unfold takeTrap
  simp only [d', v', f, Bool.false_or, Bool.false_eq_true, if_false]
  rfl

/-- A trap at depth 1 or without a handler is a double trap (R194). -/
theorem takeTrap_double {s : State} {k : Trap} (h : s.ctx.r.deep = true ∨ s.reg (oTVEC (twrOf s.here)) = 0#64) :
    takeTrap k s = (s.withRegs Regs.settle).machineCheck s.me k.faddr := by
  unfold takeTrap
  have e : ((s.withRegs Regs.settle).ctx.r.deep || (s.withRegs Regs.settle).reg (oTVEC (twrOf (s.withRegs Regs.settle).here)) == 0#64) = true := by
    rcases h with h | h
    · simp [State.withRegs, h]
    · have : (s.withRegs Regs.settle).reg (oTVEC (twrOf (s.withRegs Regs.settle).here)) = 0#64 := h
      rw [this]; simp
  simp only [e, if_true]
  rfl

/-- A bundle that takes an issue trap has no effect of its own: the trap is taken, or waits for its frame. -/
theorem issueTrap_phase (t : Trap) (s : State) : (issueTrap t s).ctx.phase = .issueTrap ∨ (issueTrap t s).ctx.phase = .entering := by
  unfold issueTrap State.withCtx
  by_cases h : (takeTrap t s).ctx.phase = .entering <;> simp [h]

/-! ## Steps -/

/-- A step of a module that is up. -/
theorem step_running {s : State} (b : s.bootFailed = false) (h : 7 ≤ s.stage) : step s = s.runStep := by
  simp [step, b, Nat.not_lt.mpr h]

/-- A step that an event takes. -/
theorem runStep_event {s : State} {k : Nat} (h : s.choice % 0x100000 = k + 1) (lt : k + 1 < 65536) : s.runStep = s.chosen.perform k := by
  simp [State.runStep, h, lt]

/-- A step that the present core's bundle takes. -/
theorem runStep_bundle {s : State} (h : s.choice = 0) : s.runStep = .next (s.chosen.bundleTurn 0) := by
  simp [State.runStep, h]

/-- An event that no earlier one of its source holds back has to let none go first. -/
theorem State.portFirst_self {s : State} {l : List Ev} {k : Nat} {e : Ev} (h : l[k]? = some e)
    (o : (l.take k).findIdx? (s.portAfter e) = none) (n : Nat) : s.portFirst l n k = k := by
  cases n with
  | zero => rfl
  | succ n =>
    have e : (l[k]?.bind fun e => (l.take k).findIdx? (s.portAfter e)) = none := by rw [h]; exact o
    simp only [State.portFirst, e]

/-- An event due that no earlier one of its source holds back is performed in its place. -/
theorem perform_at {s : State} {k : Nat} {e : Ev} (h : s.agenda[k]? = some e) (o : (s.agenda.take k).findIdx? (s.portAfter e) = none) :
    s.perform k = s.performAt k := by
  rw [State.perform, State.portFirst_self h o]

/-- An event due that does not sleep is performed by its row. -/
theorem performAt_some {s t : State} {k : Nat} {e : Ev} (h : s.agenda[k]? = some e) (w : e.asleep = false)
    (x : exec e.i { s with agenda := s.agenda.eraseIdx k, ev := e } = .next t) : s.performAt k = .next (t.countEvent s e) := by
  simp [State.performAt, h, w, x]

end Sys2Proof.Machine
end

