-- ==== Sys2Proof/Tests/Slice0.lean ====
section
/-! SUPPORT. Tests: encodings and results from the spec's own tables and worked examples, and for each statement with hypotheses a
state that meets them. -/

namespace Sys2Proof.Tests

open Sys2Proof Sys2Proof.Machine Sys2Proof.Claim

set_option Elab.async false

/-! ## States to test with -/

/-- A supervisor strand on core 0, its code in a mapped page, every register 0. -/
def base : State := State.reset.withFetchWord 32 0

/-- Scalar registers set. -/
def setS (s : State) (l : List (BitVec 6 × Word)) : State := s.withRegs fun r => r.puts (l.map fun q => .s q.1 q.2)

/-- The same strand at user level. -/
def user : State := base.withRegs fun r => { r with sup := false }

/-- An event to perform. -/
def at_ (s : State) (e : Ev) : State := { s with ev := e }

/-- The state that an outcome carries. -/
def nextOf : Host.Outcome State Fault Refusal → State
  | .next t => t
  | _ => base

/-- The outcome is a next state. -/
def isNext : Host.Outcome State Fault Refusal → Bool
  | .next _ => true
  | _ => false

theorem nextOf_eq {o : Host.Outcome State Fault Refusal} (h : isNext o = true) : o = .next (nextOf o) := by
  cases o <;> simp_all [isNext, nextOf]

/-- What an operation that may stop answers meets a test. -/
def okAnd {α : Type} (e : Except Stop α) (f : α → Bool) : Bool := match e with
  | .ok a => f a
  | .error _ => false

/-- An operation has to wait. -/
def waits {α : Type} (e : Except Stop α) : Bool := match e with
  | .error (.wait _) => true
  | _ => false

/-- An operation that may stop does not. -/
def isOk {α : Type} (e : Except Stop α) : Bool := okAnd e fun _ => true

/-- A strand at user level with a trap handler at 0x100. -/
def handled : State := (user.setReg (oTVEC 0) 0x100#64).withRegs fun r => { r with tfb := 0x8000#64 }

/-! ## Ill-formed instructions (R236, R246, R257, R281, R283, R289, R307 to R319, R361, R367, R380) -/

theorem test_illformed_control : (Instr.loopi 0 0 5 0).wf = false ∧ (Instr.mtl 0 12 0).wf = false ∧ (Instr.mfl 0 0 15).wf = false := by decide
theorem test_illformed_pairs : (Instr.ldq 0 7 0 0).wf = false ∧ (Instr.stq 0 63 0 0).wf = false := by decide
theorem test_illformed_memory : (Instr.pft 0 3 0 0).wf = false ∧ (Instr.drain 0 6 1).wf = false ∧ (Instr.drain 0 0 0).wf = false ∧
    (Instr.mfsr 0 1 7).wf = false := by decide
theorem test_illformed_vector : (Instr.vadd 0 1 2 3 3 0).wf = false ∧ (Instr.vadd 0 1 2 3 0 3).wf = false ∧
    (Instr.vshi 0 1 2 0 0 8).wf = false ∧ (Instr.vmul 0 1 2 3 3).wf = false := by decide
theorem test_illformed_float : (Instr.vfcmp 0 1 2 3 5).wf = false ∧ (Instr.vcmp 0 1 2 3 6 0).wf = false ∧
    (Instr.vcvt 0 1 2 0 0 0 0).wf = false ∧ (Instr.vcvt 0 1 2 0 1 0 2).wf = false ∧ (Instr.vcvts 0 1 2 5 0 1).wf = false := by decide
theorem test_illformed_tiles : (Instr.zclr 0 0 0 0).wf = false ∧ (Instr.zld 0 0 1 2 1 0).wf = false ∧ (Instr.zst 0 0 1 0 1 1).wf = false ∧
    (Instr.osm 0 2 2).wf = false := by decide

/-! ## Words of the spec's worked examples (R236 to R238 and the entries) -/

theorem test_decode_control : decodeSlot .x none 0x081ffffd#32 = some (.br 1#4 0xffffd#20, false) ∧
    decodeSlot .x none 0x01108283#32 = some (.loopi 0#4 1#2 5#8 3#7, false) := by decide +kernel
theorem test_decode_scalar : decodeSlot .s none 0x84629040#32 = some (.ldd 0#4 5#6 4#6 64#15, true) ∧
    decodeSlot .s none 0x060010a1#32 = some (.aadd 0#4 4#6 5#6 1#1, false) ∧
    decodeSlot .s none 0x07200017#32 = some (.drain 0#4 5#3 3#2, false) := by decide +kernel
theorem test_decode_vector : decodeSlot .v none 0x01f3a128#32 = some (.vtern 0#4 7#6 8#6 9#6 0xe8#8, false) ∧
    decodeSlot .v none 0x02a50442#32 = some (.vcvt 0#4 10#6 1#6 0#1 2#4 0#1 2#3, false) ∧
    decodeSlot .v none 0x05011810#32 = some (.vld 0#4 2#6 6#6 0x10#15, false) := by decide +kernel
theorem test_decode_nmu : decodeSlot .v none 0x06008001#32 = some (.mma 0#4 1#2 1#1, false) ∧
    decodeSlot .v none 0x06510000#32 = some (.osm 0#4 2#2 0#2, false) ∧
    decodeSlot .v none 0x06402961#32 = some (.zst 0#4 0#2 10#6 11#6 0#1 1#1, false) := by decide +kernel
theorem test_decode_buckets : decodeSlot .v none 0x06720c01#32 = some (.rbkt 0#4 4#6 3#6 1#1, false) ∧
    decodeSlot .v none 0x0682a083#32 = some (.rbias 0#4 5#6 8#6 4#6 3#5, false) := by decide +kernel
theorem test_decode_field : decodeSlot .e none 0x01230065#32 = some (.fload 0#4 6#6 0#6 1#1 1#1 5#5, false) ∧
    decodeSlot .e none 0x01548c02#32 = some (.fstat 0#4 9#6 3#6 2#5, false) := by decide +kernel
theorem test_decode_units : decodeSlot .e none 0x022310a4#32 = some (.sqcmt 0#4 6#6 4#6 5#6 4#3, false) ∧
    decodeSlot .e none 0x02739121#32 = some (.sqpos 0#4 7#6 4#6 9#6 0#1 1#1, false) ∧
    decodeSlot .e none 0x00100000#32 = some (.cpy 0#4, false) ∧ decodeSlot .e none 0x03000001#32 = some (.cred 0#4 1#1, false) ∧
    decodeSlot .e none 0x039010a0#32 = some (.rbctr 0#4 4#6 5#6, false) := by decide +kernel
/-- R410's example: the digest's upper 24 bits stand in the header of position 0; the NMU form names no sector. -/
theorem test_decode_assay :
    decodeSlot .x none 0x0ff23456#32 = some (.hdr 0x123456#24, false) ∧
    decodeSlot .e (some 0x123456#24) 0x83b283ab#32 = some (.assay 0#4 5#5 0#1 3#6 0x123456ab#32, true) ∧
    decodeSlot .e (some 0x123456#24) 0x83b2c3ab#32 = none := by decide +kernel
theorem test_decode_table : decodeTableWord 32 0x00329465 = some (.addi 0#4 5#6 5#6 0x65#15) := by decide +kernel

/-! ## Results of the spec's tables and examples -/

/-- A single step runs the placed word and goes on to the next bundle. -/
theorem test_step_addi : (nextOf (step (State.reset.withFetchWord 32 0x00329465))).sr 5#6 = 0x65#64 ∧
    (nextOf (step (State.reset.withFetchWord 32 0x00329465))).ctx.r.pc = 16#64 := by decide +kernel
/-- R193, R249: at user level a supervisor instruction takes the issue trap PRIV into the handler. -/
theorem test_privilege : (nextOf (exec (.tlbsync 0#4) handled)).ctx.r.pc = 0x100#64 ∧ (nextOf (exec (.tlbsync 0#4) handled)).ctx.r.deep = true ∧
    (nextOf (exec (.tlbsync 0#4) handled)).byteAt 0x40008000 = 0x03#8 := by decide +kernel
/-- R243: a product of latency 3 is seen from the third bundle on. -/
theorem test_mul_lands : let r := (nextOf (exec (.mul 0#4 3#6 1#6 2#6) (setS base [(1#6, 6#64), (2#6, 7#64)]))).ctx.r
    (Nat.repeat tickPend 2 r).sreg 3#6 = 0#64 ∧ (Nat.repeat tickPend 3 r).sreg 3#6 = 42#64 := by decide +kernel
/-- The masks that the spec recommends, set for tower 1 (Table 3-8). -/
def hashed : State := { base with hactive := base.hactive.set 1 (Vector.ofFn fun (i : Fin 8) => 0x42100#64 <<< i.val) }
/-- R78: the slice of physical address 0x41_2345_6700 under the power-on masks and under the recommended ones. -/
theorem test_slice_hash : base.psi 0x4123456700 = 135 ∧ hashed.psi 0x4123456700 = 157 := by decide +kernel
/-- R227: one exact block sum under its scale codes. -/
theorem test_field_term : windowSum [chainTerm 1 127 126 (-12)] = 0x39000000#32 := by decide +kernel
/-- Table 15-6, OSM of block 2 on row 0. -/
theorem test_softmax_row :
    let r := softRow 32 1 (fun j => if j = 0 then 0x40800000#32 else if j = 1 then 0x40000000#32 else 0xff800000#32) 0x40400000#32
      0x3fa00000#32 (fun _ => 0x40900000#32)
    r.1 0 = 0x3f800000#32 ∧ r.1 1 = 0x3e800000#32 ∧ r.2.1 = 0x40800000#32 ∧ r.2.2.1 = 0x3ff00000#32 ∧ r.2.2.2 0 = 0x40100000#32 := by
  decide +kernel
/-- Table 15-6, OSMF on row 0. -/
theorem test_osmf_quotient : toF32 ((valF 0x41240000#32).div (valF 0x3ff00000#32)) = 0x40aeeeef#32 := by decide +kernel
/-- R246: a write of s0 is discarded. -/
theorem test_s0_discards : (tickPend (nextOf (exec (.movi 0#4 0#6 5#20) base)).ctx.r).sreg 0#6 = 0#64 := by decide +kernel
/-! ## States that meet the hypotheses of the statements -/

theorem witness_EncodeThenDecode :
    (Instr.add 15#4 63#6 0#6 1#6).wf = true ∧ (Instr.add 15#4 63#6 0#6 1#6).pos = some Pos.s ∧ (Instr.add 15#4 63#6 0#6 1#6).isAssay = false ∧
    (Instr.hdr 0xffffff#24).wf = true ∧ (Instr.hdr 0xffffff#24).pos = some Pos.x ∧ (Instr.hdr 0xffffff#24).isAssay = false ∧
    (Instr.assay 0#4 0#5 1#1 63#6 0xffffffff#32).wf = true ∧ (Instr.assay 0#4 0#5 1#1 63#6 0xffffffff#32).pos = some Pos.e ∧
    ((∃ h, Instr.assay 0#4 0#5 1#1 63#6 0xffffffff#32 = Instr.hdr h) → true = false) :=
  ⟨by decide, by decide, by decide, by decide, by decide, by decide, by decide, by decide, fun ⟨_, h⟩ => by cases h⟩

theorem witness_DecodeThenEncodeKeepsWord : decodeSlot .s none 0x84629040#32 = some (.ldd 0#4 5#6 4#6 64#15, true) ∧
    decodeSlot .x none 0#32 = some (.nop, false) := by decide +kernel

/-- What a fetch finds. -/
def fetched (s : State) : BitVec 128 × State := match s.fetch with
  | .bits w v => (w, v)
  | _ => (0#128, s)

/-- A fetch finds a bundle. -/
def isBits (s : State) : Bool := match s.fetch with
  | .bits _ _ => true
  | _ => false

theorem fetched_eq {s : State} (h : isBits s = true) : s.fetch = .bits (fetched s).1 (fetched s).2 := by
  unfold isBits at h
  unfold fetched
  split at h <;> simp_all

/-- The bundle of a word placed at the program counter. -/
def added : State := State.reset.withFetchWord 32 0x00329465

/-- The state at the bundle. -/
def addedAt : State := (fetched (atBundle added)).2.withCtx fun c => { c with stepId := (fetched (atBundle added)).2.uid }

theorem witness_StepRunsDecoded : BundleNext added ∧
    (atBundle added).fetch = .bits (fetched (atBundle added)).1 (fetched (atBundle added)).2 ∧
    addedAt.ctx.phase = .normal ∧ addedAt.bundleTrap (fetched (atBundle added)).1 = none ∧
    ∃ b, decodeBundle (fetched (atBundle added)).1 = some b ∧ Holds b (.addi 0#4 5#6 5#6 0x65#15) ∧
      addedAt.interlock b = false ∧ addedAt.nullified (slotsOf b) = false ∧ addedAt.inSeg = false ∧
      exec (.addi 0#4 5#6 5#6 0x65#15) addedAt = .next (nextOf (exec (.addi 0#4 5#6 5#6 0x65#15) addedAt)) :=
  ⟨by unfold BundleNext; decide +kernel, fetched_eq (by decide +kernel), by decide +kernel, by decide +kernel,
    ⟨⟨.nop, false⟩, ⟨.addi 0#4 5#6 5#6 0x65#15, false⟩, ⟨.nop, false⟩, ⟨.nop, false⟩⟩, by decide +kernel,
    ⟨.s, by simp [slotsOf]⟩, by decide +kernel, by decide +kernel, by decide +kernel, nextOf_eq (by decide +kernel)⟩

/-- A tick of tower 7 is due. -/
def ticking : State := { base with agenda := [{ i := .dispatcherTick, x := 7 }], cyc := 2#64, sched := [1] }

/-- The page at address 0 as its fetch finds it. -/
def page0 : State := (Machine.translate base (.core base.here) 0 base.ctx.r.sup .fetch).1

theorem witness_StepsPerformEventsAndFetch :
    (ticking.bootFailed = false ∧ 7 ≤ ticking.stage ∧ ticking.choice % 0x100000 = 0 + 1 ∧ 0 < 65535 ∧
      ticking.chosen.agenda[0]? = some { i := .dispatcherTick, x := 7 } ∧ ({ i := .dispatcherTick, x := 7 } : Ev).asleep = false ∧
      (∀ d ∈ ticking.chosen.agenda.take 0, ticking.chosen.portAfter { i := .dispatcherTick, x := 7 } d = false) ∧
      isNext (exec .dispatcherTick { ticking.chosen with agenda := [], ev := { i := .dispatcherTick, x := 7 } }) = true) ∧
    base.ctx.ahead = [] ∧ base.imageBytes 0#64 = none ∧ base.imageBytes 0xfffffff000000000#64 = none ∧ (8#64 : Word).toNat % 16 ≠ 0 ∧
    (fixedBase ≤ (0xfffffff000000000#64 : Word).toNat ∧ (0xfffffff000000000#64 : Word).toNat % 16 = 0) ∧
    ((0#64 : Word).toNat % 16 = 0 ∧ (0#64 : Word).toNat < fixedBase ∧
      (Machine.translate base (.core base.here) 0 base.ctx.r.sup .fetch).2 = .ok 0x40000000 false ∧
      page0.piecesWait page0.strand page0.here false [(0x40000000, 16, false)] = false ∧ page0.isFenced 0x40000000 = false ∧
      page0.poisonedAt 0x40000000 16 = false ∧ page0.badCrcAt 0x40000000 16 = false) := by decide +kernel

theorem witness_StepKeepsCanonicalForm : Canonical base ∧ isNext (step base) = true := by
  unfold Canonical; decide +kernel

theorem witness_GuardsAndPrivilegeDecide :
    Idle (.add 1#4 1#6 2#6 3#6) 1#4 user ∧ supOnly (.add 1#4 1#6 2#6 3#6) = false ∧ Idle (.vadd 15#4 1#6 2#6 3#6 0#2 0#2) 15#4 user ∧
    Idle (.tlbsync 1#4) 1#4 base ∧ base.ctx.r.sup = true ∧
    supOnly (.tlbsync 0#4) = true ∧ (Instr.tlbsync 0#4).pos = some Pos.e ∧ user.ctx.r.sup = false ∧
    supOnly (.eret 0#4) = true ∧ (Instr.eret 0#4).pos = some Pos.x := by
  unfold Idle; decide +kernel

/-- A trap PRIV of the X slot. -/
def privTrap : Trap := { kind := .issue, cause := cPRIV }

theorem witness_TrapEntersHandler : handled.ctx.r.deep = false ∧ handled.reg (oTVEC (twrOf handled.here)) ≠ 0#64 ∧
    isOk ((handled.withRegs Regs.settle).putFrame privTrap) = true := by decide +kernel

theorem witness_StrandsEnd :
    ((handled.withRegs fun r => { r with deep := true }).ctx.st ≠ .stopped ∧ (handled.withRegs fun r => { r with deep := true }).ctx.r.deep = true) ∧
    (user.ctx.st ≠ .stopped ∧ user.reg (oTVEC (twrOf user.here)) = 0#64) ∧
    (user.on 0#4 = true ∧ user.ctx.seg = none ∧ (user.ctx.flight.any fun a => isLoadInstr a.i) = false) := by decide +kernel

theorem witness_FrameRecordsTrap : (48 : Nat) ≤ 48 ∧ privTrap.kind ≠ .alq := by decide

/-- A strand in its handler, and the frame of its trap. -/
def trapped : State := nextOf (exec (.trap 0#4 5#8) handled)

/-- The frame of the strand in its handler can be returned from, and holds no replay entry. -/
def canReturn (s : State) : Bool :=
  okAnd (s.getWordsVA (.core s.here) s.here s.ctx.r.tfb 32) fun q => frameOk q.1 && q.1.getD 18 0#64 == 0#64 &&
    !(q.1.getD 0 0#64).getLsbD 14 && okAnd (q.2.readEntries s.here (s.ctx.r.tfb + 0x100#64) (bits (q.1.getD 0 0#64) 31 26)) fun e =>
      match e.1 with
      | some l => l.isEmpty && !e.2.replayWaits l
      | none => false

theorem witness_EretReturns :
    (trapped.ctx.r.sup = true ∧ trapped.on 0#4 = true ∧ trapped.ctx.r.deep = true ∧ trapped.handlerBusy = false ∧ canReturn trapped = true) ∧
    (base.ctx.r.sup = true ∧ base.on 0#4 = true ∧ base.ctx.r.deep = false) := by decide +kernel

theorem witness_SoftwareTraps :
    (handled.on 0#4 = true ∧ handled.ctx.r.deep = false ∧ handled.ctx.due = [] ∧ (handled.ctx.flight.any fun a => a.flt) = false ∧
      handled.ctx.r.ssm = false ∧ handled.reg (oTVEC (twrOf handled.here)) ≠ 0#64 ∧
      isOk ((boundaryOf handled).putFrame (swTrapOf 255)) = true) ∧
    (10#10).toNat ≤ ((setS handled [(31#6, 10#64)]).sr ((31#5).setWidth 6)).toNat ∧
    ((setS handled [(31#6, 9#64)]).sr ((31#5).setWidth 6)).toNat < (10#10).toNat ∧ handled.ctx.assays = [] ∧
    (handled.withCtx fun c => { c with assays := [⟨1, 0, 3, 0#32, false⟩] }).ctx.assays ≠ [] := by decide +kernel

theorem witness_BranchesSetTarget : user.on 0#4 = true ∧ user.on 1#4 = false := by decide +kernel

/-- Level 2 active at the bundle that ends it, with counts 7 of level 1 and 1 of level 2. -/
def looping (n : Word) : State := base.withRegs fun r => { (r.puts [.l 2#4 n, .l 6#4 0x40#64, .l 10#4 0#64]) with lact := 0x4#4 }

theorem witness_LoopsStartAndBreak :
    base.on 0#4 = true ∧ base.ctx.r.pc.toNat % 16 = 0 ∧ (255#8 : BitVec 8) ≠ 0#8 ∧ (1#10 : BitVec 10) ≠ 0#10 ∧
    ((setS base [(1#6, 0xffffffff#64)]).sr ((1#5).setWidth 6)).setWidth 32 ≠ 0#32 ∧
    ((setS base [(1#6, 0x100000000#64)]).sr ((1#5).setWidth 6)).setWidth 32 = 0#32 ∧
    (looping 5#64).ctx.r.lact.getLsbD (2#2).toNat = true ∧ (looping 5#64).ctx.r.lact.getLsbD (3#2).toNat = false := by decide +kernel

theorem witness_BoundariesAndYieldPoints :
    (nextOf (exec (.br 0#4 4#20) base)).ctx.npc = some 0x40#64 ∧
    (base.ctx.npc = none ∧ ∀ k, k < 4 → base.ctx.r.lact.getLsbD k = true → base.ctx.r.lreg (8 + k) ≠ base.ctx.r.pc) ∧
    1 < ((looping 2#64).ctx.r.lreg 2).toNat ∧ ((looping 1#64).ctx.r.lreg 2).toNat ≤ 1 ∧
    user.on 0#4 = true ∧ user.ctx.r.deep = false ∧ trapped.ctx.r.deep = true := by decide +kernel

theorem witness_BoundariesAndYieldPoints_end2 : (looping 2#64).ctx.npc = none ∧ (looping 2#64).ctx.lset = 0#4 ∧ (looping 2#64).ctx.r.pend = [] ∧
    (looping 2#64).ctx.r.lact.getLsbD 2 = true ∧ (looping 2#64).ctx.r.lreg (8 + 2) = (looping 2#64).ctx.r.pc ∧
    ∀ j, j < 4 → j ≠ 2 → (looping 2#64).ctx.r.lact.getLsbD j = true → (looping 2#64).ctx.r.lreg (8 + j) ≠ (looping 2#64).ctx.r.pc := by decide +kernel

theorem witness_BoundariesAndYieldPoints_end1 : (looping 1#64).ctx.npc = none ∧ (looping 1#64).ctx.lset = 0#4 ∧ (looping 1#64).ctx.r.pend = [] ∧
    (looping 1#64).ctx.r.lact.getLsbD 2 = true ∧ (looping 1#64).ctx.r.lreg (8 + 2) = (looping 1#64).ctx.r.pc ∧
    ∀ j, j < 4 → j ≠ 2 → (looping 1#64).ctx.r.lact.getLsbD j = true → (looping 1#64).ctx.r.lreg (8 + j) ≠ (looping 1#64).ctx.r.pc := by decide +kernel

/-- A strand in a segment with mask 0. -/
def segmented : State := nextOf (exec (.seg 0#4 0#5 0#1) user)

theorem witness_SegmentsOpenAndRewind :
    (user.on 0#4 = true ∧ user.ctx.r.sup = false ∧ user.ctx.seg = none ∧
      (∀ b, b < 32 → ((user.sr ((0#5).setWidth 6)).setWidth 32 : BitVec 32).getLsbD b = true → user.mine b = true) ∧
      (∀ q ∈ user.ctx.flight, isLoadInstr q.i = false) ∧ (∀ e ∈ user.ctx.r.alq, e.valid = true) ∧
      (∀ q ∈ user.core.nmuq, user.ownOp q.x q.tag = false)) ∧
    (segmented.ctx.r.sup = false ∧ segmented.on 0#4 = true ∧ segmented.lacking ((segmented.sr ((0#5).setWidth 6)).setWidth 32) = 0#32 ∧
      segmented.closeSeg.2 = true ∧ segmented.closeSeg.1.settled = true) ∧
    user.lacking (((setS user [(1#6, 0x80000000#64)]).sr ((1#5).setWidth 6)).setWidth 32) ≠ 0#32 ∧ base.ctx.r.sup = true ∧
    (segmented.ctx.seg.any fun g => g.rewinds == 0) = true := by decide +kernel

/-- A remote load in flight that the strand's own bundle issued, or an earlier one, with more to do at the boundary. -/
def loadOut (old : Bool) (l : List Post) (t : State) : State := t.withCtx fun c => { c with
  flight := [{ id := 1, bc := t.ctx.r.bc, pos := .s, i := .ldd 0#4 1#6 2#6 0#15, core := 0, sup := false, gm := 0#32, addrs := [0x40#64] }]
  stepId := if old then 1 else 0
  post := l }

theorem witness_SegmentsOpenAndRewind_later : (loadOut false [] user).closeSeg = (loadOut false [] user, true) ∧ (loadOut false [] user).settled = false ∧
    (loadOut false [] user).settledOf (loadOut false [] user).ctx.earlier = true ∧
    (loadOut true [] user).settledOf (loadOut true [] user).ctx.earlier = false ∧
    (loadOut true [.segment 0#32 false] user).settled = false ∧
    (user.withCtx fun c => { c with post := [.segment 0#32 false] }).settled = true := by
  refine ⟨rfl, ?_⟩; decide +kernel

/-- A supervisor strand that waits at an RDV of counter 5, whose arrival has been counted or not. -/
def rdvWaits (b : Bool) : State :=
  base.withRegs fun r => { r with barw := { id := 1, waiting := true, recorded := true, known := b, idx := 5#8, phase := 255#8 } }
/-- The same at its boundary. -/
def rdvPost (b : Bool) : State := (rdvWaits b).withCtx fun c => { c with post := [.round 0#1 5#6] }

theorem witness_BarriersArriveAndWait : base.on 0#4 = true ∧ base.ctx.seg = none ∧
    base.drainedOf (fun a => base.ctx.earlier a.id) 3#3 (2 + (1#1).toNat) = true ∧
    (loadOut true [] base).drainedOf (fun a => (loadOut true [] base).ctx.earlier a.id) 3#3 (2 + (1#1).toNat) = false ∧
    (rdvWaits true).roundOpen 0#1 5#6 = false ∧ (rdvWaits true).recordNames 0#1 5#6 = true ∧
    base.recordNames 0#1 5#6 = false ∧ (rdvWaits false).roundOpen 0#1 5#6 = true := by decide +kernel

theorem witness_BarriersArriveAndWait_post : (rdvPost false).roundOpen 0#1 5#6 = true ∧ (rdvPost true).roundOpen 0#1 5#6 = false ∧
    (rdvPost true).recordNames 0#1 5#6 = true ∧ (rdvPost true).drained 2#3 (2 + (0#1).toNat) = true ∧
    (loadOut false [.reopen] user).settled = false ∧ (user.withCtx fun c => { c with post := [.reopen] }).settled = true := by decide +kernel
theorem witness_ScalarArithmeticResults : user.on 0#4 = true ∧ (user.withRegs fun r => r.put (.p 15#4 1#32 1#32)).on 15#4 = true := by
  decide +kernel

theorem witness_MultiplyDivideResults : user.on 0#4 = true ∧ (setS user [(63#6, 0x8000000000000000#64)]).sr 63#6 ≠ 0#64 ∧
    user.sr 63#6 = 0#64 := by decide +kernel

theorem witness_ScalarBitResults : user.on 0#4 = true ∧ user.sr 1#6 = 0#64 ∧
    ((setS user [(1#6, 1#64)]).sr 1#6).getLsbD (63 - 63) = true ∧ ((setS user [(1#6, 1#64)]).sr 1#6).getLsbD 0 = true ∧
    ((setS user [(1#6, 0x8000000000000000#64)]).sr 1#6).getLsbD (63 - 0) = true ∧
    (∀ j, j < 63 → ((setS user [(1#6, 0x8000000000000000#64)]).sr 1#6).getLsbD j = false) ∧
    63 = ((setS user [(2#6, 0x3f3f#64)]).sr 2#6).toNat % 64 ∧ 1 = min (if ((setS user [(2#6, 0x3f3f#64)]).sr 2#6).toNat / 256 % 64 = 0 then 64
      else ((setS user [(2#6, 0x3f3f#64)]).sr 2#6).toNat / 256 % 64) (64 - 63) := by decide +kernel

theorem witness_ScalarBitResults_highest : ∀ j, 63 - 63 < j → ((setS user [(1#6, 1#64)]).sr 1#6).getLsbD j = false := by
  intro j h
  have e : (setS user [(1#6, 1#64)]).sr 1#6 = 1#64 := by decide +kernel
  rw [e, BitVec.getLsbD_one]
  simp
  omega

theorem witness_PredicateResults : user.on 0#4 = true := by decide +kernel

theorem witness_StagingAndSpecialResults : user.on 0#4 = true ∧ base.on 0#4 = true := by decide +kernel

/-- A result of s63 due three bundles on. -/
def slow : Pend := { left := 3, bc := 0#64, pos := .s, i := .mul 0#4 63#6 1#6 2#6, ws := [.s 63#6 9#64] }
/-- Registers to which results of s63, p15 and v63 are due at the next boundary. -/
def landing : Regs := { Regs.reset with pend := [{ slow with left := 1, ws := [.s 63#6 5#64] }, { slow with left := 0 },
  { slow with left := 1, ws := [.p 15#4 7#32 3#32] }, { slow with left := 1, ws := [.v 63#6 7#1024 3#1024] }, { slow with left := 2 }] }

theorem witness_ResultsLandAtTheirLatency :
    (({ Regs.reset with pend := [slow] } : Regs).pend = [slow] ∧ slow.ws = [.s 63#6 9#64] ∧ (63#6 : BitVec 6) ≠ 0#6 ∧ 0 < slow.left) ∧
    (landing.pend = [landing.pend[0]!] ++ { slow with left := 0 } :: landing.pend.drop 2 ∧ ({ slow with left := 0 } : Pend).left ≤ 1 ∧
      ∀ e ∈ landing.pend.drop 2, e.left ≤ 1 → ∀ w ∈ e.ws, w.reg ≠ .s 63#6) ∧
    (∀ e ∈ landing.pend.take 2 ++ landing.pend.drop 3, e.left ≤ 1 → ∀ w ∈ e.ws, w.reg ≠ .p 15#4) ∧
    (∀ e ∈ landing.pend.take 3 ++ landing.pend.drop 4, e.left ≤ 1 → ∀ w ∈ e.ws, w.reg ≠ .v 63#6) ∧
    (∀ e ∈ landing.pend, e.left ≤ 1 → ∀ w ∈ e.ws, w.reg ≠ .s 1#6) ∧
    (∀ q ∈ [slow], q.bc ≠ ({ slow with bc := 1#64 } : Pend).bc) ∧
    slow.clash [.s 63#6 5#64] = true ∧ ∀ q ∈ [slow], q.clash [.s 1#6 5#64] = false := by decide +kernel

/-- Bank 0 of core 0 is held under tag 9. -/
def lent : State := user.holdBank 0 0 9#8

theorem witness_AddressChecks : 1 ≤ 16 ∧
    (0xfffffffff0000000 ≤ (0xfffffffff007fff0#64 : Word).toNat ∧ (0xfffffffff007fff0#64 : Word).toNat + 16 ≤ 0xfffffffff0080000 ∧
      user.bankRefuses user.here user.ctx.r.tag (banksOf (locScratch user.here (0xfffffffff007fff0 - 0xfffffffff0000000)) 16) = false) ∧
    lent.bankRefuses lent.here lent.ctx.r.tag (banksOf (locScratch lent.here (0xfffffffff0000000 - 0xfffffffff0000000)) 16) = true ∧
    (0xfffffffff0100000 ≤ (0xfffffffff013ffff#64 : Word).toNat ∧ (0xfffffffff013ffff#64 : Word).toNat + 1 ≤ 0xfffffffff0140000) ∧
    (0xfffffffff0080000 ≤ (0xfffffffff0080000#64 : Word).toNat ∧ (0xfffffffff00fffff#64 : Word).toNat < 0xfffffffff0100000) ∧
    ((0xfffffffff007ffff#64 : Word).toNat < 0xfffffffff0080000 ∧ 0xfffffffff0080000 < (0xfffffffff007ffff#64 : Word).toNat + 2) ∧
    (0xffffffffff000000 ≤ (0xffffffffffbffff8#64 : Word).toNat ∧ (0xffffffffffbffff8#64 : Word).toNat + 8 ≤ 0xffffffffffc00000 ∧
      user.ctx.r.sup = false ∧ base.ctx.r.sup = true ∧ (0xffffffffffbffff8#64 : Word).toNat % 8 = 0) ∧
    (0xffffffefffffff0#64 : Word).toNat + 16 ≤ 0xfffffff000000000 := by decide +kernel

/-- s1 holds the last 16 bytes of the own scratchpad. -/
def atTop : State := setS user [(1#6, 0xfffffffff007fff0#64)]

theorem witness_LocalLoadsLand : atTop.on 0#4 = true ∧
    atTop.target .scalar (ea atTop 1#6 15#15) 1 = .here (locScratch 0 0x7ffff) ∧ Readable atTop (locScratch 0 0x7ffff) 1 ∧
    atTop.target .scalar (ea atTop 1#6 14#15) 2 = .here (locScratch 0 0x7fffe) ∧ Readable atTop (locScratch 0 0x7fffe) 2 ∧
    atTop.target .scalar (ea atTop 1#6 12#15) 4 = .here (locScratch 0 0x7fffc) ∧ Readable atTop (locScratch 0 0x7fffc) 4 ∧
    atTop.target .scalar (ea atTop 1#6 8#15) 8 = .here (locScratch 0 0x7fff8) ∧ Readable atTop (locScratch 0 0x7fff8) 8 ∧
    atTop.target .scalar (ea atTop 1#6 0#15) 16 = .here (locScratch 0 0x7fff0) ∧ Readable atTop (locScratch 0 0x7fff0) 16 := by
  unfold Readable; decide +kernel

/-- The first granule of the scratchpad is poisoned. -/
def tainted : State := user.setPoison (locScratch 0 0)

theorem witness_LocalStoresWrite : atTop.on 0#4 = true ∧
    (atTop.target .scalar (ea atTop 1#6 15#15) 1 = .here (locScratch 0 0x7ffff) ∧ Writable atTop (locScratch 0 0x7ffff) 1) ∧
    (atTop.target .scalar (ea atTop 1#6 14#15) 2 = .here (locScratch 0 0x7fffe) ∧ Writable atTop (locScratch 0 0x7fffe) 2) ∧
    (atTop.target .scalar (ea atTop 1#6 12#15) 4 = .here (locScratch 0 0x7fffc) ∧ Writable atTop (locScratch 0 0x7fffc) 4) ∧
    (atTop.target .scalar (ea atTop 1#6 8#15) 8 = .here (locScratch 0 0x7fff8) ∧ Writable atTop (locScratch 0 0x7fff8) 8) ∧
    (atTop.target .scalar (ea atTop 1#6 0#15) 16 = .here (locScratch 0 0x7fff0) ∧ Writable atTop (locScratch 0 0x7fff0) 16) ∧
    setHas tainted.poison (locScratch 0 0) = true ∧ 0 < [1#8].length ∧ 7 + [1#8].length ≤ 8 ∧ [1#8].length < 8 ∧
    (List.replicate 8 1#8).length = 8 := by
  unfold Writable; decide +kernel

/-- s1 holds the address of TVEC of tower 7 at supervisor level. -/
def atTvec : State := setS base [(1#6, BitVec.ofNat 64 (0xffffffffff000000 + oTVEC 7))]

/-- An atomic addition in flight. -/
def adding : Access := { id := 1, bc := 0#64, pos := .s, i := .aadd 0#4 1#6 2#6 1#1, core := 0, sup := false, gm := 0#32, addrs := [0#64] }

/-- A register write of the strand has still to take effect. -/
def writing : State := { atTvec with agenda := [{ i := .bheldWrite, by' := atTvec.me + 1 }] }

theorem witness_RemoteAndWindowAccesses : user.on 0#4 = true ∧ user.ctx.st ≠ .stopped ∧ user.flightFull = false ∧ user.inSeg = false ∧
    user.target .scalar (ea user 1#6 255#15) 1 = .remote .paged 255 ∧ user.target .scalar (ea user 1#6 255#15) 2 = .remote .paged 255 ∧
    user.target .scalar (ea user 1#6 255#15) 4 = .remote .paged 255 ∧ user.target .scalar (ea user 1#6 255#15) 8 = .remote .paged 255 ∧
    user.target .scalar (ea user 1#6 255#15) 16 = .remote .paged 255 ∧ (Win.paged ≠ .csr) ∧
    (segmented.on 0#4 = true ∧ segmented.ctx.seg.isSome = true ∧ segmented.ctx.r.sup = false ∧
      segmented.target .scalar (ea segmented 1#6 8#15) 8 = .remote .paged 8 ∧ segmented.heldCount ≤ 254) ∧
    (atTvec.on 0#4 = true ∧ atTvec.target .scalar (ea atTvec 1#6 0#15) 8 = .remote .csr (oTVEC 7) ∧ atTvec.ctx.st ≠ .stopped ∧
      atTvec.flightFull = false ∧ atTvec.writesLeft = false) ∧
    (writing.on 0#4 = true ∧ writing.target .scalar (ea writing 1#6 0#15) 8 = .remote .csr (oTVEC 7) ∧ writing.writesLeft = true) ∧
    (adding.addrs = [0#64] ∧ decodeByte adding.core (255#64 : Word).toNat = some (.paged, 255) ∧ Win.paged.isLocal = false ∧
      (255#64 : Word).toNat % 2 ≠ 0 ∧ (240#64 : Word).toNat % 16 = 0) := by decide +kernel

/-- The own scratchpad at s1, and 5 in s2. -/
def watching : State := setS user [(1#6, 0xfffffffff0000000#64), (2#6, 5#64)]

/-- A strand whose bundle held a DRAIN.A at scope 2. -/
def draining (s : State) : State := s.withCtx fun c => { c with drn := 3#3, drnScope := 2 }

/-- What the walk for the line that PFT names finds. -/
def prefetched : State × Xres := Machine.translate user (.core user.here) (ea user 1#6 64#15).toNat user.ctx.r.sup .read

theorem witness_PrefetchDrainAndWait : user.on 0#4 = true ∧ (ea user 1#6 64#15).toNat < 0xfffffff000000000 ∧
    prefetched.2 = .ok 0x40000040 false ∧ prefetched.1.poisonedAt 0x40000040 1 = false ∧ prefetched.1.waitsAt 0x40000040 1 = false ∧
    (draining user).drained (draining user).ctx.drn (draining user).ctx.drnScope = true ∧ (draining user).ctx.drn ≠ 0#3 ∧
    (draining user).ctx.assays = [] ∧ (draining user).ctx.firstDue = none ∧
    (draining (nextOf (exec (.std 0#4 1#6 2#6 8#15) user))).drained 3#3 2 = false ∧
    (draining (nextOf (exec (.std 0#4 1#6 2#6 8#15) user))).ctx.firstDue = none ∧
    watching.target .wait (watching.sr 1#6) 8 = .here (locScratch 0 0) ∧ Readable watching (locScratch 0 0) 8 ∧
    eight watching (locScratch 0 0) ≠ watching.sr 2#6 := by
  unfold Readable; decide +kernel

/-- An ALQ of 16 entries. -/
def crowded : State := user.withRegs fun r => { r with alq := List.replicate 16 ({ id := 1, valid := true, value := 3#64 } : AlqEntry) }

theorem witness_AtomicsAndReductionsIssue : user.on 0#4 = true ∧ user.target .atomic (user.sr 1#6) (if (1#1 : BitVec 1) = 1#1 then 8 else 4) =
      .remote .paged 0 ∧ user.target .atomic (user.sr 1#6) 4 = .remote .paged 0 ∧
    user.ctx.r.alq.length < 16 ∧ user.ctx.seg = none ∧ user.ctx.st ≠ .stopped ∧ 16 ≤ crowded.ctx.r.alq.length ∧ crowded.on 0#4 = true ∧
    CanFly user := by
  unfold CanFly; decide +kernel

theorem witness_AtomicsPerform : 0 < 64 ∧ 8 = accessWidth adding.i ∧ 0x40000ff8 % 8 = 0 ∧ regionOf 0x40000ff8 < 5 ∧
    isAtomicInstr adding.i = true ∧ user.isFenced 0x40000ff8 = false ∧ user.poisonedAt 0x40000ff8 8 = false ∧
    user.badCrcAt 0x40000ff8 8 = false := by decide +kernel

theorem witness_PopqTakesOldestEntry : user.on 0#4 = true ∧ user.ctx.r.alq = [] ∧
    (crowded.ctx.r.alq = { id := 1, valid := true, value := 3#64 } :: crowded.ctx.r.alq.tail ∧
      isSqlen ({ id := 1, valid := true, value := 3#64 } : AlqEntry).i = false) ∧
    ((nextOf (exec (.aadd 0#4 1#6 2#6 1#1) user)).ctx.r.alq.map fun e => e.valid) = [false] ∧
    isSqlen (.sqlen 0#4 0#6) = true := by decide +kernel
/-- Lanes 0 and 31 guarded by p1, s1 at the last 128 bytes of the own scratchpad, s2 four, v1 with its top bit set. -/
def lanes : State := setS (user.withRegs fun r => r.puts [.p 1#4 0x80000001#32 0xffffffff#32, .v 1#6 (1#1024 <<< 1023) (0#1024 - 1#1024)])
  [(1#6, 0xfffffffff007ff80#64), (2#6, 4#64)]

theorem witness_VectorResults : lanes.pr 1#4 = 0x80000001#32 ∧ (0x80000001#32 : BitVec 32) ≠ 0#32 ∧ Width 0#2 8 ∧ Width 1#2 16 ∧ Width 2#2 32 ∧
    (31#5 : BitVec 5).toNat < 32 ∧ (5#3 : BitVec 3).toNat < 6 ∧
    (lanes.vr 1#6).getLsbD 1023 = true ∧ (∀ j, j < 1023 → (lanes.vr 1#6).getLsbD j = false) ∧ lanes.vr 2#6 = 0#1024 := by
  unfold Width; decide +kernel

theorem witness_VectorFloatResults : lanes.pr 1#4 = 0x80000001#32 ∧ (0x80000001#32 : BitVec 32) ≠ 0#32 ∧ lanes.pr 0#4 ≠ 0#32 ∧
    CvtType 10#4 8 ∧ 8 * ((3#3).toNat + 1) ≤ 32 ∧ CvtType 4#4 4 ∧ 4 * ((7#3).toNat + 1) ≤ 32 := by
  unfold CvtType; decide +kernel

theorem witness_RoundingAndWindowSums : (-149 : Int) < -148 ∧ 2 = 2 ^ (-148 - -149 : Int).toNat ∧ 2 * (3 % 2) = 2 ∧ 2 % 2 = 0 ∧
    0x7f7f < 2 ^ (Fmt.bf16.width + 1) ∧ Fmt.bf16.val 0x7f7f ≠ .nan ∧ 2 ^ 32 - 1 < 2 ^ 32 ∧
    [Term.num 1 24, .num 1 0].Perm [.num 1 0, .num 1 24] := by decide +kernel

theorem witness_VectorAccesses_load : lanes.pr 1#4 = 0x80000001#32 ∧
    LanesHere lanes 0x80000001#32 4 (fun i => BitVec.ofInt 64 ((lanes.sr 1#6).toInt + 16 * (0#15).toInt + 4 * i)) (fun i => locScratch 0 0x7ff80 + 4 * i) ∧
    LanesHere lanes 0x80000001#32 4 (fun i => lanes.sr 1#6 + BitVec.ofNat 64 i * lanes.sr 2#6) (fun i => locScratch 0 0x7ff80 + 4 * i) ∧
    LanesHere lanes 0x80000001#32 4 (fun i => BitVec.ofNat 64 ((lanes.sr 1#6).toNat + (lane (lanes.vr 2#6) i).toNat * 2 ^ (3#2).toNat))
      (fun _ => locScratch 0 0x7ff80) ∧
    (lanes.target .vector (BitVec.ofInt 64 ((lanes.sr 1#6).toInt + 4 * (31#15).toInt)) 4 = .here (locScratch 0 0x7fffc) ∧
      Readable lanes (locScratch 0 0x7fffc) 4) ∧
    LanesHere lanes 0x80000001#32 2 (fun i => lanes.sr 1#6 + BitVec.ofNat 64 (64 * (1#5).toNat + 2 * ((lane (lanes.vr 2#6) i).toNat % 32)))
      (fun _ => locScratch 0 0x7ffc0) := by
  unfold LanesHere Readable; decide +kernel

theorem witness_VectorAccesses_store : (∀ i, i < 32 → (0x80000001#32).getLsbD i = true →
      lanes.target .vector (BitVec.ofInt 64 ((lanes.sr 1#6).toInt + 16 * (0#15).toInt + 4 * i)) 4 = .here (locScratch 0 0x7ff80 + 4 * i) ∧
      Writable lanes (locScratch 0 0x7ff80 + 4 * i) 4) ∧
    (∀ i, i < 32 → (0x80000001#32).getLsbD i = true →
      lanes.target .vector (lanes.sr 1#6 + BitVec.ofNat 64 i * lanes.sr 2#6) 4 = .here (locScratch 0 0x7ff80 + 4 * i)) ∧
    (∀ i, i < 32 → (0x80000001#32).getLsbD i = true →
      lanes.target .vector (BitVec.ofNat 64 ((lanes.sr 1#6).toNat + (lane (lanes.vr 2#6) i).toNat * 2 ^ (0#2).toNat)) 4 =
        .here (locScratch 0 0x7ff80) ∧ Writable lanes (locScratch 0 0x7ff80) 4) := by
  unfold Writable; decide +kernel

theorem witness_VectorAccesses_remote : user.pr 0#4 = 0xffffffff#32 ∧ CanFly user ∧
    LanesAway user 0xffffffff#32 4 (fun i => 0#64 + BitVec.ofNat 64 (4 * i)) ∧
    user.oneWindow 4 (lanesAt 0xffffffff#32 fun i => 0#64 + BitVec.ofNat 64 (4 * i)) = true ∧
    LanesAway user 0xffffffff#32 4 (fun i => user.sr 1#6 + BitVec.ofNat 64 i * user.sr 2#6) ∧
    LanesAway user 0xffffffff#32 4 (fun i => user.sr 1#6 + ((lane (user.vr 2#6) i).setWidth 64 <<< (3#2).toNat)) ∧
    (∃ w l, user.target .vector (BitVec.ofInt 64 ((user.sr 1#6).toInt + 4 * (1#15).toInt)) 4 = .remote w l) ∧
    LanesAway user 0xffffffff#32 2 (fun i => user.sr 1#6 + BitVec.ofNat 64 (64 * (31#5).toNat + 2 * ((lane (user.vr 2#6) i).toNat % 32))) := by
  have h1 : ∀ i, i < 32 → (0xffffffff#32).getLsbD i = true → user.target .vector (0#64 + BitVec.ofNat 64 (4 * i)) 4 = .remote .paged (4 * i) := by
    decide +kernel
  have h2 : ∀ i, i < 32 → (0xffffffff#32).getLsbD i = true → user.target .vector (user.sr 1#6 + BitVec.ofNat 64 i * user.sr 2#6) 4 =
      .remote .paged 0 := by decide +kernel
  have h3 : ∀ i, i < 32 → (0xffffffff#32).getLsbD i = true →
      user.target .vector (user.sr 1#6 + ((lane (user.vr 2#6) i).setWidth 64 <<< (3#2).toNat)) 4 = .remote .paged 0 := by decide +kernel
  have h4 : ∀ i, i < 32 → (0xffffffff#32).getLsbD i = true →
      user.target .vector (user.sr 1#6 + BitVec.ofNat 64 (64 * (31#5).toNat + 2 * ((lane (user.vr 2#6) i).toNat % 32))) 2 =
        .remote .paged 1984 := by decide +kernel
  exact ⟨by decide +kernel, by unfold CanFly; decide +kernel, fun i a b => ⟨_, _, h1 i a b⟩, by decide +kernel,
    fun i a b => ⟨_, _, h2 i a b⟩, fun i a b => ⟨_, _, h3 i a b⟩, ⟨.paged, 4, by decide +kernel⟩, fun i a b => ⟨_, _, h4 i a b⟩⟩

/-- A generator seeded from s1 and s2. -/
def seeded : State := nextOf (exec (.rbseed 0#4 1#6 2#6) user)

theorem witness_RandomBitsAndBuckets : user.on 0#4 = true ∧ seeded.on 0#4 = true ∧ seeded.ctx.r.rbQueue.length = 16 ∧
    12 < (seeded.ctx.r.rbQueue.tail).length ∧
    ((seeded.withRegs fun r => { r with rbQueue := r.rbQueue.drop 3 }).ctx.r.rbQueue.tail).length ≤ 12 ∧ user.pr 0#4 ≠ 0#32 ∧
    (BitVec.ofInt 32 (-1)).toInt < 0 ∧ (15#32 : BitVec 32).toNat < 16 ∧ 3072 ≤ (3072#32 : BitVec 32).toInt ∧ (7#32 : BitVec 32).toNat < 8 ∧
    -8 < (BitVec.ofInt 32 (-7)).toInt := by decide +kernel

/-- A product of 64 × 64 × 32 and a softmax over one row. -/
def tiling : State := user.withRegs fun r => r.puts [.g 44#6 0x204040#64, .g 47#6 0x12001#64, .s 1#6 0xfffffffff0000000#64, .s 2#6 0#64]

/-- An NMU operation issued, with its completion the event. -/
def issued (i : Instr) : State :=
  at_ (nextOf (exec i tiling)) { i := .nmuOperationComplete, x := 0, y := ((nextOf (exec i tiling)).core.nmuq.headD default).id }

theorem witness_NmuOperations_issue : tiling.pr 0#4 ≠ 0#32 ∧
    productTrap tiling.ngs (streams tiling.ngs (shapeOf (tiling.ngs.getD 4 0#64)) 0 0) false 0x80000 = none ∧
    (((streams tiling.ngs (shapeOf (tiling.ngs.getD 4 0#64)) 0 0).map
      (fun q => (locScratch tiling.here (streamSpan q).1, locScratch tiling.here (streamSpan q).2, false))).any tiling.rangeRefused) = false ∧
    tiling.nmuQuarantined tiling.here = false ∧
    tiling.sbRoom ((streams tiling.ngs (shapeOf (tiling.ngs.getD 4 0#64)) 0 0).map
      (fun q => (locScratch tiling.here (streamSpan q).1, locScratch tiling.here (streamSpan q).2, false))).length = true ∧
    tiling.sbRoom 0 = true ∧ tiling.sbRoom 1 = true ∧
    tiling.tileRange (tiling.sr 1#6) (tiling.sr 2#6) false false false = .ok (locScratch 0 0, locScratch 0 256, false) ∧
    tiling.tileRange (tiling.sr 1#6) (tiling.sr 2#6) true false true = .ok (locScratch 0 0, locScratch 0 512, true) ∧
    softOk (tiling.ngs.getD 7 0#64) = true ∧ softOk (user.ngs.getD 7 0#64) = false := by decide +kernel

theorem witness_NmuOperations_gang : productTrap tiling.ngs (streams tiling.ngs (shapeOf (tiling.ngs.getD 4 0#64))
      ((gangPos (tiling.ngs.getD 5 0#64)).2.2.1 * (shapeOf (tiling.ngs.getD 4 0#64)).m)
      ((gangPos (tiling.ngs.getD 5 0#64)).2.2.2 * (shapeOf (tiling.ngs.getD 4 0#64)).n)) (!gangOk (tiling.ngs.getD 5 0#64)) 0x600000 = none ∧
    (tiling.gangs.find? fun k => k.clu == cluOf tiling.here && k.gid == bits (tiling.ngs.getD 5 0#64) 2 0) = none ∧
    (((nextOf (exec (.mmag 0#4 3#2 1#1) tiling)).gangs.find? fun h => h.clu == 0 && h.gid == 0 && !h.started).any fun g => g.whole) = true := by
  decide +kernel

/-- The operation that the event of issued completes may perform. -/
def readyOf (i : Instr) : Bool :=
  (((issued i).coreAt 0).nmuq.find? fun q => q.id == (issued i).ev.y).any fun op => ((issued i).coreAt 0).nmuReady op && op.i == i

theorem witness_NmuOperations_turn : readyOf (.mma 0#4 3#2 1#1) = true ∧ (((issued (.mma 0#4 3#2 1#1)).coreAt 0).tile 3#2).poison = false ∧ readyOf (.zld 0#4 3#2 1#6 2#6 0#1 0#1) = true ∧
    (((issued (.zld 0#4 3#2 1#6 2#6 0#1 0#1)).coreAt 0).sb.find? fun k => setHas
      (((issued (.zld 0#4 3#2 1#6 2#6 0#1 0#1)).core.nmuq.headD default).sbs) k.id).isSome = true := by decide +kernel

theorem witness_NmuOperations_softmax :
    nanmax 0xff800000#32 ((List.range 32).foldl (fun acc j => nanmax acc ((fun _ => 0xff800000#32) j)) 0xff800000#32) = 0xff800000#32 ∧
    nanmax 0x40400000#32 ((List.range 64).foldl (fun acc j => nanmax acc ((fun j => if j = 63 then 0x40800000#32 else 0xff800000#32) j))
      0xff800000#32) = 0x40800000#32 ∧ (valF 0x40800000#32).isNan = false := by decide +kernel

theorem witness_ZclrClearsTile : readyOf (.zclr 0#4 3#2 1#1 1#1) = true ∧ readyOf (.zclr 0#4 0#2 1#1 0#1) = true ∧
    readyOf (.zclr 0#4 0#2 0#1 1#1) = true := by decide +kernel

theorem witness_OsmfNormalisesRows : readyOf (.osmf 0#4 3#2) = true := by decide +kernel
/-- 256 bytes from the own scratchpad to the page at 0. -/
def copying : State := user.withRegs fun r => r.puts [.g 0#6 256#64, .g 1#6 0xfffffffff0000000#64]
/-- Sixteen copies queued. -/
def fullQueue : State := copying.withCtx fun c => { c with eq := List.replicate 16 ({ id := 9, i := .cpy 0#4, w := [], x := 0, core := 0, sup := false } : Cmd) }

/-- The checks of a copy pass with this many ranges. -/
def copyPasses (s : State) (i : Instr) (n : Nat) : Bool := match s.copyCheck i s.cgs with
  | .ok rs => rs.length == n
  | .error _ => false

/-- The record of the next command can be stored at once (R208). -/
def records (t : State) (w : List Word) : Bool :=
  okAnd (t.eqStore (.core t.here) t.here t.ctx.r.tfb (0x100 + 64 * ((t.ctx.eqHead + t.ctx.eq.length) % 16)) w) fun v =>
    isOk (v.eqStore (.core t.here) t.here t.ctx.r.tfb 0
      [BitVec.ofNat 64 t.ctx.eqHead, BitVec.ofNat 64 (t.ctx.eqHead + t.ctx.eq.length + 1)])

theorem witness_CommandsQueue_records :
    records (entered copying [(locScratch 0 0, locScratch 0 256, true)]) (List.replicate 8 1#64) = true := by decide +kernel

theorem witness_CommandsQueue : copying.on 0#4 = true ∧ copyPasses copying (.cpy 0#4) 1 = true ∧ copying.ctx.eq.length < 16 ∧
    copying.sbRoom 1 = true ∧ copyPasses user (.cpy 0#4) 1 = false ∧ copyPasses fullQueue (.cpy 0#4) 1 = true ∧ 16 ≤ fullQueue.ctx.eq.length ∧
    user.collTrap (.cbcst 0#4) user.kgs = none ∧ user.ctx.seg = none ∧ fullQueue.collTrap (.cbcst 0#4) fullQueue.kgs = none ∧
    (user.collTrap (.cbcst 0#4) [64#64, 0xffffffff00000001#64, 1#64]).isSome = true := by decide +kernel

/-- The copy queued, with an event that names it. -/
def queued (i : Instr) : State := at_ (nextOf (exec (.cpy 0#4) copying)) { i := i, x := 0, y := ((nextOf (exec (.cpy 0#4) copying)).ctx.eq.headD default).id }
/-- Its command. -/
def cmd : Cmd := (queued .copyCommandStart).ctx.eq.headD default
/-- The copy with its payload complete. -/
def copied : State := (queued .copyCommandComplete).withCtx fun c => { c with eq := [{ cmd with running := true, prog := cmd.total }] }

/-- The words of a queue's record, as its engine reads them. -/
def recordOf (s : State) (c : Cmd) : Except Stop (List Word × State) :=
  s.getWordsVA (.cluster (cluOf c.core)) s.here (s.ctx.r.tfb + BitVec.ofNat 64 (0x7c00 + 64 * (s.ctx.eqHead % 16))) 8

/-- The queued copy while the HBM4 of its record's tower commits its hash. -/
def stalledCopy : State := (queued .copyCommandStart).setReg (oHCOMMIT 0) 0x100#64

theorem witness_CommandsRun : (queued .copyCommandStart).ctx.eq = [cmd] ∧ cmd.id = (queued .copyCommandStart).ev.y ∧
    (queued .copyCommandStart).ctx.eqStop = false ∧ cmd.running = false ∧ cmd.faulted = false ∧
    (queued .copyCommandStart).enginesBusy (cluOf cmd.core) < 4 ∧ (queued .copyCommandStart).cmdFree (queued .copyCommandStart).ctx cmd = true ∧
    (queued .copyCommandStart).nextInTurn cmd = true ∧ isOk (recordOf (queued .copyCommandStart) cmd) = true ∧
    stalledCopy.ctx.eq = [cmd] ∧ stalledCopy.enginesBusy (cluOf cmd.core) < 4 ∧ stalledCopy.cmdFree stalledCopy.ctx cmd = true ∧
    stalledCopy.nextInTurn cmd = true ∧ waits (recordOf stalledCopy cmd) = true := by decide +kernel

theorem witness_CommandsRun_end : (copied.ctx.eq.all fun c => c.id == copied.ev.y && c.i == Instr.cpy 0#4 && c.running && decide (c.total ≤ c.prog) && !c.seg && c.sealed.isNone &&
      !(c.w.getD 0 0#64).getLsbD 60 && c.core == copied.here && isOk ((copied.finishSb copied.here c.sbs).eqStore (.cluster (cluOf copied.here))
        copied.here copied.ctx.r.tfb 0 [BitVec.ofNat 64 (copied.ctx.eqHead + 1), BitVec.ofNat 64 (copied.ctx.eqHead + copied.ctx.eq.length), 0#64])) = true ∧
    copied.ctx.eq.length = 1 ∧
    (queued .engineCommandFault).ctx.eq = [cmd] ∧ cmd.i = .cpy 0#4 ∧ (queued .engineCommandFault).ctx.gone = false ∧
    (queued .engineCommandFault).ctx.st ≠ .stopped ∧ cmd.prog < cmd.total ∧
    isOk ((queued .engineCommandFault).eqStore (.cluster (cluOf cmd.core)) (queued .engineCommandFault).here (queued .engineCommandFault).ctx.r.tfb
      0x10 [BitVec.ofNat 64 (cmd.prog / 256 * 256), 1#64]) = true := by decide +kernel

/-- The copy with its seal written and an invalidation of it still to accept on core 1. -/
def sealing : State := { copied.withCtx fun c => { c with eq := [{ cmd with w := [0x8000000000000000#64], running := true, prog := cmd.total, sealed := some [0x40000000] }] } with
  inval := [⟨1, 0x40000000, [], false, 0⟩] }

theorem witness_CommandsRun_sealed : sealing.ctx.eq.length = 1 ∧ (sealing.ctx.eq.all fun c => c.id == sealing.ev.y && c.i == Instr.cpy 0#4 && c.running &&
    decide (c.total ≤ c.prog) && !c.seg && c.sealed == some [0x40000000] &&
    (sealing.inval.any fun v => !v.acc && [0x40000000].contains v.line && inScope (bits (c.w.getD 0 0#64) 63 61) c.core v.core)) = true := by decide +kernel

/-- The one piece to which a side resolves, and the state after. -/
def piece (s : State) (need : Need) (va n : Nat) : Option (Nat × Nat × Bool) × State := match s.sideResolve cmd need va n with
  | .ok ([p], t) => (some p, t)
  | _ => (none, s)

theorem witness_CommandsRun_move : (piece user .read 0 256).1 = some (0x40000000, 256, false) ∧
    ((piece (piece user .read 0 256).2 .write 0xfffffffff0000000 256).1.map fun p => (p.1, p.2.1)) = some (locScratch 0 0, 256) ∧
    regionOf 0x40000000 = 0 ∧ regionOf (locScratch 0 0) = 1 ∧ cmd.seg = false ∧
    Clean (piece (piece user .read 0 256).2 .write 0xfffffffff0000000 256).2 ∧
    (piece (piece user .read 0 256).2 .write 0xfffffffff0000000 256).2.fenced = 0#8 := by
  unfold Clean; decide +kernel

/-- A broadcast of one part and no bytes queued, with a key, and then joined. -/
def gathered (key : Word) : State :=
  let t := nextOf (exec (.cbcst 0#4) (user.withRegs fun r => r.put (.g 61#6 key)))
  at_ t { i := .collectiveArrival, x := 0, y := (t.ctx.eq.headD default).id }
def joined : State :=
  let t := nextOf (exec .collectiveArrival (gathered 0x1000#64))
  at_ t { i := .collectiveComplete, x := (t.colls.headD default).id }
/-- Where the key of its one member lies as it completes. -/
def keyAt : Option (Nat × State) := ((joined.collMembers (joined.colls.headD default)).bind List.head?).bind fun c =>
  match joined.sideResolve c .write (c.w.getD 5 0#64).toNat 8 with
  | .ok ([p], u) => some (p.1, u)
  | _ => none

/-- The first command of a state's queue. -/
def head (s : State) : Cmd := s.ctx.eq.headD default

/-- What the key of the head command finds once its record is read. -/
def keyOf (s : State) : Except Stop (List Piece × State) := do
  let (w, u) ← recordOf s (head s)
  (u.onCmd (head s).id fun _ => { head s with w := w }).sideResolve { head s with w := w } .write (w.getD 5 0#64).toNat 8

/-- An operation ends with a fault. -/
def faults {α : Type} (e : Except Stop α) : Bool := match e with
  | .error (.fault _ _ _ _) => true
  | _ => false

theorem witness_CollectivesRun_queued : (gathered 0x1000#64).ctx.eq = [head (gathered 0x1000#64)] ∧
    (head (gathered 0x1000#64)).id = (gathered 0x1000#64).ev.y ∧ 0 < (head (gathered 0x1000#64)).id ∧ (gathered 0x1000#64).ctx.eqStop = false ∧
    (head (gathered 0x1000#64)).faulted = false ∧ (head (gathered 0x1000#64)).joined = false ∧
    (gathered 0xff00000000000#64).ctx.eq.map (fun c => (c.id == (gathered 0xff00000000000#64).ev.y, c.faulted, c.joined)) =
      [(true, false, false)] ∧ (gathered 0xff00000000000#64).ctx.eqStop = false := by decide +kernel

theorem witness_CollectivesRun_record : isOk (recordOf (gathered 0x1000#64) (head (gathered 0x1000#64))) = true := by decide +kernel

theorem witness_CollectivesRun_opens :
    okAnd (keyOf (gathered 0x1000#64)) (fun q => pieceByte q.1 0 == 0x40001000 && q.2.colls.isEmpty && !q.2.collsShut 0x40001000) = true := by decide +kernel

theorem witness_CollectivesRun_faults : faults (keyOf (gathered 0xff00000000000#64)) = true := by decide +kernel

theorem witness_CollectivesRun_complete :
    ((joined.colls.find? fun h => h.id == joined.ev.x).any fun g => g.i == Instr.cbcst 0#4 && kgParts [g.w0] == 1) = true ∧
    (keyAt.any fun q => q.1 == 0x40001000 && isHbm q.1 && q.1 % 8 == 0 && q.2.fenced == 0#8 && !q.2.waitsAt q.1 8 && q.2.poison.isEmpty &&
      q.2.badcrc.isEmpty) = true := by decide +kernel

theorem witness_CollectivesRun_members :
    ((joined.colls.headD default) |> joined.collMembers).map (fun l => l.map fun c => (c.i, kgLen c.w, kgRank c.w)) =
      some [(.cbcst 0#4, 0, 0)] := by decide +kernel

/-- Rank 1 of two arrives from another module with 64 bytes for a gather. -/
def abroad : State :=
  at_ base { i := .collectiveArrival, x := 0x40001000, v := 0x0001018000000040#64, bytes := List.replicate 64 7#8 }

theorem witness_CollectivesRun_abroad : abroad.ev.y = 0 ∧ abroad.migrating abroad.ev.x = false ∧ (abroad.colls.find? fun g => g.key == abroad.ev.x) = none ∧
    abroad.collsShut abroad.ev.x = false ∧
    (nextOf (exec .collectiveArrival abroad)).colls.map (fun g => g.out.map fun m => (m.1, m.2.1.length)) = [[(1, 64)]] := by
  decide +kernel

/-- Plot 0 owned by core 0, half 0 in compute mode; half 1 as told. -/
def plotted (h1 : Word) : State := setS (user.setReg (oFPLST 0 0) (0x0020000000000004#64 ||| h1)) [(2#6, 32#64), (3#6, 0x100#64)]

theorem witness_FieldInstructionsIssue : user.on 0#4 = true ∧ 32 ≤ ((plotted 0#64).sr 2#6).toNat + (0#5).toNat ∧
    ((user.sr 1#6).toNat + (31#5).toNat < 32 ∧ user.owns user.here (plotOfQ 0 31) = false ∧ user.othersPlot user.here (plotOfQ 0 31) = false ∧
      user.plotsOwned user.here < 8 ∧ user.plotQuarantined (plotTower (plotOfQ 0 31)) (plotOfQ 0 31 % 256) = false ∧
      (user.plotWord (plotOfQ 0 31)).getLsbD 63 = false) ∧
    (user.setReg (oFPLST 0 0) (0x0060000000000000#64)).othersPlot 0 0 = true ∧ (user.setReg (oFPLST 0 0) (0x0060000000000000#64)).owns 0 0 = false ∧
    plotOfQ 0 0 = 0 ∧ (plotted 0#64).owns 0 0 = true ∧ plCompute ((plotted 0#64).plotIssued 0) 1 = false ∧
    plCompute ((plotted 0#64).plotIssued 0) 0 = true ∧ plLoading ((plotted 0#64).plotIssued 0) 1 = false ∧
    plLoading ((plotted 0xc0#64).plotIssued 0) 1 = true ∧
    (((plotted 0#64).sr 3#6).toNat % 256 = 0 ∧ ((plotted 0#64).sr 3#6).toNat + 0x108000 ≤ 0xfffffff000000000 ∧
      plAct ((plotted 0#64).plotIssued 0) ≠ (1#1).toNat) ∧
    plCompute ((plotted 0x40#64).plotIssued 0) (1 - plAct ((plotted 0x40#64).plotIssued 0)) = true ∧
    (base.ctx.r.sup = true ∧ 0 = 256 * (base.here / 192) + (base.sr 1#6).toNat % 256 ∧ (base.plotWord 0).getLsbD 53 = false ∧
      plCompute (base.plotWord 0) 0 = false ∧ plCompute (base.plotWord 0) 1 = false ∧ plLoading (base.plotWord 0) 0 = false ∧
      plLoading (base.plotWord 0) 1 = false ∧ (base.sr 1#6).toNat / 256 % 8 < 4 ∧ (base.plotWord 0).getLsbD 35 = false) := by decide +kernel

/-- The first field operation of a state, its turn come. -/
def turnOf (s : State) : Option (Nat × Bool) :=
  ((at_ s { i := .fmapArrival, y := (s.fops.headD default).id }).fops.find? fun o => o.id == (s.fops.headD default).id).map
    fun o => (o.kind, s.fopReady o && !o.started)

theorem witness_FieldOperationsPerform : turnOf (nextOf (exec (.fmap 0#4 1#6 31#5) user)) = some (0, true) ∧
    turnOf (nextOf (exec (.fmapRel 0#4 1#6 0#5) (plotted 0#64))) = some (1, true) ∧
    turnOf (nextOf (exec (.fmode 0#4 1#6 1#1 1#1 0#5) (plotted 0#64))) = some (2, true) ∧
    turnOf (nextOf (exec (.fload 0#4 3#6 1#6 1#1 1#1 0#5) (plotted 0#64))) = some (3, true) ∧
    turnOf (nextOf (exec (.fswap 0#4 1#6 0#5) (plotted 0x40#64))) = some (4, true) ∧
    (at_ (user.withCtx fun c => { c with ops := [7] }) { i := .reloadFault, y := 7 }).ev.y ∈ (user.withCtx fun c => { c with ops := [7] }).ctx.ops ∧ user.ctx.gone = false := by decide +kernel

/-- A table of one step on plot 0, with a gather index base as told. -/
def tabled (gbase : Word) : State := (plotted 0#64).withRegs fun r => r.puts
  [.g 11#6 gbase, .g 16#6 1#64, .g 20#6 1#64, .g 24#6 1#64, .g 28#6 1#64, .g 32#6 1#64, .g 36#6 1#64]
/-- Its nest committed, and taken by the sequencer. -/
def committed (gbase : Word) : State := at_ (nextOf (exec (.fgo 0#4) (tabled gbase))) { i := .nestStart, x := 0 }
def running (gbase : Word) : State := at_ (nextOf (exec .nestStart (committed gbase))) { i := .nestStep, x := 0 }

theorem witness_NestsCommitAndRun_issue : (tabled 0#64).on 0#4 = true ∧ ftIll (tabled 1#64).shadowTable = true ∧
    ftIll user.shadowTable = false ∧ ftEmpty user.shadowTable = true ∧
    ftIll (tabled 0#64).shadowTable = false ∧ ftEmpty (tabled 0#64).shadowTable = false ∧
    (((tabled 0#64).core.commits.any fun n => n.x == (tabled 0#64).me) = false ∧ (committed 0#64).core.commits.length = 1 ∧
      ((committed 0#64).core.commits.any fun n => n.x == (committed 0#64).me) = true) := by decide +kernel

/-- The nest that runs. -/
def nest (gbase : Word) : Nest := (((running gbase).coreAt 0).nest).getD default

theorem witness_NestsCommitAndRun_run : ((committed 0#64).coreAt 0).nest = none ∧ ((committed 0#64).coreAt 0).commits.length = 1 ∧
    ((nest 0#64).step < ftSteps (nest 0#64).ft ∧ (nest 0#64).away = false ∧ (running 0#64).nestReady 0 (nest 0#64) = true ∧ (nest 0#64).seg = false ∧
      ((running 0#64).nestPoint 0 (nest 0#64).ft (nest 0#64).step).isSome = true) ∧
    ((nest 4#64).step < ftSteps (nest 4#64).ft ∧ (running 4#64).nestReady 0 (nest 4#64) = true ∧
      (running 4#64).nestPoint 0 (nest 4#64).ft (nest 4#64).step = none) ∧
    (((running 0#64).withCore fun c => { c with nest := some { nest 0#64 with step := 1 } }).coreAt 0).coll = [] ∧
    ftSteps (nest 0#64).ft ≤ 1 := by decide +kernel

theorem witness_NestsCommitAndRun_collect :
    ((user.withCore fun c => { c with coll := [(65535, true, [1#32], [false])] }).coreAt 0).coll = [(65535, true, [1#32], [false])] ∧
    Clean user ∧ (∀ b ∈ [false], b = false) ∧ (user.coreAt 0).nest = none := by
  unfold Clean; decide +kernel

/-- Row 0 of macro half 0 under refetch, with an origin at 0x100000. -/
def refetching : State :=
  at_ { (base.setReg (oFORG 0 0 0) 0x100001#64) with refetch := [(0, 0)] } { i := .rowRefetchComplete, x := 0, y := 0 }

theorem witness_RowChecksAndAssays_rows : (at_ segmented { i := .rowCheck, x := 5, y := 263, z := 1 }).ctx.seg.isSome = true ∧
    ((segmented.findCtx fun c => c.owed.any fun q => q.1 == 5).map fun q => q.1) = none ∧
    (0 < 264 ∧ (0, 0) ∈ refetching.refetch ∧ (refetching.reg (oFORG (plotTower (0 / 128)) (0 / 128 % 256) (0 % 2))).getLsbD 0 = true ∧
      (match (refetching.originLine (plotTower (0 / 128)) (192 * plotTower (0 / 128)) true (originRow 0x100001#64 0 0)).2 with
        | .line bs false none => bs.length == 64
        | _ => false) = true) := by decide +kernel

/-- An assay of plot 0 that expects its own digest. -/
def expecting : Assay := ⟨1, 0, 3, assayDigest 0 3, false⟩
/-- Its strand, with its outcome the event. -/
def assaying (z : Nat) : State := at_ (user.withCtx fun c => { c with assays := [expecting] }) { i := .assayOutcome, y := 1, z := z }

theorem witness_RowChecksAndAssays_assay : (plotted 0#64).on 0#4 = true ∧ (plotted 0#64).owns 0 (plotOfQ 0 (0#5).toNat) = true ∧
    (user.ctx.r.sup = false ∧ user.owns user.here (plotOfQ user.here (31#5).toNat) = false) := by decide +kernel

theorem witness_RowChecksAndAssays_outcome : ((assaying 0).ctx.assays.find? fun b => b.id == (assaying 0).ev.y) = some expecting ∧
    (assaying 0).ev.z = 0 ∧ assayDigest expecting.q expecting.seed = expecting.dig ∧
    ((assaying 1).ctx.assays.find? fun b => b.id == (assaying 1).ev.y) = some expecting ∧ (assaying 1).ev.z ≠ 0 ∧
    expecting.seg = false ∧ expecting.q < 32 ∧ (assaying 1).ctx.r.deep = false ∧ (assaying 1).ctx.st ≠ .stopped :=
  ⟨rfl, rfl, rfl, rfl, by decide, rfl, by decide, by decide +kernel, by decide +kernel⟩

/-- A descriptor at 0x100 with CL 1, RL 2 and STATE 1. -/
def sequenced : State := setS ((user.putBytes 0x40000100 ([1#8] ++ List.replicate 7 0#8 ++ [2#8])).putBytes 0x40000160 [1#8])
  [(1#6, 0x100#64), (2#6, 1#64), (3#6, 1#64), (4#6, 300#64)]

/-- A store of an earlier bundle is in flight. -/
def stored (s : State) : State := (nextOf (exec (.std 0#4 0#6 2#6 0#15) s)).withCtx fun c => { c with stepId := 1000 }

theorem witness_SequencesIssue : sequenced.on 0#4 = true ∧ sequenced.ctx.seg = none ∧ (sequenced.sr 1#6).toNat < 0xfffffff000000000 ∧
    (sequenced.sr 1#6).toNat % 256 = 0 ∧ sequenced.ctx.r.alq.length < 15 ∧ bits (sequenced.gr 52) 15 0 = 0 ∧
    (sequenced.sr 2#6).toNat % 256 ≠ 0 ∧ repairTrap sequenced.here sequenced.qgs false = none ∧
    repairTrap sequenced.here sequenced.qgs true = none ∧ sequenced.drainedOf (fun f => sequenced.ctx.earlier f.id) 1#3 4 = true ∧
    (stored sequenced).drainedOf (fun f => (stored sequenced).ctx.earlier f.id) 1#3 4 = false ∧
    16 ≤ crowded.ctx.r.alq.length ∧ (crowded.sr 1#6).toNat % 256 = 0 := by decide +kernel

/-- The request of a sequence instruction, with its event. -/
def requested (i : Instr) : State :=
  at_ (nextOf (exec i sequenced)) { i := .sequenceUnitOperation, y := ((nextOf (exec i sequenced)).sqq.headD default).id }
/-- Its descriptor: STATE, CL, RL, and the operands, where it is ready and answers. -/
def reqOf (i : Instr) : Option (List Nat) :=
  (((requested i).sqq.find? fun r => r.id == (requested i).ev.y).filter fun q => (requested i).seqReady q && !q.quiet).bind fun q =>
    match (requested i).liveDesc q q.a with
    | .ok (d, _) => some [d.st, d.cl, d.rl, d.fills, q.b.toNat, q.c.toNat]
    | .error _ => none

theorem witness_SequencesAnswer : reqOf (.sqlen 0#4 1#6) = some [1, 1, 2, 0, 0, 0] ∧
    reqOf (.sqrsv 0#4 1#6 4#6) = some [1, 1, 2, 0, 300, 0] ∧ 1 + 256 < 2 + 300 ∧
    reqOf (.sqcmt 0#4 2#6 1#6 3#6 4#3) = some [1, 1, 2, 0, 1, 1] ∧ 0 < 1 ∧ 1 ≤ 256 ∧ 1 + 1 ≤ 2 ∧
    (match (requested (.sqlen 0#4 0#6)).sqq with
      | [q] => (match (requested (.sqlen 0#4 0#6)).seqOp q with
        | .error (.fault _ _ _ _) => true
        | _ => false)
      | _ => false) = true ∧
    ((requested (.sqcmt 0#4 2#6 1#6 3#6 4#3)).sqq.any fun q => okAnd ((requested (.sqcmt 0#4 2#6 1#6 3#6 4#3)).liveDesc q q.a) fun l =>
      q.b == l.1.at 0 && isOk (l.2.saveDesc q ((l.1.put 0 (l.1.at 0 + q.c)).putFills 0).bump)) = true := by decide +kernel
/-- Bank 31 of core 0 is wanted by a blocked BACQ of the strand. -/
def wanting : State := at_ (lent.withCtx fun c => { c with acq := 0x80000000#32, r := { c.r with tag := 5#8 } })
  { i := .bankAcquireEffect, x := 0, y := 31, z := 5 }
/-- A release of bank 0 waits. -/
def releasing : State := at_ { lent with brels := [(0, 0, 9)] } { i := .bankReleaseEffect, x := 0, y := 0, z := 9 }
/-- The same while an operation of the holder is in the bank. -/
def releasingBusy : State := releasing.withCore fun c => { c with rng := [{ id := 1, lo := locScratch 0 0, hi := locScratch 0 64, wr := true, x := 0, op := 0, tag := 9#8 }] }
/-- The bank has got another holder meanwhile. -/
def releasingOther : State := { user.holdBank 0 0 8#8 with brels := releasing.brels, ev := releasing.ev }
/-- Counter 63 of core 0 with target 2. -/
def counted : State := at_ (user.setReg (counterAt 0 false 5) (0x200000000#64)) { i := .barrierArrival, y := counterAt 0 false 5 }

theorem witness_BanksAndBarrierCounters : user.on 0#4 = true ∧ 0x80000000#32 = (user.sr 1#6).setWidth 32 ||| ((0x80#8).setWidth 32 <<< (8 * (3#2).toNat)) ∧
    (∀ b, b < 32 → (0x80000000#32).getLsbD b = true → user.mine b = true ∨ user.bankReady user.here b = true) ∧
    (0 < 32 ∧ (0x1#32).getLsbD 0 = true ∧ lent.mine 0 = false ∧ lent.bankReady lent.here 0 = false) ∧
    (∀ b, b < 32 → (0x80000000#32).getLsbD b = true → user.bankBusy user.here b (some user.ctx.r.tag) = false) ∧
    ((wanting.ctxAt wanting.ev.x).any fun c => c.acq.getLsbD wanting.ev.y && c.r.tag == BitVec.ofNat 8 wanting.ev.z) = true ∧
    wanting.bankReady (wanting.ev.x / 4) wanting.ev.y = true ∧
    ((releasing.ev.x, releasing.ev.y, releasing.ev.z) ∈ releasing.brels ∧ releasing.bankBusy 0 0 (some (BitVec.ofNat 8 releasing.ev.z)) = false ∧
      releasing.bankHeld 0 0 = true ∧ releasing.bankTag 0 0 = BitVec.ofNat 8 releasing.ev.z) ∧
    releasingBusy.bankBusy 0 0 (some (BitVec.ofNat 8 releasingBusy.ev.z)) = true ∧
    (releasingOther.bankBusy 0 0 (some 9#8) = false ∧ releasingOther.bankHeld 0 0 = true ∧ releasingOther.bankTag 0 0 ≠ BitVec.ofNat 8 releasingOther.ev.z) ∧
    (counted.spilled = [] ∧ counted.arrivalReady counted.ev.z counted.ev.w = true ∧ 0 < bits (counted.reg counted.ev.y) 44 32 ∧
      bits (counted.reg counted.ev.y) 12 0 + 1 < bits (counted.reg counted.ev.y) 44 32) := by decide +kernel

/-- A channel of two entries, with n of them claimed by a CHENQ and available. -/
def chan (n : Nat) (closed : Bool) : Chan :=
  { desc := 0, base := 0#64, kind := false, clu := 0, esz := 0, cap := 2, high := 1, low := 0, head := 0, deq := 0, avail := n, tail := n,
    closed := closed }
/-- Its stage, which writes and reads channel 0. -/
def stage : Stage where
  entry := 0x100#64
  image := 0#64
  maxi := 1
  mini := 0
  clus := 0xff#8
  urg := false
  rank := 0
  ybud := 0
  outm := 1#32
  inm := 1#32
  homask := 0#32
  rbkey := 0#64
  tfbb := 0#64
  splb := 0#64

/-- A task of a pipeline with that channel, its entry in the own scratchpad. -/
def tasked (n : Nat) (closed : Bool) : State :=
  ({ setS user [(1#6, 0xfffffffff0000000#64)] with pipes := [{ twr := 0, pid := 0, man := 0x2000#64, stages := [stage], chans := [chan n closed] }] } :
    State).withCtx fun c => { c with task := true }
/-- The channel that the checks of a transfer find. -/
def checked (s : State) (out : Bool) : Option Chan := match s.channelCheck 0 out (s.sr 1#6) with
  | .ok (c, _) => some c
  | .error _ => none
/-- A PLAUNCH waits at a dispatcher that is disabled. -/
def launching : State := at_ ({ base with dsp := base.dsp.set 0 0#64, launches := [(0, 0, 0x1000#64)] }) { i := .manifestRead, x := 0, y := 0 }
/-- A write of a doubleword by the dispatcher succeeds. -/
def writes (s : State) (va x : Word) : Bool := match s.dispWrite 0 va x with
  | .ok _ => true
  | .error _ => false

theorem witness_PipelinesLaunchFeedAndEnd : base.on 0#4 = true ∧ base.ctx.r.sup = true ∧ (setS base [(1#6, 32#64)]).sr 1#6 ≠ 0#64 ∧
    ((setS base [(1#6, 32#64)]).sr 1#6).toNat % 64 ≠ 0 ∧ (base.sr 1#6).toNat % 64 = 0 ∧ base.ctx.launched = none ∧ base.ctx.seg = none ∧
    (base.launches.any fun q => q.2.1 == base.me) = false ∧
    ((launching.launches.find? fun q => q.1 == launching.ev.x && q.2.1 == launching.ev.y) = some (0, 0, 0x1000#64) ∧
      (launching.dsp.getD launching.ev.x 0#64).getLsbD 0 = false ∧ launching.me = launching.ev.y ∧ launching.ctx.st ≠ .stopped ∧
      writes launching 0x1008#64 0x0301000000000000#64 = true) := by decide +kernel

theorem witness_PipelinesLaunchFeedAndEnd_channels : (tasked 0 false).on 0#4 = true ∧ (tasked 0 false).ctx.seg = none ∧
    (tasked 0 false).chanAt (tasked 0 false).ctx.home (tasked 0 false).myPid 0 = some (chan 0 false) ∧
    (checked (tasked 0 false) true = some (chan 0 false) ∧ (chan 0 false).full = false ∧ (tasked 0 false).ctx.eq.length < 16 ∧
      (tasked 0 false).sbRoom 1 = true ∧ (tasked 0 false).drainedOf (fun f => (tasked 0 false).ctx.earlier f.id) 1#3 2 = true ∧
      (stored (tasked 0 false)).drainedOf (fun f => (stored (tasked 0 false)).ctx.earlier f.id) 1#3 2 = false) ∧
    records ((tasked 0 false).onChan (tasked 0 false).ctx.home (tasked 0 false).myPid 0 fun x => { x with tail := x.tail + 1 })
      (List.replicate 8 1#64) = true ∧
    records ((tasked 2 false).onChan (tasked 2 false).ctx.home (tasked 2 false).myPid 0 fun x => { x with deq := x.deq + 1 })
      (List.replicate 8 1#64) = true ∧
    (checked (tasked 2 false) true = some (chan 2 false) ∧ (chan 2 false).full = true) ∧
    (checked (tasked 2 false) false = some (chan 2 false) ∧ (tasked 2 false).ctx.r.alq.length < 16 ∧ (chan 2 false).deq < (chan 2 false).avail) ∧
    ((chan 0 true).avail ≤ (chan 0 true).deq ∧ (chan 0 true).closed = true ∧ (chan 0 true).empty = true ∧
      checked (tasked 0 true) false = some (chan 0 true)) ∧
    ({ chan 1 false with fin := [1] } : Chan).fin = [({ chan 1 false with fin := [1] } : Chan).avail] ∧
    setHas (chan 1 false).fin (chan 1 false).avail = false := by decide +kernel

/-- A PLAUNCH waits at an enabled dispatcher for a manifest of one stage at 0x1000 without channels, of at most n instances. -/
def offering (n : Nat) : State :=
  let put := fun (t : State) (o : Nat) (w : Word) => t.putBytes (0x40001000 + o) (natToBytes 8 w.toNat)
  at_ { (put (put (put base 0 0x10100#64) 0x40 0x100#64) 0x50 (BitVec.ofNat 64 (n * 2 ^ 48 + 0xff000000 + 65536))) with
    dsp := base.dsp.set 0 1#64, launches := [(0, 0, 0x1000#64)] } { i := .manifestRead, x := 0, y := 0 }
/-- What the dispatcher reads of it: the stages, and the state after. -/
def manifest (s : State) : Option (List (List Word) × State) := match s.dispRead 0 0x1000#64 8 with
  | .ok (h, s1) => if headerIll h || bits (h.getD 0 0#64) 15 8 != 1 || bits (h.getD 0 0#64) 23 16 != 1 || bits (h.getD 0 0#64) 31 24 != 0 then none
    else match s1.dispRead 0 0x1040#64 16 with
      | .ok (sw, s2) => (match s2.dispRead 0 0x10c0#64 0 with
        | .ok ([], v) => some ([sw], v)
        | _ => none)
      | .error _ => none
  | .error _ => none
/-- A manifest sound in its fields, why the dispatcher refuses it, and whether the answer can be written. -/
def offered (s : State) (answer : Word) : Option (Nat × Option Nat × Bool) := (manifest s).bind fun q =>
  if q.1.any stageIll then none else some (rejection (q.1.map stageOfWords) [], q.2.freeSlot 0, writes q.2 0x1008#64 answer)

theorem witness_PipelinesLaunchFeedAndEnd_manifest :
    ((offering 1).launches.find? fun k => k.1 == (offering 1).ev.x && k.2.1 == (offering 1).ev.y) = some (0, 0, 0x1000#64) ∧
    ((offering 1).dsp.getD (offering 1).ev.x 0#64).getLsbD 0 = true ∧ (offering 1).me = (offering 1).ev.y ∧ (offering 1).ctx.st ≠ .stopped ∧
    offered (offering 1) 0x0100000000000000#64 = some (0, some 0, true) ∧ offered (offering 0) 0x0303000000000000#64 = some (3, some 0, true) := by
  decide +kernel

/-- The result of both: the pipeline stands in slot 0, or none does. -/
theorem test_manifest_accepted : (nextOf (exec .manifestRead (offering 1))).pipes.map (fun p => (p.twr, p.pid, p.stages.length)) = [(0, 0, 1)] ∧
    (nextOf (exec .manifestRead (offering 0))).pipes = [] ∧ (nextOf (exec .manifestRead (offering 0))).byteAt 0x4000100f = 3#8 := by decide +kernel

/-- A pipeline without channels whose stage has ended, killed or not. -/
def ending (killed : Bool) : State := at_
  ({ user with pipes := [{ twr := 0, pid := 5, man := 0x2000#64, stages := [], chans := [], killed := killed }] })
  { i := .pipelineDone, x := 0, y := 5 }

theorem witness_PipelinesLaunchFeedAndEnd_inval :
    (({ ending false with inval := [⟨1, 0, [], false, 0⟩] } : State).inval.any fun v => !v.acc) = true ∧
    ({ ending false with inval := [⟨1, 0, [], true, 0⟩] } : State).inval.all (fun v => v.acc) = true := by decide +kernel

theorem witness_PipelinesLaunchFeedAndEnd_end : ((ending false).pipeAt 0 5).isSome = true ∧ (ending false).pipeBusy 0 5 = false ∧
    (((ending false).pipeAt 0 5).any fun p => !p.killed && (ending false).pipeFinished p && p.chans.isEmpty) = true ∧
    writes { ending false with inval := [] } 0x2008#64 (BitVec.ofNat 64 (2 * 2 ^ 56 + 5)) = true ∧
    (((ending true).pipeAt 0 5).any fun p => p.killed && p.chans.isEmpty) = true ∧
    writes { ending true with inval := [] } 0x2008#64 (BitVec.ofNat 64 (4 * 2 ^ 56 + 5)) = true ∧
    (tasked 0 false).ctxs = [] ∧ (tasked 0 false).ctx.st ≠ .stopped ∧ (tasked 0 false).ctx.ofPipe 0 0 = true := by decide +kernel

theorem witness_RegistersReadWriteAndAct : base.on 0#4 = true ∧ base.ctx.r.sup = true ∧ base.ctx.seg = none ∧
    base.writesLeft = false ∧ ({ base with agenda := [{ i := .plotReleasePerform, y := 1, by' := base.me + 1 }] } : State).writesLeft = true ∧ base.records = [] ∧
    (7 < 8 ∧ 191 < 192 ∧ (at_ base { i := .bheldWrite, x := oBHELD 7 191 }).ev.w = 0#64 ∧
      (∀ b, b < 32 → base.bankBusy (192 * 7 + 191) b none = false)) ∧
    (base.setReg (oHCOMMIT 7) 0x100#64).reg (oHCOMMIT 7) = 0x100#64 ∧ (base.reg (oHCOMMIT 7)).getLsbD 8 = false ∧
    (base.reg (oRTRCTL 7)).getLsbD 8 = false ∧ (base.reg (oRTRCTL 7)).getLsbD 16 = false ∧
    ((base.setReg (oRTRCTL 7) 0x10000#64).reg (oRTRCTL 7)).getLsbD 8 = false ∧ ((base.setReg (oRTRCTL 7) 0x10000#64).reg (oRTRCTL 7)).getLsbD 16 = true ∧ ((base.setReg (oRTRCTL 7) 0x100#64).reg (oRTRCTL 7)).getLsbD 8 = true ∧
    validMasks (base.pendingMasks 7).toList = true ∧ validMasks ((base.setReg (tb 7 0x1000) 0#64).pendingMasks 7).toList = false ∧
    ((plotted 0#64).plotWord 0).getLsbD 53 = true ∧ (base.plotWord 0).getLsbD 53 = false ∧
    bits (3#64) 1 0 = 3 ∧ base.msixMask.getLsbD 3 = false ∧ ({ base with msixMask := 0xff#8 } : State).msixMask.getLsbD 7 = true := by
  decide +kernel

/-- A modified line in the L2 of tower 0, which commits its hash. -/
def heldBack : State := { base.setReg (oHCOMMIT 0) 0x100#64 with l2 := [(0, 0x40000000)], dirty := [(0x40000000, List.replicate 64 1#8)] }

theorem witness_MaintenanceActs : base.on 0#4 = true ∧ base.flushWaits 0 = false ∧ heldBack.flushWaits (bits (heldBack.sr 1#6) 2 0) = true ∧ heldBack.ctx.r.sup = true ∧ heldBack.on 0#4 = true ∧ base.ctx.r.sup = true ∧ base.ctx.seg = none ∧ base.ctx.r.alq.length < 16 ∧
    (base.sr 1#6).toNat < 0xfffffff000000000 ∧ base.ctx.st ≠ .stopped ∧ base.flightFull = false := by decide +kernel

/-- A page of 4 KiB at 0x4000_0000 on physical 0x8000, a strand in context 1, and a MIGR of the page to 0x10000 begun. -/
def migrating : State :=
  let put := fun (t : State) (l v : Nat) => t.putBytes l (natToBytes 8 v)
  let s := put (put (put base 0x4008 0x5001) 0x5000 0x6001) 0x6000 0x8c73
  at_ { s with ctxs := [(1, { user.ctx with st := .ready })], moves := [{ id := 1, slot := 0#4, i := .migr 0#4 1#6 2#6, x := 0, target := 0x40000000, va := 0x10000#64 }] }
    { i := .tableWalk, x := 0, y := 1 }

/-- Another move of that state, and what the checks of one find: the place of its entry, its level and the entry. -/
def moving (m : Move) : State := { migrating with moves := [m] }
def pageAt (s : State) (promo : Bool) (va dst : Word) : Option (Nat × Nat × Word) := match s.moveCheck 0 promo va dst with
  | .ok (p, _) => some p
  | .error _ => none
/-- The same page as one of the host's, to be promoted. -/
def promoting : State := (migrating.putBytes 0x6000 (natToBytes 8 0xc77)).setReg oTRCFG (migrating.reg oTRCFG ||| 0x200000#64)

theorem witness_MovesBeginAndEnd : base.on 0#4 = true ∧ base.ctx.r.sup = true ∧ base.ctx.r.alq.length < 16 ∧
    0 = bits (base.sr 1#6) 12 0 ∧ ((setS base [(2#6, 0x2000#64)]).sr 2#6).toNat % 0x4000 ≠ 0 ∧ (base.sr 2#6).toNat % 0x4000 = 0 ∧ 6143 ≤ 6143 ∧
    migrating.saveFails 1 = false ∧ base.saveFails 0 = true ∧ base.saveFails 6143 = true ∧
    (1 ≠ migrating.me ∧ (migrating.ctxAt 1).isSome = true) ∧
    base.ctx.seg = none ∧ pageAt migrating false 0x40000000#64 0x10000#64 = some (0x6000, 0, 0x8c73#64) ∧
    pageAt promoting true 0x40000000#64 0x10000#64 = some (0x6000, 0, 0xc77#64) ∧
    faults (promoting.moveCheck 0 false 0x40000000#64 0x10000#64) = true ∧ faults (migrating.moveCheck 0 true 0x40000000#64 0x10000#64) = true ∧
    ((migrating.moveOf 0).map Move.id) = none ∧ (0x40000000#64 : Word).toNat < 0xfffffff000000000 := by decide +kernel

theorem witness_MovesBeginAndEnd_mark : ((migrating.moveOf migrating.ev.y).map fun m => (m.x, m.phase, m.target, m.va)) =
      some (0, 0, 0x40000000, 0x10000#64) ∧
    okAnd (migrating.moveCheck 0 false 0x40000000#64 0x10000#64) (fun q => q.1 == (0x6000, 0, 0x8c73#64) && !q.2.waitsAt 0x6000 8 &&
      !q.2.stalled 0x8000 && !q.2.stalled 0x10000 && q.2.poison.isEmpty && q.2.badcrc.isEmpty) = true ∧
    pteAddr 0x8c73#64 = 0x8000 ∧ pteBusy 0x8c73#64 = false ∧ pteCG 0x8c73#64 = false ∧ migrating.fenced = 0#8 ∧ 0x6000 % 8 = 0 := by
  decide +kernel

/-- The move in its second half, from local memory or, as a promotion that the host grants, from the host's. -/
def movingOn (i : Instr) (src : Nat) : State :=
  { moving { id := 1, slot := 0#4, i := i, x := 0, target := 0x40000000, va := 0x10000#64, phase := 1, src := src, n := 4096, ent := 0x6000 } with
    ats := [⟨0, 0, 12, 1⟩] }

theorem witness_MovesBeginAndEnd_end :
    (∀ q ∈ [(Instr.migr 0#4 1#6 2#6, 0x8000), (Instr.promo 0#4 1#6 2#6, locHost 0)],
      ((movingOn q.1 q.2).moveOf (movingOn q.1 q.2).ev.y).isSome = true ∧ (movingOn q.1 q.2).stalled q.2 = false ∧
      (movingOn q.1 q.2).stalled 0x10000 = false ∧ (movingOn q.1 q.2).waitsAt 0x6000 8 = false ∧ (movingOn q.1 q.2).poison = [] ∧
      (movingOn q.1 q.2).badcrc = [] ∧ (movingOn q.1 q.2).fenced = 0#8 ∧ q.2 % 64 = 0 ∧ (q.2 + 4096 ≤ 0x10000 ∨ 0x10000 + 4096 ≤ q.2)) ∧
    (0x6000 + 8 ≤ 0x10000 ∨ 0x10000 + 4096 ≤ 0x6000) ∧
    (movingOn (.promo 0#4 1#6 2#6) (locHost 0)).promoLacks 0 (locHost 0 - locHost 0) (locHost 0 - locHost 0 + 4096) (4096 / 4096) = none := by
  decide +kernel

/-- The mapped GiB with uncached pages. -/
def uncached : State := user.putBytes 0x4000 (natToBytes 8 0x40000cf3)
/-- A load and a store in flight as the oldest access. -/
def flying (s : State) (i : Instr) (va : Word) : State :=
  let a : Access := { id := 1, bc := 0#64, pos := .s, i := i, core := 0, sup := false, gm := 0#32, addrs := [va] }
  at_ (s.withCtx fun c => { c with flight := [a] }) { i := .remoteLoadLanding, y := 1 }
/-- The first access of the strand. -/
def first (s : State) : Access := s.ctx.flight.headD default

/-- Its access is due. -/
def due (s : State) (i : Instr) : Prop := AccessDue (flying s i 0x40#64) (first (flying s i 0x40#64)) [] 0x40#64

theorem witness_AccessesPerform : due uncached (.ldd 0#4 1#6 2#6 0#15) ∧ due uncached (.std 0#4 1#6 2#6 0#15) ∧
    (0x40#64 : Word).toNat % 8 = 0 ∧ isHbm 0x40000040 = true := by
  unfold due AccessDue; decide +kernel

/-- The translation of that access for a need, and the state after it. -/
def reached (i : Instr) (n : Need) : State × Xres := Machine.translate (flying uncached i 0x40#64) (.core 0) 0x40 false n

theorem witness_AccessesPerform_translated :
    (∀ q ∈ [(Instr.ldd 0#4 1#6 2#6 0#15, Need.read), (.std 0#4 1#6 2#6 0#15, .write)],
      (reached q.1 q.2).2 = .ok 0x40000040 true ∧ (reached q.1 q.2).1.isFenced 0x40000040 = false ∧ (reached q.1 q.2).1.poison = [] ∧
      (reached q.1 q.2).1.badcrc = [] ∧
      (reached q.1 q.2).1.piecesWait (strandOn 0 0#8) 0 (q.2 == .write) [(0x40000040, 8, true)] = false) ∧ user.ctx.r.tag = 0#8 ∧
    user.ctx.r.pend = [] := by decide +kernel

/-- A store to the storage view of plot 0, half 0 in compute mode, half 1 in storage mode. -/
def viewing (va : Word) : State := flying (plotted 0#64) (.std 0#4 1#6 2#6 0#15) va

theorem witness_AccessesPerform_closed : AccessDue (viewing 0xfffffff000000000#64) (first (viewing 0xfffffff000000000#64)) [] 0xfffffff000000000#64 := by
  unfold AccessDue; decide +kernel

theorem witness_AccessesPerform_open : AccessDue (viewing 0xfffffff000008000#64) (first (viewing 0xfffffff000008000#64)) [] 0xfffffff000008000#64 := by
  unfold AccessDue; decide +kernel

theorem witness_AccessesPerform_sound : Clean (viewing 0xfffffff000000000#64) ∧ (viewing 0xfffffff000000000#64).fenced = 0#8 ∧
    (viewing 0xfffffff000000000#64).piecesWait (strandOn 0 0#8) 0 true [(locField 0 0, 8, true)] = false := by
  unfold Clean; decide +kernel

theorem witness_AccessesPerform_view : decodeByte 0 0xfffffff000000000 = some (.fieldv, locField 0 0) ∧
    decodeByte 0 0xfffffff000008000 = some (.fieldv, locField 0 0x8000) ∧
    (plotted 0#64).halfOpen (locField 0 0) = false ∧ (plotted 0#64).halfOpen (locField 0 0x8000) = true := by decide +kernel

/-- A halfword load at an odd and at an even address is of remote memory. -/
theorem witness_AccessesPerform_parts : (decodeByte 0 0x41).map (fun q => q.1.isLocal) = some false ∧
    (decodeByte 0 0x42).map (fun q => q.1.isLocal) = some false := by decide +kernel

theorem witness_AccessesPerform_invalidations : 8 ≤ regionOf (locModule 255 0) ∧ (List.replicate 64 1#8).length = 64 ∧
    ({ user with copies := [(1, locModule 255 0)] } : State).cachedLine (lineOf (locModule 255 0)) = true ∧
    (({ at_ user { i := .invalidationApply, x := 1, y := 64, z := 1 } with inval := [⟨1, 64, [], false, 0⟩] } : State).inval.any fun v =>
      v.core == 1 && v.line == 64 && !v.acc) = true := by decide +kernel

theorem witness_AccessesPerform_pages : ((({ user with ptc := [⟨0, 0, 0x1000#64, 0, 12, 30, 0#64⟩] } : State).ptc.filter fun k =>
    k.va.toNat == 0x1000).any fun k => user.pageUsed k.core 0x1000 12) = false := by decide +kernel

/-- An atomic in flight whose entry waits, with the arrival of its value. -/
def awaiting : State :=
  let t := nextOf (exec (.aadd 0#4 1#6 2#6 1#1) user)
  at_ t { i := .alqValueArrival, x := 0, y := 0, v := 7#64, w := BitVec.ofNat 64 (t.ctx.r.alq.headD {}).id }
/-- A WAITA has armed the monitor. -/
def monitored : State := at_ (nextOf (exec (.waita 0#4 1#6 2#6 0#1 0#2) watching)) { i := .monitorReread, x := 0 }
/-- An asynchronous trap is due. -/
def interrupted : State := at_ (handled.withCtx fun c => { c with due := [{ kind := .async, cause := 0x15#8 }] }) { i := .trapEntry, x := 0 }

theorem witness_ArrivalsWakeStrands : awaiting.spilled = [] ∧ awaiting.ctx.seg = none ∧ awaiting.ctx.r.alq.length ≤ 16 ∧
    ((awaiting.ctx.r.alq[0]?).any fun e => e.id == awaiting.ev.w.toNat && !(match e.i with
      | .chdeq _ _ _ => true
      | _ => false)) = true ∧
    BitVec.ofNat 4 awaiting.ev.y = awaiting.ctx.r.alqh + BitVec.ofNat 4 0 ∧ awaiting.ctx.gone = false ∧
    isOk (awaiting.putWordsVA (.core awaiting.here) awaiting.here (captureAt awaiting.ctx.r.tfb (BitVec.ofNat 4 awaiting.ev.y))
      (captureWords (awaiting.ctx.r.alq.headD {}) (BitVec.ofNat 8 awaiting.ev.z) awaiting.ev.v)) = true ∧
    ((monitored.ctxAt monitored.ev.x).bind fun c => c.mon) = some ⟨locScratch 0 0, 8, 0#2, 5#64⟩ ∧
    monitored.poisonedAt (locScratch 0 0) 8 = false ∧ monitored.badCrcAt (locScratch 0 0) 8 = false := by decide +kernel

/-- An SQPOS whose fault arrives. -/
def positioning : State :=
  at_ (user.withRegs fun r => { r with alq := [5, 6].map fun n => { id := n, i := .sqpos 0#4 7#6 4#6 9#6 0#1 1#1 } }) { i := .alqFaultCapture, x := 0, z := 5, w := 5#64 }

theorem witness_ArrivalsWakeStrands_sqpos :
    okAnd (positioning.putWordsVA (.core 0) 0 (captureAt positioning.ctx.r.tfb 0#4) (captureWords (positioning.ctx.r.alq.headD {}) 5#8 0#64)) (fun u =>
      isOk (u.putWordsVA (.core 0) 0 (captureAt positioning.ctx.r.tfb (0#4 + 1#4)) (captureWords (positioning.ctx.r.alq.getD 1 {}) 5#8 0#64))) = true ∧
    positioning.here = 0 ∧ (positioning.ctx.r.alq.map fun e => e.id) = [5, 6] := by decide +kernel

/-- R380: both of its entries are marked. -/
theorem test_sqpos_fault_marks_both : (nextOf (exec .alqFaultCapture positioning)).ctx.r.alq.map (fun e => (e.valid, e.faulted)) = [(true, true), (true, true)] := by
  decide +kernel

theorem witness_ArrivalsWakeStrands_entry : interrupted.ev.x = interrupted.me ∧ interrupted.ctx.st = .running ∧ interrupted.ctx.phase = .normal ∧ interrupted.ctx.yreq = none ∧ interrupted.ctx.assays = [] ∧
    interrupted.ctx.gone = false ∧ interrupted.ctx.due = [{ kind := .async, cause := 0x15#8 }] ∧ interrupted.ctx.r.sup = false ∧
    interrupted.ctx.r.deep = false ∧ (interrupted.ctx.flight.any fun a => a.flt) = false ∧
    interrupted.reg (oTVEC (twrOf interrupted.here)) ≠ 0#64 ∧
    isOk (((interrupted.withCtx fun c => { c with due := [], sspend := false }).withRegs Regs.settle).putFrame
      { kind := .async, cause := 0x15#8 }) = true := by decide +kernel

/-- A strand that has been ready for 2^20 cycles in context 1. -/
def aged : State := at_ { user with ctxs := [(1, { user.ctx with st := .ready })], cyc := 0x100000#64 } { i := .strandRankAging, x := 1 }
/-- A task for context 1 whose image has arrived. -/
def arriving : State := at_ { tasked 0 false with placing := [{ id := 4, twr := 0, pid := 0, stage := 0, inst := 1023, core := 0, x := 1, shadow := false }] }
  { i := .taskImageArrival, y := 4 }
/-- A strand in the shadow bank of core G for context 3: staged, leaving, or being swapped in. -/
def shadowed (G : Nat) (h : Shadow) : State :=
  at_ (user.onCore G fun c => { c with shadow := some h }) { i := .shadowBankSwap, x := G }
def outside : Ctx := { user.ctx with st := .ready, r := { user.ctx.r with spl := 0xfffffffff0000000#64 } }

theorem witness_DispatcherAndSwaps : ((at_ (user.withRegs fun r => { r with run := 0#32 }) { i := .forcedYield, x := 0 }).ev.x = user.me ∧
      user.ctx.st = .running ∧ user.ctx.yreq = none ∧ user.yieldBudget user.ctx ≤ 65536) ∧
    ((aged.ctxAt aged.ev.x).any fun c => c.st == .ready && !c.agent && decide (c.age < 7) && decide (0x100000 ≤ (aged.cycAt 1 - c.since).toNat)) = true ∧
    (7 < 8 ∧ user.pipes = [] ∧ user.spilled = [] ∧ user.allCores.length = 1 ∧ user.core.shadow = none) ∧
    ((arriving.placing.find? fun r => r.id == arriving.ev.y).any fun q => ((arriving.pipeAt q.twr q.pid).any fun p =>
      (p.stages[q.stage]?).any fun k => k.image == 0#64) && (arriving.freeTag q.core).isSome && !q.shadow && q.core != 1536 && (arriving.ctxAt (4 * q.core + q.x)).isNone) = true := by decide +kernel

theorem witness_DispatcherAndSwaps_swap :
    (((shadowed 0 ⟨outside, 3, false, false, false, none, none⟩).staged 0).isSome = true ∧
      (shadowed 0 ⟨outside, 3, false, false, false, none, none⟩).ctxAt (4 * 0 + 3) = none) ∧
    ((((shadowed 1 ⟨outside, 3, true, false, true, some outside, none⟩).coreAt 1).shadow.any fun h => h.swapping && h.next.isSome && decide (h.x < 4)) = true ∧
      1 ≠ user.here) ∧
    ((((shadowed 0 ⟨outside, 3, true, false, false, none, none⟩).coreAt 0).shadow.any fun h => h.out && !h.swapping && !h.c.gone && !h.c.task) = true) := by
  decide +kernel

/-- A CTXSV of context 1 begun. -/
def saving : State := at_ { migrating with moves := [{ id := 1, slot := 0#4, i := .ctxsv 0#4 1#6 2#6, x := 0, target := 1, va := 0x10000#64 }] }
  { i := .spillComplete, x := 0, z := 1 }
/-- The strand of context 1 spilled with its image in the own scratchpad, and on its way back. -/
def returning : State :=
  at_ { base with spilled := [{ core := 0, c := outside, image := 0xfffffffff0000000#64, written := true, back := some 1 }] }
    { i := .reinstatementComplete, x := 0, y := 1 }

theorem witness_DispatcherAndSwaps_images :
    (((shadowed 0 ⟨outside, 3, true, false, false, none, none⟩).coreAt 0).shadow = some ⟨outside, 3, true, false, false, none, none⟩ ∧
      ∃ u, (shadowed 0 ⟨outside, 3, true, false, false, none, none⟩).writeImage (.core 0) 0 outside.r.spl outside.r = .ok u) ∧
    ((saving.moveOf saving.ev.z).any fun m => (saving.ctxAt m.target).any fun c => !c.r.deep && !c.gone && c.settled && c.seg.isNone && m.target != saving.me) = true ∧
    ((returning.spilled.find? fun p => p.core == 0 && p.back == some returning.ev.y).any fun q => returning.restorable 0 q.c && q.written && q.c.late.isEmpty) = true ∧
    returning.ctxAt (4 * 0 + 1) = none ∧ ∃ r v, returning.readImage (.core 0) 0 0xfffffffff0000000#64 = .ok (r, v) := by
  refine ⟨⟨by decide +kernel, ?_⟩, by decide +kernel, by decide +kernel, by decide +kernel, ?_⟩
  · have len : (toImage outside.r).length ≤ 65536 := by decide +kernel
    obtain ⟨u, e, _⟩ := State.putWordsVA_scratch (toImage outside.r) (shadowed 0 ⟨outside, 3, true, false, false, none, none⟩) (.core 0) 0 0
      (by omega) ⟨rfl, rfl⟩ (by omega)
    exact ⟨u, e⟩
  · obtain ⟨l, e⟩ := State.getWordsVA_scratch 1408 returning (.core 0) 0 0 (by omega) ⟨rfl, rfl⟩ (by omega)
    exact ⟨fromImage l, returning, by rw [State.readImage]; exact (congrArg _ e)⟩

/-- CTXSV of context 1, whose image goes into the own scratchpad. -/
def savingHere : State := { saving with moves := saving.moves.map fun m => { m with va := 0xfffffffff0000000#64 } }

theorem witness_DispatcherAndSwaps_save : ((savingHere.moveOf 1).any fun m => m.va == 0xfffffffff0000000#64 && m.target == 1) = true ∧ (savingHere.ctxAt 1).isSome = true ∧
    ∀ c, savingHere.ctxAt 1 = some c → (toImage (savingHere.leaving c).r).length ≤ 65536 → ∃ u, savingHere.writeImage (.core 0) 0 0xfffffffff0000000#64 (savingHere.leaving c).r = .ok u := by
  refine ⟨by decide +kernel, by decide +kernel, fun c _ len => ?_⟩
  obtain ⟨u, e, _⟩ := State.putWordsVA_scratch (toImage (savingHere.leaving c).r) savingHere (.core 0) 0 0 (by omega) ⟨rfl, rfl⟩ (by omega)
  exact ⟨u, e⟩

theorem witness_DispatcherAndSwaps_length : ((savingHere.ctxAt 1).any fun c => decide ((toImage (savingHere.leaving c).r).length ≤ 65536)) = true := by decide +kernel

/-- A request for the page at 0x7000 outstanding, on which the strand's load sleeps. -/
def asking : State := { at_ ((flying user (.ldd 0#4 1#6 2#6 0#15) 0x7008#64).withCtx fun c => { c with flight := c.flight.map fun a => { a with sleep := true } })
    { i := .pageRequestReply, x := 0, v := 0x7000#64 } with
  pri := [⟨0, 0x7000#64, true⟩]
  agenda := [{ i := .remoteLoadLanding, y := 1, asks := pageMark 0 0x7000#64 1 }] }

/-- The mapped GiB as the host's, with a completion for its first page that grants nothing. -/
def hosted : State := { (user.putBytes 0x4000 (natToBytes 8 0xc77)).setReg oTRCFG 0x600000#64 with
  ats := [⟨0, 0, 12, 0⟩]
  atsq := [(0, 0x1000#64)]
  atsw := [⟨0, 0x1000#64, ⟨.nop, 0, 0, 0⟩, false⟩, ⟨0, 0#64, ⟨.remoteLoadLanding, 0, 1, 0⟩, true⟩] }
/-- A load from that page, to which the host has already refused it or not. -/
def asks (k : Word) : State :=
  let t := flying hosted (.ldd 0#4 1#6 2#6 0#15) 0x40#64
  { t with ev := { t.ev with asks := k } }

theorem witness_HostAndAttestation : 0x1ffffff000 % 64 = 0 ∧ isHbm (0x1ffffff000 + 4095) = true ∧ user.bufWaits 0x1ffffff000 304 = false ∧ user.bufWaits 0x1ffffff000 4096 = false ∧ user.fenced = 0#8 ∧ Clean user ∧
    user.unaccepted 0x1ffffff000 304 = false ∧ ({ user with inval := [⟨1, 0x40, [], false, 0⟩] } : State).unaccepted 0x40 304 = true ∧
    (0xbffff8 < 0xc00000 ∧ 0xbffff8 % 8 = 0 ∧ (List.replicate 8 1#8).length = 8) ∧
    (user.waitsAt 0x1ffffffffff 1 = false ∧ user.isFenced 0x1ffffffffff = false ∧ 0x1ffffffffff + [1#8].length ≤ 0x20000000000 ∧
      (user.setReg (oHCOMMIT 7) 0x100#64).waitsAt 0x1ffffffffff 1 = true) ∧
    ((0xc00000 ≤ 0xc00000 ∧ 0x8000 ≤ 0x8000) ∧ (0xbffffc < 0xc00000 ∧ 0xbffffc % 8 ≠ 0) ∧ 0x7ffc < 0x8000 ∧ 0x7ffc % 8 ≠ 0) ∧ (1 < 2 ∧ 3 < 4) := by
  unfold Clean; decide +kernel

theorem witness_HostAndAttestation_ats : ((0x1000#64 : Word).toNat % 4096 = 0 ∧ (0x1000#64 : Word).toNat ≤ 0x1fff ∧
    0x1fff < (0x1000#64 : Word).toNat + 4096 ∧ (0, 0x1000#64) ∈ hosted.atsq ∧ hosted.atsw.any (fun w => w.twr == 0 && w.page == 0x1000#64) = true) ∧ user.atsq = [] := by decide +kernel

theorem witness_HostAndAttestation_pages : asking.asked asking.ev.x asking.ev.v = true ∧ asking.ev.y = 0 ∧
    (∃ e ∈ asking.agenda, e.asks = pageMark asking.ev.x asking.ev.v 1) ∧ user.asked 0 0x7000#64 = false ∧
    bits (user.reg oTRCFG) 31 24 = 0 ∧ bits ((user.setReg oTRCFG 0x1000000#64).reg oTRCFG) 31 24 ≠ 0 := by decide +kernel

theorem witness_HostAndAttestation_due : AccessDue (asks 0#64) (first (asks 0#64)) [] 0x40#64 ∧ (0x40#64 : Word).toNat % 8 = 0 := by
  unfold AccessDue; decide +kernel

theorem witness_HostAndAttestation_asks : (Machine.translate (asks 0#64) (.core 0) 0x40 false .read).2 = .ask ∧
    (asks 0#64).ev.asks ≠ pageMark 0 0x40#64 2 := by decide +kernel

theorem witness_HostAndAttestation_refused : (Machine.translate (asks (pageMark 0 0x40#64 2)) (.core 0) 0x40 false .read).2 = .ask ∧
    AccessDue (asks (pageMark 0 0x40#64 2)) (first (asks (pageMark 0 0x40#64 2))) [] 0x40#64 := by
  unfold AccessDue; decide +kernel

/-- The S-layer of tower 7 in a state of its emergency. -/
def layered (n : Nat) : State := at_ (user.setReg (oSLEMST 7) (BitVec.ofNat 64 n)) { i := .slayerFlushComplete, x := 7 }

theorem witness_PowerAndHeat : ((15#64 : Word).toNat < 16 ∧ (9#64 : Word).toNat ∈ [2, 3, 4, 5, 8, 9] ∧ user.records = [] ∧ (user.reg (oERRCTL 7)).getLsbD 6 = false ∧ user.reg (oERRBASE 7) = 0#64) ∧
    105 * 128 < celsius128 (reading ([0#8, 0#8, 0#8, 0#8, 0#8, 0#8, 0#8, 0#8] ++ List.replicate 36 0x7f#8) 2).1 ∧ user.layer 7 = 0 ∧
    ((layered 1).layer 7 = 1 ∧ (layered 3).layer 7 = 3 ∧ (layered 0).layer 7 ≠ 1 ∧ (layered 0).layer 7 ≠ 4) ∧
    (∀ i ∈ [0, 3, 4, 5, 6], 95 * 128 < celsius128 (reading (List.replicate 44 0x30#8) i).1) ∧ (∀ i ∈ [0, 3, 4, 5, 6], celsius128 (reading [] i).1 ≤ 90 * 128) ∧
    (layered 1).tooHot 7 = false ∧ (layered 1).vslow.getLsbD 7 = false ∧ ((layered 3).sdirty.any fun a => hbmTower a == 7) = false ∧
    (user.cycOf 7).toNat ≤ 5 ∧ (user.cycOf 7).toNat < 6 ∧ user.heating = false ∧
    ({ user with csr := [(oBOOTST, 3#64)], cold := true } : State).heating = true := by decide +kernel

/-- Port 0 leads to module 9, to which a load of core 0 is in flight on it. -/
def linked : State := ((uncached.putBytes 0x4000 (natToBytes 8 (0x40000cf3 + 8 + 9 * 2 ^ 52))).setReg (oALCTL 0) 0x090003#64).withCtx fun c => { c with
  flight := [{ id := 1, bc := 0#64, pos := .s, i := .ldd 0#4 1#6 2#6 0#15, core := 0, sup := false, gm := 0#32, addrs := [0x40#64] }] }

theorem witness_TowersLinksAndResets_ports : ({ linked with sent := (linked.farRequests 9).map fun q => (q.1, q.2, 0) } : State).portInUse 0 = true ∧ user.portInUse 0 = false ∧
    user.retries.getD 0 0 + 1 ≤ 16 ∧ 16 < ({ user with retries := user.retries.setIfInBounds 0 16 } : State).retries.getD 0 0 + 1 := by decide +kernel

theorem witness_TowersLinksAndResets : 7 < 8 ∧ user.fenced.getLsbD 7 = false ∧ ({ user with fenced := 0x80#8 } : State).fenced.getLsbD 7 = true ∧
    ((user.setReg (oALCTL 0) 3#64).reg (oALCTL 0)).getLsbD 0 = true ∧ ((user.setReg (oALCTL 0) 3#64).reg (oALCTL 0)).getLsbD 1 = true ∧
    (user.reg (oALCTL 0)).getLsbD 0 = false ∧ (isHbm 0x1ffffffffc0 = true ∧ isHbm (0x1ffffffffc0 + 63) = true) ∧ Clean user ∧
    user.isFenced 0x1ffffffffc0 = false ∧ user.waitsAt 0x1ffffffffc0 63 = false ∧
    ({ user with csr := [(oBOOTST, 3#64)], cold := true } : State).stage = 3 ∧ user.stage ≠ 3 := by
  unfold Clean; decide +kernel

/-! ## A reload that reads its parts and completes -/

/-- A started reload of half 0 of plot 0 from virtual address 0 with some parts left. -/
def reload (l : List (Nat × Nat)) : FieldOp := { id := 3, core := 0, plot := 0, kind := 3, v := 1, started := true, left := l }
/-- The machine with that reload and some pages cached. -/
def reloading (tlb : List TlbEntry) (l : List (Nat × Nat)) : State := at_ { base with mem := [], tlb := tlb, fops := [reload l] } { i := .reloadComplete, y := 3 }
/-- The first gigabyte's page. -/
def onePage : List TlbEntry := [⟨.tower 0, 0, 30, 0x40000c73#64, 3⟩]

theorem witness_FieldOperationsPerform_part : ((reloading onePage [(5, 6)]).fops.find? fun o => o.id == (reloading onePage [(5, 6)]).ev.y) = some (reload [(5, 6)]) ∧
    (reload [(5, 6)]).started = true ∧
    takePart [(5, 6)] (Config.freeIndex (reloading onePage [(5, 6)]).free % partsLeft [(5, 6)]) = some (5, []) ∧ 5 < reloadParts ∧
    (match ((reloading onePage [(5, 6)]).originPart 16 false 0 0 false 80).2 with
      | .line bs false none => bs.length == 16
      | _ => false) = true := by
  refine ⟨by decide, rfl, ?_, by decide, by decide +kernel⟩
  rw [show partsLeft [(5, 6)] = 1 from rfl, Nat.mod_one]
  rfl

theorem witness_FieldOperationsPerform_fault : takePart [(0, 1)] (Config.freeIndex (reloading [] [(0, 1)]).free % partsLeft [(0, 1)]) = some (0, []) ∧
    (reload [(0, 1)]).flt = none ∧
    (match ((reloading [] [(0, 1)]).originPart 16 true 0 0 false 0).2 with
      | .fault _ _ => true
      | _ => false) = true := by
  refine ⟨?_, rfl, by decide +kernel⟩
  rw [show partsLeft [(0, 1)] = 1 from rfl, Nat.mod_one]
  rfl

theorem witness_FieldOperationsPerform_reload : ((reloading [] []).fops.find? fun o => o.id == (reloading [] []).ev.y) = some (reload []) ∧
    (reload []).started = true ∧ (reload []).left = [] ∧ (reload []).plot < 2048 ∧ (reload []).h < 2 ∧ (reload []).v < 2 := by decide

theorem witness_RowChecksAndAssays_reload : (at_ segmented { i := .rowCheck, x := 5, y := 263, z := 1 }).unwritten 5 263 = false ∧
    refetching.underReload 0 = false ∧
    (at_ (((reloading [] [(0, 4)]).setPlot 0 8#64).withCtx fun c => { c with seg := segmented.ctx.seg }) { i := .rowCheck, x := 0, y := 0, z := 1 }).unwritten 0 0 = true ∧
    ((refetching.setPlot 0 8#64).underReload 0 = true ∧ (0, 0) ∈ (refetching.setPlot 0 8#64).refetch) := by decide +kernel

end Sys2Proof.Tests
end

section
/-! Family 11, control and scalar: the words of the X and S slots, results of a guarded slot, and the values of the scalar unit. -/

namespace Sys2Proof.Claim

open Sys2Proof Sys2Proof.Machine

/-! ## Slot words without a header -/

/-- The fields of a slot word without a header: no field has a sixth bit and HX is 0 (R235). -/
def plain (g : BitVec 4) (op : BitVec 7) (x : BitVec 20) : Fields :=
  ⟨false, g, op, (fd x).setWidth 6, (fa x).setWidth 6, (fb x).setWidth 6, ff x, 0#5⟩

section
variable (st : BitVec 1) (g : BitVec 4) (op : BitVec 7) (x : BitVec 20)

@[simp] theorem plain_g : (plain g op x).g = g := rfl
@[simp] theorem plain_d : (plain g op x).d = (fd x).setWidth 6 := rfl
@[simp] theorem plain_a : (plain g op x).a = (fa x).setWidth 6 := rfl
@[simp] theorem plain_b : (plain g op x).b = (fb x).setWidth 6 := rfl
@[simp] theorem plain_f : (plain g op x).f = ff x := rfl
@[simp] theorem plain_x : (plain g op x).x = 0#5 := rfl

theorem operands_word {k n : Nat} (h : k + n ≤ 20) : (st ++ g ++ op ++ x).extractLsb' k n = x.extractLsb' k n :=
  BitVec.extractLsb'_append_eq_of_add_le h

theorem opcode_word : (st ++ g ++ op ++ x).extractLsb' 20 7 = op := by
  rw [BitVec.extractLsb'_append_eq_of_le (by decide)]
  exact BitVec.extractLsb'_append_eq_right

theorem guard_word : (st ++ g ++ op ++ x).extractLsb' 27 4 = g := by
  rw [BitVec.extractLsb'_append_eq_of_le (by decide), BitVec.extractLsb'_append_eq_of_le (by decide)]
  exact BitVec.extractLsb'_append_eq_right

theorem stop_word : (st ++ g ++ op ++ x).getLsbD 31 = (st == 1#1) := by
  have e : (st ++ g ++ op ++ x).extractLsb' 31 1 = st := by
    rw [BitVec.extractLsb'_append_eq_of_le (by decide), BitVec.extractLsb'_append_eq_of_le (by decide)]
    exact BitVec.extractLsb'_append_eq_left
  have bit : ∀ v : BitVec 1, v.getLsbD 0 = (v == 1#1) := by decide
  rw [← bit st, ← e, BitVec.getLsbD_extractLsb']
  simp only [e, Nat.zero_lt_one, decide_true, Bool.true_and, Nat.add_zero]

/-- A word with an opcode is no NOP (R236). -/
theorem word_ne_nop (h : op ≠ 0#7) : ((st ++ g ++ op ++ x).extractLsb' 0 31 == 0#31) = false := by
  refine beq_false_of_ne fun z => h ?_
  have e := congrArg (fun w : BitVec 31 => w.extractLsb' 20 7) z
  rw [BitVec.extractLsb'_extractLsb'_of_le (by decide), opcode_word] at e
  exact e.trans (by decide)

theorem zero_append_field (v : BitVec 5) : 0#1 ++ v = v.setWidth 6 := by
  rw [BitVec.setWidth_eq_append (by decide)]; rfl

theorem unpack_word : unpack false 0#8 (st ++ g ++ op ++ x) = plain g op x := by
  simp only [unpack, plain, guard_word, opcode_word, operands_word _ _ _ _ (show 15 + 5 ≤ 20 by decide),
    operands_word _ _ _ _ (show 10 + 5 ≤ 20 by decide), operands_word _ _ _ _ (show 5 + 5 ≤ 20 by decide),
    operands_word _ _ _ _ (show 0 + 5 ≤ 20 by decide), ← zero_append_field, fd, fa, fb, ff]
  rfl

theorem decodeClass_s (h : op ≠ 0#7) : decodeClass .s none (st ++ g ++ op ++ x) = decodeS (plain g op x) := by
  simp only [decodeClass, word_ne_nop st g op x h, Option.map_none, Option.getD_none, Option.isSome_none, unpack_word]
  rfl

theorem decodeClass_x (h : op ≠ 0#7) (h' : op ≠ 0x7f#7) :
    decodeClass .x none (st ++ g ++ op ++ x) = decodeX (plain g op x) := by
  have e : ((plain g op x).op == 0x7f#7) = false := beq_false_of_ne h'
  simp only [decodeClass, word_ne_nop st g op x h, Option.map_none, Option.getD_none, Option.isSome_none, unpack_word, e]
  rfl

/-! ### Fields and immediates -/

@[simp] theorem hi1_field (v : BitVec 5) : hi1 (v.setWidth 6) = true := by
  revert v; decide

@[simp] theorem hi2_field (v : BitVec 5) : hi2 (v.setWidth 6) = decide (v.toNat < 16) := by
  revert v; decide

@[simp] theorem field_eq_zero (v : BitVec 5) : v.setWidth 6 = 0#6 ↔ v = 0#5 := by
  revert v; decide

@[simp] theorem plain_imm10 : (plain g op x).imm10 = x.setWidth 10 := by
  have fbf : fb x ++ ff x = x.extractLsb' 0 10 := BitVec.extractLsb'_append_extractLsb'_eq_extractLsb' rfl
  rw [BitVec.setWidth_eq_extractLsb' (by decide), ← fbf, Fields.imm10, plain_b, plain_f]
  simp

@[simp] theorem plain_imm15 : (plain g op x).imm15 = x.setWidth 15 := by
  have fab : fa x ++ fb x = x.extractLsb' 5 10 := BitVec.extractLsb'_append_extractLsb'_eq_extractLsb' rfl
  have fabf : x.extractLsb' 5 10 ++ ff x = x.extractLsb' 0 15 := BitVec.extractLsb'_append_extractLsb'_eq_extractLsb' rfl
  rw [BitVec.setWidth_eq_extractLsb' (by decide), ← fabf, ← fab, Fields.imm15, plain_a, plain_b, plain_f]
  simp

@[simp] theorem plain_off20 : (plain g op x).off20 = x := by
  have fda : fd x ++ fa x = x.extractLsb' 10 10 := BitVec.extractLsb'_append_extractLsb'_eq_extractLsb' rfl
  have fdab : x.extractLsb' 10 10 ++ fb x = x.extractLsb' 5 15 := BitVec.extractLsb'_append_extractLsb'_eq_extractLsb' rfl
  have fdabf : x.extractLsb' 5 15 ++ ff x = x.extractLsb' 0 20 := BitVec.extractLsb'_append_extractLsb'_eq_extractLsb' rfl
  have whole : fd x ++ fa x ++ fb x ++ ff x = x := by
    rw [fda, fdab, fdabf]; exact BitVec.extractLsb'_eq_self
  rw [Fields.off20, plain_d, plain_a, plain_b, plain_f]
  simp [whole]

@[simp] theorem plain_immS : (plain g op x).immS = (x.setWidth 10).signExtend 15 := by
  rw [← plain_imm10 g op x]; rfl

end

/-! ### Rows of the opcode map -/

section
variable {op : BitVec 7} {mk : BitVec 4 → BitVec 20 → Option Instr}
  {c : BitVec 4 → BitVec 20 → Bool} {i : BitVec 4 → BitVec 20 → Instr}

theorem coded_of_decodeClass {p : Pos}
    (dec : ∀ (st : BitVec 1) (g : BitVec 4) (x : BitVec 20), decodeClass p none (st ++ g ++ op ++ x) = req (c g x) (i g x))
    (wf : ∀ g x, (i g x).wf = true) (e : ∀ g x, req (c g x) (i g x) = mk g x) : Coded p op mk := by
  intro st g x
  rw [← e g x, decodeSlot, dec, stop_word]
  cases c g x with
  | true => simp [req, wf]
  | false => rfl

/-- The words of a row of class S whose instruction forbids no field value are what its fields give. -/
theorem coded_s (dec : ∀ g x, decodeS (plain g op x) = req (c g x) (i g x)) (e : ∀ g x, req (c g x) (i g x) = mk g x)
    (h : op ≠ 0#7 := by decide) (wf : ∀ g x, (i g x).wf = true := by intros; rfl) : Coded .s op mk :=
  coded_of_decodeClass (fun st g x => (decodeClass_s st g op x h).trans (dec g x)) wf e

/-- The words of a row of class X whose instruction forbids no field value are what its fields give. -/
theorem coded_x (dec : ∀ g x, decodeX (plain g op x) = req (c g x) (i g x)) (e : ∀ g x, req (c g x) (i g x) = mk g x)
    (h : op ≠ 0#7 := by decide) (h' : op ≠ 0x7f#7 := by decide) (wf : ∀ g x, (i g x).wf = true := by intros; rfl) :
    Coded .x op mk :=
  coded_of_decodeClass (fun st g x => (decodeClass_x st g op x h h').trans (dec g x)) wf e

theorem coded_three {mk : BitVec 4 → BitVec 6 → BitVec 6 → BitVec 6 → Instr}
    (dec : ∀ F : Fields, decodeS { F with op := op } = req ((F.f == 0#5) && (F.x == 0#5)) (mk F.g F.d F.a F.b) := by intros; rfl)
    (h : op ≠ 0#7 := by decide) (wf : ∀ g d a b, (mk g d a b).wf = true := by intros; rfl) : Coded .s op (three mk) :=
  coded_s (fun g x => dec (plain g op x)) (fun g x => by simp [req, three]) h fun _ _ => wf _ _ _ _

theorem coded_compare {mk : BitVec 4 → BitVec 4 → BitVec 6 → BitVec 6 → Instr}
    (dec : ∀ F : Fields, decodeS { F with op := op } =
      req (hi2 F.d && (F.f == 0#5) && (F.x == 0#5)) (mk F.g (F.d.setWidth 4) F.a F.b) := by intros; rfl)
    (h : op ≠ 0#7 := by decide) (wf : ∀ g d a b, (mk g d a b).wf = true := by intros; rfl) : Coded .s op (compare mk) :=
  coded_s (fun g x => dec (plain g op x)) (fun g x => by simp [req, compare, and_comm]) h fun _ _ => wf _ _ _ _

theorem coded_logic {mk : BitVec 4 → BitVec 4 → BitVec 4 → BitVec 4 → Instr}
    (dec : ∀ F : Fields, decodeS { F with op := op } =
      req (hi2 F.d && hi2 F.a && hi2 F.b && (F.f == 0#5) && (F.x == 0#5))
        (mk F.g (F.d.setWidth 4) (F.a.setWidth 4) (F.b.setWidth 4)) := by intros; rfl)
    (h : op ≠ 0#7 := by decide) (wf : ∀ g d a b, (mk g d a b).wf = true := by intros; rfl) : Coded .s op (logic mk) :=
  coded_s (fun g x => dec (plain g op x)) (fun g x => by simp [req, logic, and_comm, and_assoc, and_left_comm]) h
    fun _ _ => wf _ _ _ _

end

/-! ## Results of a slot whose guard is true -/

theorem awaits_land (s : State) (i : Instr) (lat : Nat) (p : Pos) (ws : List Write) (a b c : Vec) (gm : BitVec 32) (w : Word) :
    Awaits i s (s.land lat p i ws a b c gm w) lat p ws :=
  ⟨fun x => ⟨lat, s.ctx.r.bc, p, i, x, a, b, c, gm, w, false, lat == 1⟩, rfl, fun _ => ⟨rfl, rfl, rfl, rfl, rfl⟩⟩

/-! Each lemma takes the meaning of the instruction as `exec` gives it, with the value that `exec` writes equal to the one stated. -/

section
variable {s : State} {g : BitVec 4} {i : Instr} {p : Pos}

theorem returns_land {lat : Nat} {ws : List Write} {a b c : Vec} {gm : BitVec 32} {w : Word} (on : s.on g = true)
    (h : exec i s = .next (if s.on g then s.land lat p i ws a b c gm w else s)) : Returns i s lat p ws :=
  ⟨_, h.trans (congrArg _ (if_pos on)), awaits_land s i lat p ws a b c gm w, rfl, fun _ => rfl, fun _ => rfl⟩

theorem returns_scalar {d : BitVec 6} {u v : Word} (on : s.on g = true) (e : u = v)
    (h : exec i s = .next (if s.on g then s.ret1 p i [.s d u] else s) := by rfl) : Returns i s 1 p [.s d v] :=
  e ▸ returns_land on h

theorem returns_predicate {d : BitVec 4} {u v : BitVec 32} (on : s.on g = true) (e : u = v)
    (h : exec i s = .next (if s.on g then s.retP i d u else s) := by rfl) : Returns i s 1 .s [.p d v 0xffffffff#32] :=
  e ▸ returns_land on h

/-- The form of the products, quotients and remainders, which capture their operands (R196, R275). -/
theorem returns_late {lat : Nat} {d a b : BitVec 6} {u v : Word} (on : s.on g = true) (e : u = v)
    (h : exec i s = .next (if s.on g then s.land lat .s i [.s d u] (opd (s.sr a)) (opd (s.sr b)) 0#1024 (s.pr g) 0#64 else s)) :
    Returns i s lat .s [.s d v] :=
  e ▸ returns_land on h

theorem goes_to {u v : Word} (on : s.on g = true) (e : u = v) (h : exec i s = .next (if s.on g then s.goTo u else s) := by rfl) :
    ∃ t, exec i s = .next t ∧ t.ctx = { s.ctx with npc := some v } ∧ OnlyCtx s t :=
  ⟨s.goTo u, h.trans (congrArg _ (if_pos on)), e ▸ rfl, rfl⟩

theorem goes_to_and_links {d : BitVec 6} {u v : Word} (on : s.on g = true) (e : u = v)
    (h : exec i s = .next (if s.on g then (s.goTo u).ret1 .x i [.s d (s.ctx.r.pc + 16#64)] else s) := by rfl) :
    ∃ t, exec i s = .next t ∧ Awaits i s t 1 .x [.s d (s.ctx.r.pc + 16#64)] ∧
      t.ctx = { s.ctx with npc := some v, r := { s.ctx.r with pend := t.ctx.r.pend } } ∧ OnlyCtx s t :=
  ⟨(s.goTo u).ret1 .x i [.s d (s.ctx.r.pc + 16#64)], h.trans (congrArg _ (if_pos on)),
    awaits_land (s.goTo u) i 1 .x _ _ _ _ _ _, e ▸ rfl, rfl⟩

end

/-! ## Values of the scalar unit -/

section
variable (x y : Word) (k : Nat)

theorem sub_eq_ofInt : x - y = BitVec.ofInt 64 (x.toInt - y.toInt) := by
  apply BitVec.eq_of_toInt_eq
  rw [BitVec.toInt_sub, BitVec.toInt_ofInt]

theorem add_signExtend_eq_ofInt {n : Nat} (imm : BitVec n) :
    x + imm.signExtend 64 = BitVec.ofInt 64 (x.toInt + imm.toInt) := by
  rw [BitVec.ofInt_add, BitVec.ofInt_toInt]
  rfl

theorem shiftLeft_eq_ofNat : x <<< k = BitVec.ofNat 64 (x.toNat * 2 ^ k) := by
  apply BitVec.eq_of_toNat_eq
  rw [BitVec.toNat_shiftLeft, BitVec.toNat_ofNat, Nat.shiftLeft_eq]

theorem ushiftRight_eq_ofNat : x >>> k = BitVec.ofNat 64 (x.toNat / 2 ^ k) := by
  rw [← Nat.shiftRight_eq_div_pow, ← BitVec.toNat_ushiftRight, BitVec.ofNat_toNat, BitVec.setWidth_eq]

theorem sshiftRight_eq_ofInt : x.sshiftRight k = BitVec.ofInt 64 (x.toInt / 2 ^ k) := by
  rw [BitVec.sshiftRight_eq, Int.shiftRight_eq_div_pow]
  norm_cast

theorem rotR_eq : rotR x y = (x >>> (y.toNat % 64)) ||| (x <<< (64 - y.toNat % 64)) := by
  rw [rotR, BitVec.rotateRight_def, shAmt, Nat.mod_mod]

theorem shiftIn_eq {n : Nat} (h : n ≤ 16) (imm : BitVec n) :
    shiftIn x (imm.setWidth 64) = BitVec.ofNat 64 (x.toNat * 65536 + imm.toNat) := by
  have apart : x <<< 16 &&& imm.setWidth 64 = 0#64 := by
    ext i hi
    by_cases l : i < 16
    · simp [l]
    · simp [BitVec.getLsbD_of_ge imm i (by omega)]
  rw [shiftIn, ← BitVec.add_eq_or_of_and_eq_zero _ _ apart, shiftLeft_eq_ofNat, BitVec.ofNat_add, BitVec.ofNat_toNat]
  norm_num

/-! ### Smaller and larger -/

theorem minS_eq : minS x y = if y.slt x then y else x := by
  by_cases h : x.toInt ≤ y.toInt <;> simp [minS, BitVec.slt_eq_decide, h]

theorem minU_eq : minU x y = if y.ult x then y else x := by
  by_cases h : x.toNat ≤ y.toNat <;> simp [minU, BitVec.ult_eq_decide, h]

theorem maxS_eq : maxS x y = if x.slt y then y else x := by
  rcases Int.lt_trichotomy x.toInt y.toInt with h | h | h
  · simp [maxS, BitVec.slt_eq_decide, h, Int.le_of_lt h]
  · simp [BitVec.eq_of_toInt_eq h, maxS]
  · simp [maxS, BitVec.slt_eq_decide, Int.not_le.mpr h, Int.not_lt.mpr (Int.le_of_lt h)]

theorem maxU_eq : maxU x y = if x.ult y then y else x := by
  rcases Nat.lt_trichotomy x.toNat y.toNat with h | h | h
  · simp [maxU, BitVec.ult_eq_decide, h, Nat.le_of_lt h]
  · simp [BitVec.eq_of_toNat_eq h, maxU]
  · simp [maxU, BitVec.ult_eq_decide, Nat.not_le.mpr h, Nat.not_lt.mpr (Nat.le_of_lt h)]

/-! ### Products, quotients and remainders -/

theorem mul_eq_ofInt : x * y = BitVec.ofInt 64 (x.toInt * y.toInt) := by
  rw [BitVec.ofInt_mul, BitVec.ofInt_toInt, BitVec.ofInt_toInt]

/-- The high half of a 128-bit value is its floor quotient by 2^64. -/
theorem highHalf_ofInt (z : Int) : (BitVec.ofInt 128 z).extractLsb' 64 64 = BitVec.ofInt 64 (z / 2 ^ 64) := by
  apply BitVec.eq_of_toNat_eq
  rw [BitVec.extractLsb'_toNat, BitVec.toNat_ofInt, BitVec.toNat_ofInt, Nat.shiftRight_eq_div_pow]
  omega

theorem mulHighS_eq : mulHighS x y = (x.signExtend 128 * y.signExtend 128).extractLsb' 64 64 := by
  have product : x.signExtend 128 * y.signExtend 128 = BitVec.ofInt 128 (x.toInt * y.toInt) := (BitVec.ofInt_mul _ _).symm
  rw [product, highHalf_ofInt, mulHighS]

theorem mulHighU_eq : mulHighU x y = (x.setWidth 128 * y.setWidth 128).extractLsb' 64 64 := by
  have product : x.setWidth 128 * y.setWidth 128 = BitVec.ofInt 128 (x.toNat * y.toNat : Nat) := by
    rw [BitVec.ofInt_natCast, BitVec.ofNat_mul, BitVec.ofNat_toNat, BitVec.ofNat_toNat]
  rw [product, highHalf_ofInt, mulHighU, ← BitVec.ofInt_natCast]
  norm_cast

variable {y}

theorem divSigned_ne_zero (h : y ≠ 0#64) : divSigned x y = x.sdiv y := by
  rw [divSigned, if_neg h]
  apply BitVec.eq_of_toInt_eq
  rw [BitVec.toInt_sdiv, BitVec.toInt_ofInt]

theorem divUnsigned_ne_zero (h : y ≠ 0#64) : divUnsigned x y = x / y := by
  rw [divUnsigned, if_neg h, BitVec.udiv_def]

theorem remSigned_ne_zero (h : y ≠ 0#64) : remSigned x y = x.srem y := by
  rw [remSigned, if_neg h, ← BitVec.toInt_srem, BitVec.ofInt_toInt]

theorem remUnsigned_ne_zero (h : y ≠ 0#64) : remUnsigned x y = x % y := by
  rw [remUnsigned, if_neg h, BitVec.umod_def]

theorem divSigned_zero (h : y = 0#64) : divSigned x y = 0xffffffffffffffff#64 := if_pos h

theorem divUnsigned_zero (h : y = 0#64) : divUnsigned x y = 0xffffffffffffffff#64 := if_pos h

theorem remSigned_zero (h : y = 0#64) : remSigned x y = x := if_pos h

theorem remUnsigned_zero (h : y = 0#64) : remUnsigned x y = x := if_pos h

end

/-! ### Conditions -/

section
variable (x y : Word)

theorem flagsOf_eq {b : Bool} {P : Prop} [Decidable P] (h : b = true ↔ P) :
    flagsOf b = if P then 0xffffffff#32 else 0#32 := if_congr h rfl rfl

theorem flagsOf_bne : flagsOf (x != y) = if x = y then 0#32 else 0xffffffff#32 := by
  by_cases h : x = y <;> simp [flagsOf, h]

theorem not_ltS_iff_sle : (!ltS y x) = true ↔ x.sle y = true := by
  simp [ltS, BitVec.sle_eq_decide]

theorem beq_signExtend_iff {n : Nat} (h : n ≤ 64) (imm : BitVec n) : (x == imm.signExtend 64) = true ↔ x.toInt = imm.toInt := by
  rw [beq_iff_eq, ← BitVec.toInt_inj, BitVec.toInt_signExtend_of_le h]

theorem ltS_signExtend_iff {n : Nat} (h : n ≤ 64) (imm : BitVec n) : ltS x (imm.signExtend 64) = true ↔ x.toInt < imm.toInt := by
  rw [ltS, BitVec.toInt_signExtend_of_le h, decide_eq_true_iff]

end

/-! ## Branches -/

theorem branchTarget_eq (s : State) (off : BitVec 20) :
    branchTarget s off = BitVec.ofInt 64 (s.ctx.r.pc.toNat + 16 * off.toInt) := by
  have offset : off.signExtend 64 <<< 4 = BitVec.ofInt 64 (16 * off.toInt) := by
    rw [BitVec.shiftLeft_eq_mul_twoPow, BitVec.ofInt_mul, BitVec.mul_comm]
    rfl
  rw [BitVec.ofInt_add, BitVec.ofInt_natCast, BitVec.ofNat_toNat, BitVec.setWidth_eq, ← offset, branchTarget]

/-! ## The statements -/

/-- Settles O15, by the fields of the four words and the jump, with or without a link, that each one is. -/
theorem branchesSetTarget : Obligations.BranchesSetTarget := by
  refine ⟨?_, ?_, ?_, ?_, fun s g on => ⟨?_, ?_, ?_, ?_⟩⟩
  · exact coded_x (fun _ _ => rfl) fun g x => by simp [req]
  · exact coded_x (fun _ _ => rfl) fun g x => by simp [req]
  · exact coded_x (fun _ _ => rfl) fun g x => by simp [req, and_assoc]
  · exact coded_x (fun _ _ => rfl) fun g x => by simp [req]
  · exact fun off => goes_to on (branchTarget_eq s off)
  · exact fun _ => goes_to on rfl
  · exact fun off => goes_to_and_links on (branchTarget_eq s off)
  · exact fun _ _ => goes_to_and_links on rfl

/-- Settles O20: each result is the value of its operation. -/
theorem scalarArithmeticResults : Obligations.ScalarArithmeticResults := by
  refine ⟨coded_three, coded_three, coded_three, coded_three, coded_three, coded_three, coded_three, coded_three, coded_three,
    coded_three, coded_three, coded_three, coded_three, fun s g d a b on => ⟨?_, ?_, ?_, ?_, ?_, ?_, ?_, ?_, ?_, ?_, ?_, ?_, ?_,
      fun imm => ⟨?_, ?_, ?_, ?_⟩, fun k => ⟨?_, ?_, ?_⟩⟩⟩
  · exact returns_scalar on (BitVec.add_def _ _)
  · exact returns_scalar on (sub_eq_ofInt _ _)
  · exact returns_scalar on rfl
  · exact returns_scalar on rfl
  · exact returns_scalar on rfl
  · exact returns_scalar on (shiftLeft_eq_ofNat _ _)
  · exact returns_scalar on (ushiftRight_eq_ofNat _ _)
  · exact returns_scalar on (sshiftRight_eq_ofInt _ _)
  · exact returns_scalar on (rotR_eq _ _)
  · exact returns_scalar on (minS_eq _ _)
  · exact returns_scalar on (maxS_eq _ _)
  · exact returns_scalar on (minU_eq _ _)
  · exact returns_scalar on (maxU_eq _ _)
  · exact returns_scalar on (add_signExtend_eq_ofInt _ imm)
  · exact returns_scalar on rfl
  · exact returns_scalar on rfl
  · exact returns_scalar on rfl
  · exact returns_scalar on (shiftLeft_eq_ofNat _ _)
  · exact returns_scalar on (ushiftRight_eq_ofNat _ _)
  · exact returns_scalar on (sshiftRight_eq_ofInt _ _)

/-- Settles O21, with the zero divisor as a case of its own. -/
theorem multiplyDivideResults : Obligations.MultiplyDivideResults := by
  refine ⟨coded_three, coded_three, coded_three, coded_three, coded_three, coded_three, coded_three,
    fun s g d a b on => ⟨?_, ?_, ?_, fun nz => ⟨?_, ?_, ?_, ?_⟩, fun z => ⟨?_, ?_, ?_, ?_⟩⟩⟩
  · exact returns_late on (mul_eq_ofInt _ _) rfl
  · exact returns_late on (mulHighS_eq _ _) rfl
  · exact returns_late on (mulHighU_eq _ _) rfl
  · exact returns_late on (divSigned_ne_zero _ nz) rfl
  · exact returns_late on (divUnsigned_ne_zero _ nz) rfl
  · exact returns_late on (remSigned_ne_zero _ nz) rfl
  · exact returns_late on (remUnsigned_ne_zero _ nz) rfl
  · exact returns_late on (divSigned_zero _ z) rfl
  · exact returns_late on (divUnsigned_zero _ z) rfl
  · exact returns_late on (remSigned_zero _ z) rfl
  · exact returns_late on (remUnsigned_zero _ z) rfl

/-- Settles O23: a compare's 32 bits are the flags of its condition. -/
theorem predicateResults : Obligations.PredicateResults := by
  refine ⟨coded_compare, coded_compare, coded_compare, coded_compare, coded_compare, coded_compare, ?_, ?_,
    coded_logic, coded_logic, coded_logic, ?_, ?_, ?_,
    fun s g d a b on => ⟨?_, ?_, ?_, ?_, ?_, ?_, fun imm => ⟨?_, ?_⟩, fun p q => ⟨?_, ?_, ?_, ?_, ?_⟩, ?_⟩⟩
  · exact coded_s (fun _ _ => rfl) fun g x => by simp [req]
  · exact coded_s (fun _ _ => rfl) fun g x => by simp [req]
  · exact coded_s (fun _ _ => rfl) fun g x => by simp [req, and_comm, and_left_comm]
  · exact coded_s (fun _ _ => rfl) fun g x => by simp [req, and_comm]
  · exact coded_s (fun _ _ => rfl) fun g x => by simp [req, and_comm]
  · exact returns_predicate on (flagsOf_eq beq_iff_eq)
  · exact returns_predicate on (flagsOf_bne _ _)
  · exact returns_predicate on (flagsOf_eq Iff.rfl)
  · exact returns_predicate on (flagsOf_eq (not_ltS_iff_sle _ _))
  · exact returns_predicate on (flagsOf_eq Iff.rfl)
  · exact returns_predicate on (flagsOf_eq Iff.rfl)
  · exact returns_predicate on (flagsOf_eq (beq_signExtend_iff _ (by decide) imm))
  · exact returns_predicate on (flagsOf_eq (ltS_signExtend_iff _ (by decide) imm))
  · exact returns_predicate on rfl
  · exact returns_predicate on rfl
  · exact returns_predicate on rfl
  · exact returns_predicate on BitVec.xor_allOnes.symm
  · exact returns_scalar on (BitVec.ofNat_toNat 64 _).symm
  · exact returns_predicate on (BitVec.ofNat_toNat 32 _).symm

/-- Settles O24, with each named special register read at its number. -/
theorem stagingAndSpecialResults : Obligations.StagingAndSpecialResults := by
  refine ⟨?_, ?_, ?_, ?_, fun s g on => ⟨?_, ?_, fun d imm => ⟨?_, ?_⟩, ?_, ?_, fun d => ⟨?_, ?_, ?_, ?_, ?_, ?_, ?_⟩⟩⟩
  · exact coded_x (fun _ _ => rfl) fun g x => by simp [req]
  · exact coded_x (fun _ _ => rfl) fun g x => by simp [req]
  · exact coded_x (fun _ _ => rfl) fun g x => by simp [req]
  · exact coded_x (fun _ _ => rfl) fun g x => by simp [req]
  · exact fun _ _ _ => returns_scalar on (BitVec.add_def _ _)
  · exact fun _ _ imm => returns_scalar on (add_signExtend_eq_ofInt _ imm)
  · exact returns_scalar on rfl
  · exact returns_scalar on (shiftIn_eq _ (by decide) imm)
  · exact fun _ _ => returns_land on rfl
  · exact fun _ _ => returns_scalar on rfl
  · exact returns_scalar on rfl
  · exact returns_scalar on rfl
  · exact returns_scalar on rfl
  · exact returns_scalar on rfl
  · exact returns_scalar on rfl
  · exact returns_scalar on (BitVec.ofNat_toNat 64 _).symm
  · exact returns_scalar on rfl

end Sys2Proof.Claim
end

section
/-! Family 15, NMU and attention: the elements of a written tile, what an NMU operation in its turn leaves of its core and of the
machine, and the operations that rewrite one tile by itself. -/

namespace Sys2Proof.Claim

open Sys2Proof Sys2Proof.Machine

/-! ## Elements of a tile -/

/-- The bits of the first n words of a row. -/
theorem getLsbD_rowPrefix (f : Nat → BitVec 32) (n i : Nat) :
    ((List.range n).foldl (fun (acc : BitVec 2048) c => acc ||| ((f c).setWidth 2048 <<< (32 * c))) 0#2048).getLsbD i =
      (decide (i < 2048) && decide (i / 32 < n) && (f (i / 32)).getLsbD (i % 32)) := by
  induction n with
  | zero => simp
  | succ n ih =>
    rw [List.range_succ, List.foldl_append, List.foldl_cons, List.foldl_nil, BitVec.getLsbD_or, ih, BitVec.getLsbD_shiftLeft,
      BitVec.getLsbD_setWidth]
    rcases Nat.lt_trichotomy (i / 32) n with before | at_n | after
    · have below : i < 32 * n := by omega
      simp [before, below, Nat.lt_succ_of_lt before]
    · have place : i - 32 * n = i % 32 := by omega
      have reached : ¬ i < 32 * n := by omega
      by_cases inside : i < 2048
      · have small : i % 32 < 2048 := by omega
        simp [at_n, inside, place, reached, small]
      · simp [inside]
    · have past : 32 ≤ i - 32 * n := by omega
      have beyond : ¬ i / 32 < n ∧ ¬ i / 32 < n + 1 := by omega
      simp [beyond, BitVec.getLsbD_of_ge (f n) _ past]

theorem extractLsb'_rowOf (f : Nat → BitVec 32) {c : Nat} (h : c < 64) : (rowOf f).extractLsb' (32 * c) 32 = f c := by
  apply BitVec.eq_of_getLsbD_eq
  intro i hi
  have word : (32 * c + i) / 32 = c := by omega
  have bit : (32 * c + i) % 32 = i := by omega
  have inside : 32 * c + i < 2048 := by omega
  rw [BitVec.getLsbD_extractLsb', rowOf, getLsbD_rowPrefix, word, bit]
  simp [hi, h, inside]

theorem el_fill (t : Tile) (f : Nat → Nat → BitVec 32) {r c : Nat} (hr : r < 64) (hc : c < 64) : (t.fill f).el r c = f r c := by
  simp [Tile.el, Tile.fill, Vector.getD, hr, extractLsb'_rowOf _ hc]

@[simp] theorem zm_fill (t : Tile) (f : Nat → Nat → BitVec 32) : (t.fill f).zm = t.zm := by
  rw [Tile.fill]

@[simp] theorem zs_fill (t : Tile) (f : Nat → Nat → BitVec 32) : (t.fill f).zs = t.zs := by
  rw [Tile.fill]

/-! ## Tiles of a core -/

@[simp] theorem tile_setTile_self (c : Core) (d : BitVec 2) (t : Tile) : (c.setTile d t).tile d = t := by
  simp [Core.tile, Core.setTile, Vector.getD, d.isLt]

theorem tile_setTile_ne (c : Core) {d n : BitVec 2} (t : Tile) (ne : n ≠ d) : (c.setTile d t).tile n = c.tile n := by
  have ne' : d.toNat ≠ n.toNat := fun e => ne (BitVec.eq_of_toNat_eq e.symm)
  simp [Core.tile, Core.setTile, Vector.getD, n.isLt, ne']

theorem tile_congr {b c : Core} (h : b.z = c.z) (n : BitVec 2) : b.tile n = c.tile n := by
  rw [Core.tile, Core.tile, h]

/-! ## Cores of the machine -/

/-- Records changed at their keys are found changed. -/
theorem findKey_map {α β : Type} (f : α → β) (l : List (Nat × α)) (k : Nat) :
    findKey (l.map fun q => (q.1, f q.2)) k = (findKey l k).map f := by
  induction l with
  | nil => rfl
  | cons q l ih =>
    rw [List.map_cons, findKey, findKey, ih]
    split <;> rfl

@[simp] theorem coreAt_onCore_self (s : State) (G : Nat) (f : Core → Core) : (s.onCore G f).coreAt G = f (s.coreAt G) := by
  unfold State.onCore State.coreAt
  by_cases h : G = s.here <;> simp [h]

theorem sameBytes_onCore (s : State) (G : Nat) (f : Core → Core) : SameBytes s (s.onCore G f) := by
  intro l
  unfold State.onCore
  split <;> rfl

theorem sameCsr_onCore (s : State) (G : Nat) (f : Core → Core) : SameCsr s (s.onCore G f) := by
  intro o
  unfold State.onCore
  split <;> rfl

/-- The core with every strand of its shadow bank changed. -/
def onShadow (g : Ctx → Ctx) (c : Core) : Core :=
  { c with shadow := c.shadow.map fun h => { h with c := g h.c, next := h.next.map g } }

theorem cores_mapCtx (s : State) (p : Ctx → Bool) (f : Ctx → Ctx) :
    (s.mapCtx p f).cores = s.cores.map fun q => (q.1, onShadow (fun c => if p c then f c else c) q.2) := rfl

/-- A change of strands leaves every core its tiles. -/
theorem z_coreAt_mapCtx (s : State) (p : Ctx → Bool) (f : Ctx → Ctx) (G : Nat) :
    ((s.mapCtx p f).coreAt G).z = (s.coreAt G).z := by
  by_cases h : G = s.here
  · have present : G = (s.mapCtx p f).here := h
    rw [State.coreAt, if_pos present, State.coreAt, if_pos h]
    rfl
  · have elsewhere : G ≠ (s.mapCtx p f).here := h
    rw [State.coreAt, if_neg elsewhere, State.coreAt, if_neg h, cores_mapCtx, findKey_map]
    cases findKey s.cores G <;> rfl

/-! ## An NMU operation in its turn (R356) -/

section
variable (s : State) (G : Nat) (op : NmuOp)

/-- Core G without an operation and without its scoreboard entries. -/
def leaveNmu : State := (s.onCore G fun c => { c with nmuq := c.nmuq.filter fun q => q.id != op.id }).finishSb G op.sbs

/-- Which gangs close is no matter of the cores. -/
theorem coreAt_endNmu : (s.endNmu G op).coreAt G = ((leaveNmu s G op).opEnded op.id).coreAt G := rfl

theorem z_coreAt_leaveNmu : ((leaveNmu s G op).coreAt G).z = (s.coreAt G).z := by
  rw [leaveNmu, State.finishSb, coreAt_onCore_self, coreAt_onCore_self]
  rfl

/-- Leaving the NMU changes no tile of the core. -/
theorem tile_endNmu (n : BitVec 2) : ((s.endNmu G op).coreAt G).tile n = (s.coreAt G).tile n := by
  apply tile_congr
  rw [coreAt_endNmu, State.opEnded, z_coreAt_mapCtx, z_coreAt_leaveNmu]

theorem sameBytes_endNmu : SameBytes s (s.endNmu G op) := fun l =>
  (sameBytes_onCore _ G (·.finish op.sbs) l).trans (sameBytes_onCore s G _ l)

theorem sameCsr_endNmu : SameCsr s (s.endNmu G op) := fun o =>
  (sameCsr_onCore _ G (·.finish op.sbs) o).trans (sameCsr_onCore s G _ o)

end

/-- An operation that may perform does so and leaves the NMU. -/
theorem exec_nmuOperationComplete {s : State} {op : NmuOp} (found : ((s.coreAt s.ev.x).nmuq.find? fun q => q.id == s.ev.y) = some op)
    (ready : (s.coreAt s.ev.x).nmuReady op = true) :
    exec .nmuOperationComplete s = .next ((s.doNmu s.ev.x op).endNmu s.ev.x op) := by
  have turn : s.nmuEnds s.ev.x s.ev.y = (s.doNmu s.ev.x op).endNmu s.ev.x op := by
    simp only [State.nmuEnds, found, ready, if_true]
  exact congrArg _ turn

/-- Tile d of core G becomes the tile given; no other tile of the core, no byte and no window register changes. -/
def OnlyTile (G : Nat) (d : BitVec 2) (tile : Tile) (s t : State) : Prop :=
  (t.coreAt G).tile d = tile ∧ (∀ n, n ≠ d → (t.coreAt G).tile n = (s.coreAt G).tile n) ∧ SameBytes s t ∧ SameCsr s t

/-- An operation that rewrites tile d from itself changes, in its turn, nothing else of any tile, of memory or of the window. -/
theorem rewrites_tile {s : State} {op : NmuOp} {G : Nat} {d : BitVec 2} {f : Tile → Tile} (event : G = s.ev.x)
    (found : ((s.coreAt G).nmuq.find? fun q => q.id == s.ev.y) = some op) (ready : (s.coreAt G).nmuReady op = true)
    (does : s.doNmu G op = s.onCore G fun c => c.setTile d (f (c.tile d))) :
    ∃ t, exec .nmuOperationComplete s = .next t ∧ OnlyTile G d (f ((s.coreAt G).tile d)) s t := by
  subst event
  refine ⟨_, exec_nmuOperationComplete found ready, ?_⟩
  rw [does]
  refine ⟨?_, fun n ne => ?_, fun l => ?_, fun o => ?_⟩
  · rw [tile_endNmu, coreAt_onCore_self, tile_setTile_self]
  · rw [tile_endNmu, coreAt_onCore_self, tile_setTile_ne _ _ ne]
  · exact (sameBytes_endNmu _ _ op l).trans (sameBytes_onCore s _ _ l)
  · exact (sameCsr_endNmu _ _ op o).trans (sameCsr_onCore s _ _ o)

/-! ## The tile of a ZCLR (R138, R365) -/

/-- A ZCLR replaces the side registers of its tile: S is 1, and they are no mere part of a tile that stays poisoned. -/
def clearsSides (side full : Bool) (t : Tile) : Bool := side && (full || !t.poison)

theorem clearTile_eq (side full : Bool) (t : Tile) :
    clearTile side full t =
      { rows := if full then Vector.replicate 64 0#2048 else t.rows
        zm := if clearsSides side full t then Vector.replicate 64 0xff800000#32 else t.zm
        zs := if clearsSides side full t then Vector.replicate 64 0#32 else t.zs
        poison := !full && t.poison } := by
  cases t with
  | mk rows zm zs poison =>
    cases full with
    | true => cases side <;> simp [clearTile, clearsSides]
    | false =>
      cases poison with
      | true => simp [clearTile, clearsSides]
      | false => cases side <;> simp [clearTile, clearsSides]

section
variable (side full : Bool) (t : Tile) {r : Nat}

theorem poison_clearTile : (clearTile side full t).poison = (!full && t.poison) := by
  rw [clearTile_eq]

theorem zm_clearTile (h : r < 64) :
    (clearTile side full t).zm.getD r 0#32 = if clearsSides side full t then 0xff800000#32 else t.zm.getD r 0#32 := by
  rw [clearTile_eq]
  cases clearsSides side full t <;> simp [Vector.getD, h]

theorem zs_clearTile (h : r < 64) :
    (clearTile side full t).zs.getD r 0#32 = if clearsSides side full t then 0#32 else t.zs.getD r 0#32 := by
  rw [clearTile_eq]
  cases clearsSides side full t <;> simp [Vector.getD, h]

theorem el_clearTile (h : r < 64) (c : Nat) : (clearTile side full t).el r c = if full then 0#32 else t.el r c := by
  rw [clearTile_eq, Tile.el]
  cases full <;> simp [Tile.el, Vector.getD, h]

end

theorem clearsSides_iff (x y : BitVec 1) (t : Tile) :
    clearsSides (x == 1#1) (y == 1#1) t = true ↔ x = 1#1 ∧ (y = 1#1 ∨ t.poison = false) := by
  simp [clearsSides]

/-! ## The statements -/

/-- Settles O40, by the tile that each pair of flags leaves. -/
theorem zclrClearsTile : Obligations.ZclrClearsTile := by
  intro s op G g d x y event found ready zclr
  have does : s.doNmu G op = s.onCore G fun c => c.setTile d (clearTile (x == 1#1) (y == 1#1) (c.tile d)) := by
    simp only [State.doNmu, zclr]
  obtain ⟨t, runs, tile, frame⟩ := rewrites_tile event found ready does
  refine ⟨t, runs, ?_, fun r hr => ⟨?_, ?_, fun c _ => ?_⟩, frame⟩
  · rw [tile, poison_clearTile]
    by_cases full : y = 1#1 <;> simp [full]
  · rw [tile, zm_clearTile _ _ _ hr]
    exact if_congr (clearsSides_iff x y _) rfl rfl
  · rw [tile, zs_clearTile _ _ _ hr]
    exact if_congr (clearsSides_iff x y _) rfl rfl
  · rw [tile, el_clearTile _ _ _ hr]
    exact if_congr beq_iff_eq rfl rfl

/-- Settles O41: a normalised tile is its old one with the elements filled in. -/
theorem osmfNormalisesRows : Obligations.OsmfNormalisesRows := by
  intro s op G g d event found ready osmf
  have does : s.doNmu G op = s.onCore G fun c => c.setTile d (normalise (op.ng.getD 7 0#64) (c.tile d)) := by
    simp only [State.doNmu, osmf]
  obtain ⟨t, runs, tile, frame⟩ := rewrites_tile event found ready does
  refine ⟨t, runs, fun r c hr hc => ?_, ?_, ?_, frame⟩
  · rw [tile, normalise, el_fill _ _ hr hc]
  · rw [tile, normalise, zm_fill]
  · rw [tile, normalise, zs_fill]

end Sys2Proof.Claim
end
